-- ==== Sys2Proof/Word.lean ====
section
/-! DEFINITION. The byte and the word of the Merell, and the names of its units by number (R11). -/

namespace Sys2Proof

/-- A byte: R7. -/
abbrev Byte := BitVec 8

/-- A scalar register's width: R25. -/
abbrev Word := BitVec 64

/-- A SHA-384 value, first octet most significant: R7. -/
abbrev Hash := BitVec 384

/-- A logical core, 0 to 255: R11, R12. -/
abbrev CoreId := BitVec 8

/-- A physical core, 0 to 287: R11. -/
abbrev PhysId := Fin 288

/-- A panel, P0 to P7: R11. -/
abbrev PanelId := Fin 8

/-- An Oalan port, 0 to 35: R11. -/
abbrev PortId := Fin 36

/-- An HBM channel, 0 to 511: R272. -/
abbrev ChanId := Fin 512

/-- A cartridge bay, B0 or B1: R403. -/
abbrev BayId := Fin 2

/-- A module's number in a configuration: R344. -/
abbrev ModuleId := BitVec 5

end Sys2Proof
end

