-- ==== Sys2Proof/Syntax.lean ====
section
/-!
DEFINITION. The commands of the block: one constructor of `Instr` per row of spec/opcode_table.json, with its
operands. A slot command carries the issuing core and the fields of its slot (R23); an event command carries the
unit it happens at and the facts that only the world can supply (a reading, an ECC result, the bytes on a wire).
-/

namespace Sys2Proof

/-- The C slot of a row: R23, R24. -/
structure CSlot where
  core : CoreId
  sd : BitVec 5 := 0
  sa : BitVec 5 := 0
  sb : BitVec 5 := 0
  x : BitVec 6 := 0
  imm : BitVec 32 := 0
  deriving DecidableEq, Repr

/-- The M slot of a row: R23, R61; `f` is slot bits [95:32]. -/
structure MSlot where
  core : CoreId
  xa : BitVec 5 := 0
  wa : BitVec 5 := 0
  pa : BitVec 5 := 0
  ta : BitVec 5 := 0
  f : BitVec 64 := 0
  deriving DecidableEq, Repr

/-- A V slot of a row: R23, R108; `pipe` tells V1 from V0, `f` is slot bits [79:42]. -/
structure VSlot where
  core : CoreId
  pipe : Bool := false
  vd : BitVec 5 := 0
  va : BitVec 5 := 0
  vb : BitVec 5 := 0
  vc : BitVec 5 := 0
  mask : BitVec 3 := 0
  maskEn : Bool := false
  ab : BitVec 5 := 0
  st : BitVec 5 := 0
  f : BitVec 38 := 0
  deriving DecidableEq, Repr

/-- The B slot of a row: R23, R46, R156, R212; `f` is slot bits [63:32]. -/
structure BSlot where
  core : CoreId
  src : BitVec 5 := 0
  dst : BitVec 5 := 0
  cnt : BitVec 5 := 0
  f : BitVec 32 := 0
  deriving DecidableEq, Repr

/-- The D slot of a row: R23, R143, R200; `f` is slot bits [95:32]. -/
structure DSlot where
  core : CoreId
  q : BitVec 2 := 0
  desc : BitVec 5 := 0
  src : BitVec 5 := 0
  dst : BitVec 5 := 0
  f : BitVec 64 := 0
  deriving DecidableEq, Repr

/-- A command or reply packet as it stands on the service port: R349, R350. `cid` names the session, `src` the
address it came from. -/
structure Packet where
  cid : Nat
  src : Nat := 0
  magic : BitVec 16 := 0x504C
  version : BitVec 8 := 1
  flags : BitVec 8 := 0
  session : BitVec 16 := 0
  opcode : BitVec 16 := 0
  seqOut : BitVec 32 := 0
  seqAck : BitVec 32 := 0xFFFFFFFF
  tag : BitVec 32 := 0
  paramLen : BitVec 32 := 0
  status : BitVec 16 := 0
  reserved : BitVec 16 := 0
  crc : BitVec 32 := 0
  params : List Byte := []
  deriving DecidableEq, Repr

/-- The certificate chain of a client in a handshake: the CA it ends at, and how many certificates it has (R346, R348). -/
structure ClientChain where
  ca : Hash
  length : Nat
  deriving DecidableEq, Repr

/-- What a fetch of a row, or a read of a protected word, met: R135 to R137. -/
inductive EccResult where
  | clean | corrected | uncorrectable
  deriving DecidableEq, Repr

/-- How the re-reads of an uncorrectable word ended: R40, R136. -/
inductive Reread where
  /-- the first or the second re-read was good, and perhaps corrected -/
  | good (corrected : Bool)
  /-- both failed -/
  | failed
  deriving DecidableEq, Repr

/-- An SRAM buffer of a core: R135. -/
inductive Buffer where
  | wb | ab | pb | acc | imem
  deriving DecidableEq, Repr

/-- A word that a read met, as `ECC_LAST` names it: R139. A WB line counts from its group, whose 16 banks `bank` names. -/
structure EccWord where
  buffer : Buffer
  line : Nat
  bank : Nat
  /-- the word is an ACC tag word, `line` its entry -/
  accTag : Bool := false
  /-- which of the four 8-byte code words of a WB bank word: R135 -/
  part : Nat := 0
  deriving DecidableEq, Repr

/-- The readings the firmware has at an epoch mark: R260 to R264, R290 to R304. -/
structure EpochReadings where
  /-- margin of each panel: R261 -/
  margins : List (Nat × Nat) := []
  /-- idle PLL locked at the mark, per panel not listed: yes; R282 -/
  unlocked : List PanelId := []
  /-- junction temperature of each panel: R302 -/
  tj : List (Nat × Int) := []
  hubMax : Int := 0
  hbmMax : Int := 0
  opticsMax : Int := 0
  /-- module input power in pips over the last epoch: R304, R306 -/
  inPips : Nat := 0
  deriving DecidableEq, Repr

/-- What an inserted cartridge holds: R402 to R406. -/
structure CartFacts where
  serial : List Byte := []
  fwRev : List Byte := []
  capacity : Nat := 0
  authOk : Bool := true
  valid : Bool := false
  state : Nat := 0
  mirrorId : Nat := 0
  generation : Nat := 0
  written : Nat := 0
  objects : List (Hash × Nat × List Byte) := []
  staged : List (List Byte) := []
  pctUsed : Nat := 0
  certHash : Hash := 0
  deriving DecidableEq, Repr

/-- How a port's training attempt ended: R332, R334, R335. `messages` are those of the peer's CHALLENGE exchange, which the module signs. -/
inductive TrainResult where
  | up (peerModule : ModuleId) (peerSide : Bool) (peerPort : Nat) (authOk : Bool) (messages : List (BitVec 8))
  | failed
  deriving DecidableEq, Repr

/-- What a peer says when the configuration forms: R334. -/
structure PeerId where
  module : ModuleId
  side : Bool
  /-- its arch_rev: R334 -/
  arch : Nat := 1
  /-- its GT at the formation: R257 -/
  gt : Nat := 0
  /-- its n: R334, R336 -/
  n : Nat := 1
  deriving DecidableEq, Repr

/-- What the FEC of a port says of a flit: whether an uncorrectable codeword touches it, and how many uncorrectable codewords were not counted
with an earlier flit: R331, R343. -/
structure FecFact where
  bad : Bool := false
  words : Nat := 0
  deriving DecidableEq, Repr

/-- What the other modules of a configuration report of a task at its cast-off: R190, R191, R371. -/
structure PeerReport where
  /-- a tally, a skein or a FIFO did not balance there: R191, R217 -/
  restored : Bool := false
  /-- a poisoned word was delivered there: R215 -/
  poisoned : Bool := false
  /-- RESCALED, SATURATED and NONFINITE there: R368 -/
  flags : Nat := 0
  /-- where another module leads, its result bytes by slot: R371 -/
  results : List (List Byte) := []
  /-- where another module leads, its GT at cast-off: R321 -/
  gt : Nat := 0
  deriving DecidableEq, Repr

/-- A task that is to cast on, and how many tasks of its pattern the twin has queued, which only the twin knows: R189, R383. -/
structure CastOnFacts where
  task : Nat
  twinQueued : Nat := 0
  deriving DecidableEq, Repr

/-- The enrolled-certificate request of the management path: R423. -/
structure EnrolReq where
  add : Bool
  /-- a client CA, else a pattern-signing key -/
  ca : Bool
  hash : Hash
  keyId : Hash
  roles : Nat
  /-- the certificate meets the profile of R230 or R348 -/
  certOk : Bool := true
  deriving DecidableEq, Repr

/-- A sensor of the platform monitoring: R422. -/
inductive Sensor where
  | panelMax | hubMax | hbmMax | opticsMax | throttleEpochs | inPips | peakPips
  | curCode (panel : PanelId)
  | modState | degraded
  | bay (b : BayId)
  deriving DecidableEq, Repr

/-- A numeric effecter: R422. -/
inductive Effecter where
  | cap | idleMs | wrInterval
  | ceiling (panel : PanelId)
  deriving DecidableEq, Repr

/-- What boot steps 3 and 4 meet: R397, R399. -/
structure BootFacts where
  /-- every rail comes up within its range -/
  railsOk : Bool := true
  /-- channels that fail their training -/
  badChannels : List ChanId := []
  deriving DecidableEq, Repr

/-- What a core's check stage meets when it fetches a row of its active bank in this command: R137. -/
structure FetchFact where
  core : CoreId
  row : Nat
  result : EccResult
  deriving DecidableEq, Repr

/-- What has become of a core's memories before a cycle: R135, R210. -/
structure PortFact where
  core : CoreId
  /-- the parity of the words popped from its FIFOs is right -/
  parityOk : Bool := true
  /-- the words in which a single-bit error has appeared: its next reads, on any port, meet it -/
  found : List EccWord := []
  deriving DecidableEq, Repr

/-- The held cycles that pass, and what the check stages of the gang meet in them: R39, R137. -/
structure HeldFacts where
  cycles : Nat
  fetch : List FetchFact := []
  deriving DecidableEq, Repr

/-- How long an engine port re-reads a word, and for whom: R40, R164. -/
structure RereadTime where
  /-- panel cycles of the re-reads -/
  cycles : Nat
  /-- a running cable owned the port -/
  cable : Bool := false
  deriving DecidableEq, Repr

/-- A command: one constructor per row of the table (R8 to R448). -/
inductive Instr where
  /-- ISSUE_CYCLE, R27. -/
  | issueCycle (core : CoreId) (fetch : List FetchFact) (ports : List PortFact)
  /-- HELD_TURN_END, R39. -/
  | heldTurnEnd (core : CoreId) (held : HeldFacts)
  /-- S_ADD, R24. -/
  | sAdd (c : CSlot)
  /-- S_SUB, R24. -/
  | sSub (c : CSlot)
  /-- S_AND, R24. -/
  | sAnd (c : CSlot)
  /-- S_OR, R24. -/
  | sOr (c : CSlot)
  /-- S_XOR, R24. -/
  | sXor (c : CSlot)
  /-- S_SHL, R24. -/
  | sShl (c : CSlot)
  /-- S_SHR, R24. -/
  | sShr (c : CSlot)
  /-- S_SRA, R24. -/
  | sSra (c : CSlot)
  /-- S_SLT, R24. -/
  | sSlt (c : CSlot)
  /-- S_SLTU, R24. -/
  | sSltu (c : CSlot)
  /-- S_SEQ, R24. -/
  | sSeq (c : CSlot)
  /-- S_MUL, R24. -/
  | sMul (c : CSlot)
  /-- S_LI, R24. -/
  | sLi (c : CSlot)
  /-- S_LUI, R24. -/
  | sLui (c : CSlot)
  /-- S_LD, R24. -/
  | sLd (c : CSlot)
  /-- S_ST, R24. -/
  | sSt (c : CSlot)
  /-- S_RDREG, R52. -/
  | sRdreg (c : CSlot)
  /-- SB_DEF, R34. -/
  | sbDef (c : CSlot)
  /-- BR, R31. -/
  | br (c : CSlot)
  /-- BR_Z, R31. -/
  | brZ (c : CSlot)
  /-- BR_NZ, R31. -/
  | brNz (c : CSlot)
  /-- BR_NEG, R31. -/
  | brNeg (c : CSlot)
  /-- LOOP_I, R32. -/
  | loopI (c : CSlot)
  /-- LOOP_R, R32. -/
  | loopR (c : CSlot)
  /-- TALLY_SIG, R175. -/
  | tallySig (c : CSlot)
  /-- TALLY_WAIT, R176. -/
  | tallyWait (c : CSlot)
  /-- TALLY_TAKE, R176. -/
  | tallyTake (c : CSlot)
  /-- BANK_FLIP, R51. -/
  | bankFlip (c : CSlot)
  /-- BRK, R24. -/
  | brk (c : CSlot)
  /-- TASK_END, R190. -/
  | taskEnd (c : CSlot)
  /-- MM_PASS, R61. -/
  | mmPass (m : MSlot)
  /-- MM_TILE, R69. -/
  | mmTile (m : MSlot)
  /-- MM_DIAG, R77. -/
  | mmDiag (m : MSlot)
  /-- MM_DRAIN, R65. -/
  | mmDrain (m : MSlot)
  /-- MM_MON, R79. -/
  | mmMon (m : MSlot)
  /-- RESCALE, R75. -/
  | rescale (core : CoreId)
  /-- RESCALE_CLEAR, R75. -/
  | rescaleClear (core : CoreId) (cycles : Nat)
  /-- MM_TILE_OUTPUT_DONE, R72. -/
  | mmTileOutputDone (core : CoreId)
  /-- V_ADD, R114. -/
  | vAdd (v : VSlot)
  /-- V_SUB, R114. -/
  | vSub (v : VSlot)
  /-- V_MUL, R114. -/
  | vMul (v : VSlot)
  /-- V_FMA, R114. -/
  | vFma (v : VSlot)
  /-- V_FNMA, R114. -/
  | vFnma (v : VSlot)
  /-- V_WFMA, R114. -/
  | vWfma (v : VSlot)
  /-- V_MIN, R114. -/
  | vMin (v : VSlot)
  /-- V_MAX, R114. -/
  | vMax (v : VSlot)
  /-- V_ABS, R115. -/
  | vAbs (v : VSlot)
  /-- V_NEG, R115. -/
  | vNeg (v : VSlot)
  /-- V_AND, R114. -/
  | vAnd (v : VSlot)
  /-- V_OR, R114. -/
  | vOr (v : VSlot)
  /-- V_XOR, R114. -/
  | vXor (v : VSlot)
  /-- V_SHL, R114. -/
  | vShl (v : VSlot)
  /-- V_SHR, R114. -/
  | vShr (v : VSlot)
  /-- V_SRA, R114. -/
  | vSra (v : VSlot)
  /-- V_POPC, R114. -/
  | vPopc (v : VSlot)
  /-- V_IOTA, R114. -/
  | vIota (v : VSlot)
  /-- V_SEL, R114. -/
  | vSel (v : VSlot)
  /-- V_CEQ, R116. -/
  | vCeq (v : VSlot)
  /-- V_CLT, R116. -/
  | vClt (v : VSlot)
  /-- V_CLE, R116. -/
  | vCle (v : VSlot)
  /-- M_AND, R114. -/
  | mAnd (v : VSlot)
  /-- M_OR, R114. -/
  | mOr (v : VSlot)
  /-- M_XOR, R114. -/
  | mXor (v : VSlot)
  /-- M_ANDN, R114. -/
  | mAndn (v : VSlot)
  /-- V_CVT, R117. -/
  | vCvt (v : VSlot)
  /-- V_CVTBS, R118. -/
  | vCvtbs (v : VSlot)
  /-- V_EXP, R93. -/
  | vExp (v : VSlot)
  /-- V_LOG, R94. -/
  | vLog (v : VSlot)
  /-- V_RCP, R95. -/
  | vRcp (v : VSlot)
  /-- V_RSQRT, R96. -/
  | vRsqrt (v : VSlot)
  /-- V_TANH, R97. -/
  | vTanh (v : VSlot)
  /-- V_ERF, R97. -/
  | vErf (v : VSlot)
  /-- V_COMPRESS, R119. -/
  | vCompress (v : VSlot)
  /-- V_EXPAND, R119. -/
  | vExpand (v : VSlot)
  /-- V_REDSUM, R120. -/
  | vRedsum (v : VSlot)
  /-- V_REDMAX, R120. -/
  | vRedmax (v : VSlot)
  /-- V_REDMIN, R120. -/
  | vRedmin (v : VSlot)
  /-- V_SIEVE, R121. -/
  | vSieve (v : VSlot)
  /-- V_SINIT, R122. -/
  | vSinit (v : VSlot)
  /-- V_SETVL, R114. -/
  | vSetvl (v : VSlot)
  /-- V_GETVL, R114. -/
  | vGetvl (v : VSlot)
  /-- V_LD, R112. -/
  | vLd (v : VSlot)
  /-- V_ST, R112. -/
  | vSt (v : VSlot)
  /-- RIB_PUT, R46. -/
  | ribPut (b : BSlot)
  /-- B_MOVE, R156. -/
  | bMove (b : BSlot)
  /-- SP_PUT, R156. -/
  | spPut (b : BSlot)
  /-- SP_GET, R156. -/
  | spGet (b : BSlot)
  /-- SP_SIG, R156. -/
  | spSig (b : BSlot)
  /-- SP_WORD, R156. -/
  | spWord (b : BSlot)
  /-- FIFO_PUSH, R213. -/
  | fifoPush (b : BSlot)
  /-- FIFO_POP, R214. -/
  | fifoPop (b : BSlot) (parityOk : Bool)
  /-- FIFO_STAT, R212. -/
  | fifoStat (b : BSlot)
  /-- DMA_GET, R145. -/
  | dmaGet (d : DSlot)
  /-- DMA_PUT, R145. -/
  | dmaPut (d : DSlot)
  /-- STRAND_SEND, R200. -/
  | strandSend (d : DSlot)
  /-- CABLE_RUN, R159. -/
  | cableRun (d : DSlot)
  /-- DMA_BURST_SEND, R153. -/
  | dmaBurstSend (core : CoreId) (q : BitVec 2)
  /-- DELIVERY_LAST_BURST, R35. -/
  | deliveryLastBurst (core : CoreId) (id : Nat)
  /-- DMA_COMPLETE, R150. -/
  | dmaComplete (core : CoreId) (q : BitVec 2)
  /-- ACKED_RELEASE, R183. -/
  | ackedRelease (core : CoreId)
  /-- SHORT_PATH_COMPLETE, R157. -/
  | shortPathComplete (core : CoreId) (id : Nat)
  /-- CABLE_STAGE_UNIT, R160. -/
  | cableStageUnit (core : CoreId) (stage : BitVec 2)
  /-- CABLE_COMPLETE, R165. -/
  | cableComplete (core : CoreId)
  /-- EXTERNAL_BURST_WRITE, R128. -/
  | externalBurstWrite (id : Nat)
  /-- ECC_REREAD, R40. -/
  | eccReread (core : CoreId) (word : EccWord) (outcome : Reread) (time : RereadTime)
  /-- EXTERNAL_REREAD, R136. -/
  | externalReread (phys : PhysId) (word : EccWord) (outcome : Reread)
  /-- SCRUB_READ, R138. -/
  | scrubRead (phys : PhysId) (word : EccWord) (result : EccResult) (outcome : Reread)
  /-- TALLY_ADD, R330. -/
  | tallyAdd (id : Nat)
  /-- TALLY_RELEASE, R177. -/
  | tallyRelease (core : CoreId)
  /-- TASK_CAST_ON, R189. -/
  | taskCastOn (task : CastOnFacts)
  /-- START_TIME_REACHED, R266. -/
  | startTimeReached (core : CoreId)
  /-- CORE_CAST_OFF, R190. -/
  | coreCastOff (core : CoreId)
  /-- TASK_CAST_OFF, R191. -/
  | taskCastOff (task : Nat) (peers : PeerReport)
  /-- STALEMATE, R194. -/
  | stalemate (task : Nat)
  /-- STRAND_REQ, R202. -/
  | strandReq (id : Nat)
  /-- STRAND_GRANT, R202. -/
  | strandGrant (core : CoreId) (skein : BitVec 4)
  /-- STRAND_DATA, R330. -/
  | strandData (id : Nat)
  /-- GRANT_COMPLETE, R204. -/
  | grantComplete (core : CoreId) (skein : BitVec 4)
  /-- READ_INDEX_WRITE, R205. -/
  | readIndexWrite (core : CoreId) (skein : BitVec 4) (value : Word)
  /-- STRAND_SEND_COMPLETE, R206. -/
  | strandSendComplete (core : CoreId) (ep : BitVec 4)
  /-- FIFO_DATA_WRITE, R216. -/
  | fifoDataWrite (core : CoreId) (fifo : Nat) (word : Word)
  /-- REGISTER_WRITE, R8. -/
  | registerWrite (addr value : Word)
  /-- GT_LO_READ, R256. -/
  | gtLoRead
  /-- FREQ_CTL_WRITE, R264. -/
  | freqCtlWrite (panel : PanelId) (value : Word)
  /-- CAL_CTL_WRITE, R283. -/
  | calCtlWrite (value : Word)
  /-- IBANK_LOAD, R236. -/
  | ibankLoad (core : CoreId) (bank : BitVec 1) (segment : Nat)
  /-- BANK_READY_SIGNAL, R51. -/
  | bankReadySignal (core : CoreId)
  /-- PATTERN_LOAD, R234. -/
  | patternLoad
  /-- EPOCH_MARK, R255. -/
  | epochMark (r : EpochReadings)
  /-- VOLTAGE_SETTLED, R300. -/
  | voltageSettled (panel : PanelId) (code : Nat)
  /-- DROOP, R263. -/
  | droop (panel : PanelId)
  /-- DROOP_RECOVERY, R263. -/
  | droopRecovery (panel : PanelId)
  /-- SUSTAINED_DROOP, R263. -/
  | sustainedDroop (panel : PanelId) (mv : Nat)
  /-- BEACON, R258. -/
  | beacon (port : PortId) (t1 : Nat) (far : Nat × Nat) (t4 : Nat)
  /-- TIME_UNLOCKED, R259. -/
  | timeUnlocked
  /-- CASTON_UNLOCKED_TIMEOUT, R259. -/
  | castonUnlockedTimeout (task : Nat)
  /-- RECENTRE, R272. -/
  | recentre (chan : ChanId) (l r bursts : Nat)
  /-- ALL_BANK_REFRESH, R274. -/
  | allBankRefresh (chan : ChanId) (temp : Int)
  /-- WINDOW_END, R276. -/
  | windowEnd (chan : ChanId) (eye : Nat)
  /-- EYE_CHECK, R279. -/
  | eyeCheck (port : PortId) (openings corrected : List Nat)
  /-- SWAP_REQ, R280. -/
  | swapReq (port : PortId) (lane slot : Nat)
  /-- SWAP_AT, R280. -/
  | swapAt (port : PortId) (lane slot : Nat)
  /-- LANE_SWAP, R280. -/
  | laneSwap (port : PortId) (tx : Bool)
  /-- SWAP_DONE, R280. -/
  | swapDone (port : PortId)
  /-- SWAP_REQ_RESEND, R281. -/
  | swapReqResend (port : PortId)
  /-- CAL_SUMMARY, R286. -/
  | calSummary
  /-- LEND, R294. -/
  | lend (core : CoreId)
  /-- RECLAIM_BATCH, R296. -/
  | reclaimBatch (panel : PanelId)
  /-- VOUT_TELEMETRY, R300. -/
  | voutTelemetry (mv : List (PanelId × Nat))
  /-- REGULATOR_FAULT, R300. -/
  | regulatorFault (panel : PanelId)
  /-- THERMAL_TRIP, R303. -/
  | thermalTrip (unit : Nat) (temp : Int)
  /-- NAP_ENTRY, R307. -/
  | napEntry (phys : PhysId)
  /-- IDLE_ENTRY, R308. -/
  | idleEntry
  /-- STANDBY_ENTRY, R309. -/
  | standbyEntry
  /-- MAIN_RAIL_LOST, R309. -/
  | mainRailLost
  /-- AUX_POWER_LOST, R415. -/
  | auxPowerLost
  /-- AUX_POWER_ON, R397. -/
  | auxPowerOn (strap : BitVec 6) (step1Ok : Bool)
  /-- PWR_EN_ASSERT, R431. -/
  | pwrEnAssert (facts : BootFacts)
  /-- PWR_EN_DEASSERT, R433. -/
  | pwrEnDeassert
  /-- INPUT_HASH, R319. -/
  | inputHash (task : Nat)
  /-- TASK_REPLAY, R324. -/
  | taskReplay (task : Nat)
  /-- DUAL_SECOND_RUN, R326. -/
  | dualSecondRun (task : Nat)
  /-- MIRROR_VOTE, R381. -/
  | mirrorVote (task : Nat) (d q : Hash) (result : List Byte)
  /-- HBM_UNCORR, R373. -/
  | hbmUncorr (addr : Nat) (sparesLeft readFirst : Bool)
  /-- FLIT_RECEIVE, R331. -/
  | flitReceive (port : PortId) (flit : List Byte) (fec : FecFact)
  /-- NAK, R331. -/
  | nak (port : PortId) (seq : Nat)
  /-- RETRY_TIMEOUT, R331. -/
  | retryTimeout (port : PortId)
  /-- READ_REQ, R341. -/
  | readReq (id : Nat)
  /-- READ_RESP, R341. -/
  | readResp (id : Nat)
  /-- WRITE, R169. -/
  | write (id : Nat)
  /-- WRITE_ACK, R169. -/
  | writeAck (id : Nat)
  /-- FW_MSG, R341. -/
  | fwMsg (peer : Nat) (msg : List Byte)
  /-- HEARTBEAT, R380. -/
  | heartbeat
  /-- TRAIN_ATTEMPT, R332. -/
  | trainAttempt (port : PortId) (r : TrainResult)
  /-- RETRAIN, R332. -/
  | retrain (port : PortId) (lane : Bool)
  /-- RETRAIN_ATTEMPT, R332. -/
  | retrainAttempt (port : PortId) (ok : Bool)
  /-- CONFIG_FORMATION, R334. -/
  | configFormation (begins : Bool) (peers : List PeerId)
  /-- MODULE_LOST, R380. -/
  | moduleLost (module : ModuleId)
  /-- TWIN_LOST, R384. -/
  | twinLost
  /-- WATCHDOG, R380. -/
  | watchdog (cpCore : Byte) (checkpoint : BitVec 32)
  /-- HANDSHAKE, R347. -/
  | handshake (cid src : Nat) (cert : Hash) (chain : ClientChain)
  /-- KEY_UPDATE, R346. -/
  | keyUpdate (cid : Nat)
  /-- SESSION_EXPIRED, R347. -/
  | sessionExpired (cid : Nat)
  /-- CONTINUATION_BLOCK, R352. -/
  | continuationBlock (p : Packet)
  /-- COMMAND_TIMEOUT, R352. -/
  | commandTimeout (cid : Nat)
  /-- SEQ_GAP, R353. -/
  | seqGap (cid : Nat)
  /-- PING, R358. -/
  | ping (p : Packet)
  /-- GET_SEQ, R356. -/
  | getSeq (p : Packet)
  /-- CLOSE, R347. -/
  | close (p : Packet)
  /-- SUBMIT, R359. -/
  | submit (p : Packet)
  /-- BATCHING_WINDOW, R369. -/
  | batchingWindow (handle : Nat)
  /-- QUERY_STATUS, R360. -/
  | queryStatus (p : Packet)
  /-- FETCH_RESULT, R361. -/
  | fetchResult (p : Packet)
  /-- TASK_FORGOTTEN, R360. -/
  | taskForgotten (task : Nat)
  /-- CANCEL, R362. -/
  | cancel (p : Packet)
  /-- LOAD_PATTERN, R363. -/
  | loadPattern (p : Packet)
  /-- UNLOAD_PATTERN, R364. -/
  | unloadPattern (p : Packet)
  /-- LIST_PATTERNS, R364. -/
  | listPatterns (p : Packet)
  /-- PUT_OBJECT, R365. -/
  | putObject (p : Packet)
  /-- GET_OBJECT, R365. -/
  | getObject (p : Packet)
  /-- DELETE_OBJECT, R365. -/
  | deleteObject (p : Packet)
  /-- READ_SCOREBOOK, R417. -/
  | readScorebook (p : Packet)
  /-- SET_POWER_CAP, R305. -/
  | setPowerCap (p : Packet)
  /-- GET_HEALTH, R366. -/
  | getHealth (p : Packet)
  /-- CARTRIDGE_INFO, R409. -/
  | cartridgeInfo (p : Packet)
  /-- CARTRIDGE_RETIRE, R408. -/
  | cartridgeRetire (p : Packet)
  /-- ARM, R248. -/
  | arm (p : Packet)
  /-- DISARM_ALL, R366. -/
  | disarmAll (p : Packet)
  /-- REFEREE_LOG, R247. -/
  | refereeLog (p : Packet)
  /-- REFEREE_STOP, R247. -/
  | refereeStop (p : Packet)
  /-- RESUME, R249. -/
  | resume (p : Packet)
  /-- STEP, R249. -/
  | step (p : Packet)
  /-- READ_REFEREE_LOG, R366. -/
  | readRefereeLog (p : Packet)
  /-- READ_WINDOW_BYTES, R366. -/
  | readWindowBytes (p : Packet)
  /-- GET_VERSION, R393. -/
  | getVersion (p : Packet)
  /-- GET_CAPABILITIES, R393. -/
  | getCapabilities (p : Packet)
  /-- NEGOTIATE_ALGORITHMS, R393. -/
  | negotiateAlgorithms (p : Packet)
  /-- GET_DIGESTS, R393. -/
  | getDigests (p : Packet)
  /-- GET_CERTIFICATE, R393. -/
  | getCertificate (p : Packet)
  /-- CHALLENGE, R393. -/
  | challenge (p : Packet)
  /-- GET_MEASUREMENTS, R394. -/
  | getMeasurements (p : Packet)
  /-- CARTRIDGE_INSERT, R406. -/
  | cartridgeInsert (bay : BayId) (facts : CartFacts)
  /-- PRSNT_DEBOUNCE, R441. -/
  | prsntDebounce (bay : BayId)
  /-- PERST_RELEASE, R441. -/
  | perstRelease (bay : BayId)
  /-- RESYNC_COMPLETE, R406. -/
  | resyncComplete (bay : BayId)
  /-- BAY_FAILURE, R405. -/
  | bayFailure (bay : BayId)
  /-- SMART_READ, R407. -/
  | smartRead (bay : BayId) (pctUsed : Byte)
  /-- UNIT_REQUEST, R386. -/
  | unitRequest (unit : Nat) (state : Nat) (now : Bool) (generation : Nat)
  /-- DRAIN_END, R387. -/
  | drainEnd (unit : Nat) (forced : Bool)
  /-- ENROL, R423. -/
  | enrol (r : EnrolReq)
  /-- STAGED_SET, R423. -/
  | stagedSet (entries : List (List Byte))
  /-- SB_READ, R417. -/
  | sbRead (seq count : Nat)
  /-- REG_READ, R423. -/
  | regRead (addr : Word)
  /-- MODULE_RESET, R423. -/
  | moduleReset (confirm : BitVec 32)
  /-- NET_CFG, R423. -/
  | netCfg (udp mgmt : BitVec 16) (ipv6 : BitVec 128)
  /-- SENSOR_READ, R422. -/
  | sensorRead (sensor : Sensor)
  /-- EFFECTER_SET, R422. -/
  | effecterSet (effecter : Effecter) (value : Nat)
  /-- PLDM_FIRMWARE_UPDATE, R424. -/
  | pldmFirmwareUpdate (svn : Nat) (hash : Hash) (sigOk raise : Bool)
  /-- ACTIVATE_FIRMWARE, R424. -/
  | activateFirmware
  /-- SET_ENDPOINT_ID, R421. -/
  | setEndpointId (eid : Byte)
  /-- I3C_BROADCAST_CCC, R421. -/
  | i3cBroadcastCcc
  /-- RECORD_WRITE, R413. -/
  | recordWrite
  /-- DBG_REQ, R438. -/
  | dbgReq
  /-- DBG_REQ_RELEASE, R438. -/
  | dbgReqRelease
  /-- DBG_REQ_TIMEOUT, R438. -/
  | dbgReqTimeout
  /-- DBG_VREF, R438. -/
  | dbgVref (on : Bool)
  /-- SERVICE_PORT_LINK, R436. -/
  | servicePortLink (port : Fin 2) (up : Bool)
  /-- BAD_OPCODE, R358. -/
  | badOpcode (p : Packet)
  /-- CLOSE_NOTIFY, R347. -/
  | closeNotify (cid : Nat)
  /-- CLIENT_KEY_UPDATE, R346. -/
  | clientKeyUpdate (cid : Nat)
  /-- STANDBY_REQUEST, R308. -/
  | standbyRequest
  /-- CARTRIDGE_REMOVE, R441. -/
  | cartridgeRemove (bay : BayId)
  /-- SGMII_LINK, R437. -/
  | sgmiiLink (up : Bool)
  deriving DecidableEq, Repr

end Sys2Proof
end

