-- ==== Sys2Proof/Decode.lean ====
section
/-!
DEFINITION. The commands that words of the table spell. The table of this block gives no row any bits: a slot's
encoding is that of the 512-bit row (R20 to R24), which Machine/Row.lean decodes and encodes.
-/

namespace Sys2Proof

/-- The command that the table's bits spell: none, since no row of the table has bits. -/
def decodeTableWord (_nbits _w : Nat) : Option Instr := none

end Sys2Proof
end

