-- ==== Sys2Proof/Machine/Bits.lean ====
section
/-!
DEFINITION. Bit fields, byte orders (R7) and the keyed lists that the state is made of.
-/

namespace Sys2Proof.Machine

/-- Bits [hi:lo] of a number. -/
def field (v hi lo : Nat) : Nat := (v >>> lo) % 2 ^ (hi + 1 - lo)

/-- Bit `i` of a number. -/
def bitOf (v i : Nat) : Bool := v.testBit i

/-- A flag as a number. -/
def b2n (b : Bool) : Nat := if b then 1 else 0

/-- The two's-complement reading of the low `w` bits. -/
def sextN (w v : Nat) : Int := (BitVec.ofNat w v).toInt

/-- An integer as `w` bits, modulo 2^w. -/
def wrapN (w : Nat) (i : Int) : Nat := (BitVec.ofInt w i).toNat

/-- The `n` low bytes of a number, least significant first: R7. -/
def leBytes : Nat → Nat → List Byte
  | 0, _ => []
  | n + 1, v => BitVec.ofNat 8 v :: leBytes n (v / 256)

/-- The number whose bytes are these, least significant first: R7. -/
def leNat : List Byte → Nat
  | [] => 0
  | b :: bs => b.toNat + 256 * leNat bs

/-- The `n` low bytes of a number, most significant first: R7. -/
def beBytes (n v : Nat) : List Byte := (leBytes n v).reverse

/-- The number whose bytes are these, most significant first: R7. -/
def beNat (bs : List Byte) : Nat := leNat bs.reverse

/-- Bytes [off, off + n) of a byte string, short at its end. -/
def slice (bs : List Byte) (off n : Nat) : List Byte := (bs.drop off).take n

/-- The little-endian field of `n` bytes at `off`: R7. -/
def leAt (bs : List Byte) (off n : Nat) : Nat := leNat (slice bs off n)

/-- The big-endian field of `n` bytes at `off`: R7. -/
def beAt (bs : List Byte) (off n : Nat) : Nat := beNat (slice bs off n)

/-- Exactly `n` bytes: cut, or padded with zeros. -/
def padTo (n : Nat) (bs : List Byte) : List Byte :=
  bs.take n ++ List.replicate (n - bs.length) 0

/-- Zero bytes. -/
def zeros (n : Nat) : List Byte := List.replicate n 0

/-- The value at key `k`, `d` where none is listed. -/
def mget (d : α) : List (Nat × α) → Nat → α
  | [], _ => d
  | (k', v) :: m, k => if k' = k then v else mget d m k

/-- The value at key `k`, if one is listed. -/
def mfind : List (Nat × α) → Nat → Option α
  | [], _ => none
  | (k', v) :: m, k => if k' = k then some v else mfind m k

/-- The list with `v` at key `k`, keys in rising order. -/
def mset : List (Nat × α) → Nat → α → List (Nat × α)
  | [], k, v => [(k, v)]
  | (k', v') :: m, k, v =>
    if k = k' then (k, v) :: m
    else if k < k' then (k, v) :: (k', v') :: m
    else (k', v') :: mset m k v

/-- The list without key `k`. -/
def mdel (m : List (Nat × α)) (k : Nat) : List (Nat × α) := m.filter (fun p => p.1 != k)

/-- A counter that stops at its largest value. -/
def satAdd (max a b : Nat) : Nat := min max (a + b)

/-- The counter at key `k`, raised by `n` and stopping at `max`. -/
def mcount (max : Nat) (m : List (Nat × Nat)) (k n : Nat) : List (Nat × Nat) :=
  mset m k (satAdd max (mget 0 m k) n)

/-- Cut a list into pieces of `n` (the last may be short), `fuel` pieces at most. -/
def chunksOf (n : Nat) : Nat → List α → List (List α)
  | 0, _ => []
  | _ + 1, [] => []
  | f + 1, x :: xs => (x :: xs).take n :: chunksOf n f ((x :: xs).drop n)

/-- A byte string in pieces of `n`. -/
def pieces (n : Nat) (bs : List Byte) : List (List Byte) := chunksOf n bs.length bs

/-- The binary logarithm, rounded up, of a number above 0. -/
def clog2 (n : Nat) : Nat := if n ≤ 1 then 0 else Nat.log2 (n - 1) + 1

/-- Sum of a list. -/
def sumN (l : List Nat) : Nat := l.foldl (· + ·) 0

/-- Largest of a list, 0 when empty. -/
def maxN (l : List Nat) : Nat := l.foldl max 0

end Sys2Proof.Machine
end

