-- ==== Sys2Proof/Machine/Float.lean ====
section
/-!
DEFINITION. binary32 and bfloat16 (R85, R86): values as exact dyadic numbers, one rounding to nearest even, and the
events that `NUM_STAT` counts (R87). Also RHE, the rounding to integers with ties to even (R58, R88).
-/

namespace Sys2Proof.Machine

/-- A float format by its precision and the exponent of its least subnormal: R85. -/
structure FloatFmt where
  /-- significant bits -/
  p : Nat
  /-- the least subnormal is 2^minE -/
  minE : Int
  deriving DecidableEq, Repr

/-- binary32: R85. -/
def b32 : FloatFmt := ⟨24, -149⟩
/-- bfloat16: R85. -/
def bf16 : FloatFmt := ⟨8, -133⟩

/-- The sign bit of a format. -/
def FloatFmt.signBit (f : FloatFmt) : Nat := 2 ^ (f.p + 7)
/-- Infinity without its sign. -/
def FloatFmt.infBits (f : FloatFmt) : Nat := 255 * 2 ^ (f.p - 1)
/-- The canonical quiet NaN: R86. -/
def FloatFmt.nanBits (f : FloatFmt) : Nat := f.infBits + 2 ^ (f.p - 2)
/-- Bits with a sign. -/
def FloatFmt.signed (f : FloatFmt) (neg : Bool) (mag : Nat) : Nat := if neg then f.signBit + mag else mag

/-- The value a float stands for: (-1)^neg * m * 2^e when finite. -/
inductive FVal where
  | nan
  | inf (neg : Bool)
  | fin (neg : Bool) (m : Nat) (e : Int)
  deriving DecidableEq, Repr

/-- A result with the events it counts: R87. -/
structure FRes where
  bits : Nat
  invalid : Bool := false
  overflow : Bool := false
  deriving DecidableEq, Repr

/-- The value of a code: R85. -/
def FloatFmt.value (f : FloatFmt) (w : Nat) : FVal :=
  let neg := w.testBit (f.p + 7)
  let mag := w % f.signBit
  let ex := mag / 2 ^ (f.p - 1)
  let fr := mag % 2 ^ (f.p - 1)
  if ex = 255 then (if fr = 0 then .inf neg else .nan)
  else if ex = 0 then .fin neg fr f.minE
  else .fin neg (2 ^ (f.p - 1) + fr) (f.minE + ex - 1)

/-- m * 2^-s rounded to the nearest integer, ties to even. -/
def rneShift (m s : Nat) : Nat :=
  let q := m >>> s
  let r := m % 2 ^ s
  if s = 0 then m
  else if 2 * r < 2 ^ s then q
  else if 2 * r > 2 ^ s then q + 1
  else q + q % 2

/-- RHE of (-1)^neg * m * 2^e: the nearest integer, ties to even (R58, R88). -/
def rhe (neg : Bool) (m : Nat) (e : Int) : Int :=
  let a : Int := if e ≥ 0 then (m * 2 ^ e.toNat : Nat) else (rneShift m (-e).toNat : Nat)
  if neg then -a else a

/-- RHE of v * 2^e for an integer v. -/
def rheInt (v : Int) (e : Int) : Int := rhe (v < 0) v.natAbs e

/-- The exact number (-1)^neg * m * 2^e rounded once to a format: R85, R88. -/
def FloatFmt.round (f : FloatFmt) (neg : Bool) (m : Nat) (e : Int) : FRes :=
  if m = 0 then { bits := f.signed neg 0 }
  else
    let e' := max (e + (m.log2 + 1 : Nat) - f.p) f.minE
    let q := if e' ≤ e then m * 2 ^ (e - e').toNat else rneShift m (e' - e).toNat
    let mag := (e' - f.minE).toNat * 2 ^ (f.p - 1) + q
    if mag ≥ f.infBits then { bits := f.signed neg f.infBits, overflow := true }
    else { bits := f.signed neg mag }

/-- The canonical NaN; `invalid` when no operand was a NaN: R86, R87. -/
def FloatFmt.nan (f : FloatFmt) (invalid : Bool) : FRes := { bits := f.nanBits, invalid := invalid }

/-- Whether a value is a NaN. -/
def FVal.isNan : FVal → Bool
  | .nan => true
  | _ => false

/-- The value with its sign turned. -/
def FVal.neg : FVal → FVal
  | .nan => .nan
  | .inf s => .inf (!s)
  | .fin s m e => .fin (!s) m e

/-- The exact sum of two finite numbers, at their lower exponent. -/
def dyadicAdd (s1 : Bool) (m1 : Nat) (e1 : Int) (s2 : Bool) (m2 : Nat) (e2 : Int) : Int × Int :=
  let e := min e1 e2
  let a : Int := (m1 * 2 ^ (e1 - e).toNat : Nat)
  let b : Int := (m2 * 2 ^ (e2 - e).toNat : Nat)
  ((if s1 then -a else a) + (if s2 then -b else b), e)

/-- The sum, rounded once to `f`; an exact zero of operands of opposite sign is +0: R85, R86. -/
def FloatFmt.addV (f : FloatFmt) (x y : FVal) : FRes :=
  match x, y with
  | .nan, _ | _, .nan => f.nan false
  | .inf a, .inf b => if a = b then { bits := f.signed a f.infBits } else f.nan true
  | .inf a, _ => { bits := f.signed a f.infBits }
  | _, .inf b => { bits := f.signed b f.infBits }
  | .fin s1 m1 e1, .fin s2 m2 e2 =>
    let (v, e) := dyadicAdd s1 m1 e1 s2 m2 e2
    if v = 0 then { bits := f.signed (s1 && s2) 0 } else f.round (v < 0) v.natAbs e

/-- The exact product, none where it is a NaN that no operand was: R85. -/
def FVal.mul (x y : FVal) : Option FVal :=
  match x, y with
  | .nan, _ | _, .nan => some .nan
  | .inf a, .inf b => some (.inf (a != b))
  | .inf a, .fin b m _ => if m = 0 then none else some (.inf (a != b))
  | .fin a m _, .inf b => if m = 0 then none else some (.inf (a != b))
  | .fin a m1 e1, .fin b m2 e2 => some (.fin (a != b) (m1 * m2) (e1 + e2))

/-- A value rounded once to `f`. -/
def FloatFmt.ofV (f : FloatFmt) (x : FVal) : FRes :=
  match x with
  | .nan => f.nan false
  | .inf a => { bits := f.signed a f.infBits }
  | .fin s m e => f.round s m e

/-- The product, rounded once: R85. -/
def FloatFmt.mulV (f : FloatFmt) (x y : FVal) : FRes :=
  match x.mul y with
  | none => f.nan true
  | some v => f.ofV v

/-- x * y + z, rounded once: R85. -/
def FloatFmt.fmaV (f : FloatFmt) (x y z : FVal) : FRes :=
  match x.mul y with
  | none => f.nan (!z.isNan)
  | some v => f.addV v z

/-- An order key of codes that are no NaN: numeric order, with -0 equal to +0. -/
def FloatFmt.key (f : FloatFmt) (w : Nat) : Int :=
  let mag : Int := (w % f.signBit : Nat)
  if w.testBit (f.p + 7) then -mag else mag

/-- Whether a code is a NaN. -/
def FloatFmt.isNan (f : FloatFmt) (w : Nat) : Bool := (f.value w).isNan

/-- Maximum (or minimum): a NaN gives the canonical NaN, -0 orders below +0: R86. -/
def FloatFmt.minmax (f : FloatFmt) (isMax : Bool) (a b : Nat) : FRes :=
  if f.isNan a || f.isNan b then f.nan false
  else
    let neg (w : Nat) := w.testBit (f.p + 7)
    let below (x y : Nat) : Bool := f.key x < f.key y || (f.key x == f.key y && neg x && !neg y)
    let lo := if below b a then b else a
    let hi := if below b a then a else b
    { bits := if isMax then hi else lo }

/-- Quiet comparisons: a NaN makes each false: R115. -/
def FloatFmt.cmp (f : FloatFmt) (rel : Int → Int → Bool) (a b : Nat) : Bool :=
  !f.isNan a && !f.isNan b && rel (f.key a) (f.key b)

/-- bfloat16 widened to binary32, exactly; a NaN becomes the canonical NaN: R88. -/
def widen (w : Nat) : Nat := if bf16.isNan w then b32.nanBits else w * 65536

/-- binary32 rounded to bfloat16; an infinity from a finite code counts: R88. -/
def narrow (w : Nat) : FRes := bf16.ofV (b32.value w)

/-- v * 2^e of an accumulated value, rounded once to binary32: R88. -/
def b32OfInt (v : Int) (e : Int) : FRes := b32.round (v < 0) v.natAbs e

/-- An integer clamped to a range, and whether it was clamped: R88. -/
def satInt (lo hi v : Int) : Int × Bool := (max lo (min hi v), decide (v < lo ∨ hi < v))

/-- binary32 x, times f, to an integer in [lo, hi], with the counts cvt_sats and invalid: R88. -/
def b32ToInt (lo hi : Int) (x f : Nat) : Int × Bool × Bool :=
  match (b32.value x).mul (b32.value f) with
  | none | some .nan => (0, false, true)
  | some (.inf neg) => (if neg then lo else hi, true, false)
  | some (.fin neg m e) =>
    let (v, s) := satInt lo hi (rhe neg m e)
    (v, s, false)

/-- An integer q, times f, to binary32: R88 (q = 0 reads as +0). -/
def intToB32 (q : Int) (f : Nat) : FRes := b32.mulV (.fin (q < 0) q.natAbs 0) (b32.value f)

end Sys2Proof.Machine
end

