-- ==== Sys2Proof/Config.lean ====
section
/-!
DEFINITION. What the spec leaves open: constants without a body, so that no proof can see their value. Each is
named in an assumption log entry (notes/assumptions).
-/

namespace Sys2Proof.Config

/-- Scalar register `r` at cast-on number `tok`, until written: R25. -/
opaque freeScalar (tok r : Nat) : BitVec 64

/-- Vector register `r` at cast-on number `tok`, until written: R25. -/
opaque freeVector (tok r : Nat) : BitVec 2048

/-- Mask register `r` at cast-on number `tok`, until written: R25. -/
opaque freeMask (tok r : Nat) : BitVec 256

/-- VL at cast-on number `tok`, until written; taken modulo 257: R25, R109. -/
opaque freeVl (tok : Nat) : Nat

/-- What byte `i` of a sector of HBM that has lost its data reads as, at loss number `k`: R376. -/
opaque freeHbm (k i : Nat) : BitVec 8

/-- Byte `i` of the fixed pseudo-random bit string in the calibration row, as the `k`-th boot wrote it: R273. -/
opaque calRow (k i : Nat) : BitVec 8

/-- Whether module `m` is locked and follows the lead directly, at reading `k`: R258. -/
opaque followsLead (k m : Nat) : Bool

/-- The signature r ‖ s of a 48-byte hash under the key numbered `key` (0 the module's identity key, 1 its alias key, 16 + m the
identity key of module m): R322, R393, R414.
Signatures are octet strings of 96 bytes whose value the spec leaves to ECDSA P-384. -/
opaque sign (key : Nat) (hash : BitVec 384) : BitVec 768

/-- ECDSA P-384 verification of `signature` over a hash under the key whose SubjectPublicKeyInfo hashes to `keyId`:
R230. -/
opaque verify (keyId hash : BitVec 384) (signature : BitVec 768) : Bool

/-- Points of a row stream that the Genqualer simulates in the time it has: R242. -/
opaque verifyRows : Nat

/-- Bytes of images that the pattern store holds: R233, R243. -/
opaque patternStore : Nat

/-- The `k`-th record key that DTLS derives: R346, R347. -/
opaque recordKey (k : Nat) : BitVec 256

/-- The eight bits an exponent is kept in when its value lies outside -128 to 127: R63, R66. -/
opaque wideExponent (e : Int) : BitVec 8

/-- The random mirror_id of the `k`-th pairing: R404. -/
opaque freeMirrorId (k : Nat) : BitVec 128

/-- Byte `i` of the module serial, programmed at manufacture: R391, R414. -/
opaque serialByte (i : Nat) : BitVec 8

/-- The fused voltage trim of panel `p`, in steps of 5 mV from -25 mV: R299. -/
opaque trimSteps (p : Nat) : Fin 11

/-- The rate correction of the `k`-th slew, in 0.01 ppm, within 100 ppm either way: R258. -/
opaque freeRate (k : Nat) : Fin 20001

/-- SHA-384 of the CSB ROM, fixed at manufacture: R392, R394. -/
opaque romHash : BitVec 384

/-- The certificate whose SHA-384 is this hash, in DER: R230, R348, R394. -/
opaque certificate (hash : BitVec 384) : List (BitVec 8)

/-- The root, product CA and device certificates of the module in DER, as the boot flash holds them: R391, R393. -/
opaque deviceChain : List (BitVec 8)

/-- The hash of the root certificate, in the CSB ROM: R391. -/
opaque rootHash : BitVec 384

/-- The part of the alias certificate that is signed, in DER, for the alias key and the layer measurements of the firmware image of this
hash: R391, R392. -/
opaque aliasBody (firmware : BitVec 384) : List (BitVec 8)

/-- The `k`-th random nonce of the SPDM responder: R393. -/
opaque spdmNonce (k : Nat) : BitVec 256

/-- CTExponent of the SPDM responder: R393. -/
opaque spdmCtExponent : BitVec 8

end Sys2Proof.Config
end

