-- ==== Sys2Proof/Machine/Memory.lean ====
section
/-!
DEFINITION. Byte-addressed memory as a list of cells in one canonical form: addresses strictly rising, and no cell
that holds what an unlisted address reads as (0: entry 3).
-/

namespace Sys2Proof.Machine

/-- A buffer, the HBM of a module, as its non-zero bytes by address. -/
abbrev Memory := List Host.Cell

/-- What an address that no cell lists reads as: DESIGN CHOICE 0 (entry 3). -/
def Memory.unwritten : Byte := 0

/-- The canonical form: addresses strictly rising, and no cell equal to what an unlisted address reads as. -/
def Memory.wf (m : Memory) : Bool :=
  decide (m.Pairwise (fun a b => a.1 < b.1)) && m.all (fun c => c.2 != Memory.unwritten)

/-- The byte at an address. -/
def Memory.read (m : Memory) (a : Nat) : Byte := mget Memory.unwritten m a

/-- The `n` bytes from an address up. -/
def Memory.readN (m : Memory) (a : Nat) : Nat → List Byte
  | 0 => []
  | n + 1 => m.read a :: Memory.readN m (a + 1) n

/-- The cells that bytes written from `a` up give: those that differ from an unwritten byte. -/
def Memory.cells (a : Nat) : List Byte → Memory
  | [] => []
  | b :: bs => if b = Memory.unwritten then Memory.cells (a + 1) bs else (a, b) :: Memory.cells (a + 1) bs

/-- The memory after the bytes are written from `a` up. -/
def Memory.writeN (m : Memory) (a : Nat) (bs : List Byte) : Memory :=
  m.filter (fun c => c.1 < a) ++ (Memory.cells a bs ++ m.filter (fun c => a + bs.length ≤ c.1))

/-- The memory after one byte is written. -/
def Memory.write (m : Memory) (a : Nat) (b : Byte) : Memory := m.writeN a [b]

end Sys2Proof.Machine
end

