-- ==== Sys2Proof/Machine/State.lean ====
section
/-!
DEFINITION. The state of one Merell module, as plain data, with every field at its reset value as its default:
width, rule and reset value stand in each field's docstring ("DESIGN CHOICE v (entry n)": the spec states no reset
value and log entry n names v). What the state holds by number (cores, ports, panels ...) is a list of pairs in
rising order of the number; a number that is not listed is at its reset value.
-/

namespace Sys2Proof.Machine

/-- Why a step stops with a fault. -/
inductive Fault where
  /-- Raised by the events that carry a transaction's or an operation's number when the number stands for nothing
  in flight: no such event can happen on the part. Safe. -/
  | noSuchTransaction
  deriving DecidableEq, Repr

/-- Why a command has no meaning. -/
inductive Refusal where
  /-- The command of this mnemonic has no meaning in the model yet. Safe. -/
  | notModelled (mnemonic : String)
  /-- Raised by a slot command whose slot is an encoding that the spec reserves: the loader refuses every row that
  holds it (R9, R22), so no core ever issues it. Safe. -/
  | reservedEncoding (mnemonic : String)
  deriving DecidableEq, Repr

/-- Where a fixed-latency write lands (R27): what a `Pend` carries. -/
inductive Dest where
  /-- a scalar register, in the issue view -/
  | sreg (r : BitVec 5) (v : BitVec 64)
  /-- a scalar register, in the check view (R30) -/
  | sview (r : BitVec 5) (v : BitVec 64)
  /-- the bits of a vector register that `m` selects -/
  | vreg (r : BitVec 5) (m v : BitVec 2048)
  /-- the bits of a mask register that `m` selects -/
  | mreg (r : BitVec 3) (m v : BitVec 256)
  /-- the vector length, in the issue view -/
  | vl (n : Nat)
  /-- the vector length, in the check view (R109) -/
  | vlview (n : Nat)
  /-- bytes of a core's own buffers: a store or a rib write (R127) -/
  | bytes (core off : Nat) (b : List (BitVec 8))
  /-- bytes an outstanding matrix row writes (R65) -/
  | mout (work off : Nat) (b : List (BitVec 8))
  /-- a word arriving at a FIFO (R213) -/
  | fifoWord (core f : Nat) (w : BitVec 64)
  /-- a credit returning to the writer of a FIFO (R213) -/
  | credit (core f : Nat)
  deriving DecidableEq, Repr

/-- A write that a row issued and that no row sees yet: R27, R28. -/
structure Pend where
  /-- the issue cycle from which rows see the write -/
  due : Nat
  /-- where it lands and what it writes -/
  dst : Dest
  deriving DecidableEq, Repr

/-- An active hardware loop: R32. -/
structure Loop where
  /-- 2 bits; R32; 0; the loop counter lc0 to lc3 the level uses -/
  lc : Nat
  /-- 32 bits; R32; 0; iteration index -/
  idx : Nat
  /-- 32 bits; R32; 0; count -/
  count : Nat
  /-- 12 bits; R32; 0; first row of the body -/
  first : Nat
  /-- 12 bits; R32; 0; last row of the body -/
  last : Nat
  deriving DecidableEq, Repr

/-- `SB_RANGE_n`: R33. -/
structure Range where
  /-- 24 bits; R33; 0; window offset of the first byte -/
  base : Nat := 0
  /-- 24 bits; R33; 0; window offset beyond the last byte -/
  fin : Nat := 0
  /-- 8 bits; R33; 0; deliveries into the range not yet complete -/
  outstanding : Nat := 0
  /-- 1 bit; R33; 0; the range is checked -/
  enable : Bool := false
  deriving DecidableEq, Repr

/-- `CB_REGION_n`: R130. -/
structure CbRegion where
  /-- 24 bits; R130; 0; window offset of the first block -/
  base : Nat := 0
  /-- 24 bits; R130; 0; first offset beyond the region -/
  fin : Nat := 0
  /-- 3 bits; R130; 0; element width code -/
  width : Nat := 0
  /-- 1 bit; R130; 0; the region applies -/
  enable : Bool := false
  deriving DecidableEq, Repr

/-- A row at the check stage in which some member of the gang has found a condition, or a slot command that waits for
its own (entry 5): R38, R39, R54. -/
structure Held where
  /-- 8 bits; R54; 0; the lowest code found so far, GANG when only another member has found one -/
  cause : Nat
  /-- 8 bits; R54; 0; detail of that cause -/
  detail : Nat
  /-- 8 bits; R54; 0; row_tag of the row -/
  tag : Nat
  /-- a tally request of the row has been released or granted: R39 -/
  granted : Bool := false
  /-- a tally request of the row is pending at an owner: R177 -/
  asked : Bool := false
  /-- the release or grant has reached the requester: R177 -/
  arrived : Bool := false
  /-- a BREAK condition has been found in this turn: R248, R249 -/
  broke : Bool := false
  /-- RESUME or STEP has cleared the BREAK conditions of the row: R249 -/
  resumed : Bool := false
  /-- the row's slots -/
  row : List Instr
  /-- declared pips of the row: R21 -/
  pips : Nat := 0
  /-- the row was fetched from the active bank; else it is a slot command's (entry 5) -/
  fetched : Bool := false
  deriving DecidableEq, Repr

/-- A row that has passed its check stage and has yet to issue: R29. -/
structure Checked where
  /-- the row's slots -/
  row : List Instr
  /-- declared pips of the row: R21 -/
  pips : Nat := 0
  /-- 8 bits; R21; row_tag -/
  tag : Nat := 0
  /-- 12 bits; R29; row index of the row -/
  pc : Nat := 0
  /-- 1 bit; R49; the bank the row was fetched from -/
  bank : Nat := 0
  /-- R32; the loops that are active at the row -/
  loops : List Loop := []
  /-- R35; the ranges that each slot's delivery was counted into, by place in the row -/
  counts : List (List Nat) := []
  /-- R145, R163; the queues the row takes an entry of, one number for each entry -/
  queues : List Nat := []
  /-- R144, R161; descriptors and headers as the check stage read them, each with its offset -/
  copied : List (Nat × List (BitVec 8)) := []
  /-- R34, R163; a breach that the check stage has found, as rule and detail -/
  breach : Option (Nat × Nat) := none
  /-- R54; cause and detail of the hold that the row met at its check stage -/
  hold : Option (Nat × Nat) := none
  deriving DecidableEq, Repr

/-- A late hold: R40. -/
structure Late where
  /-- 8 bits; R38; ECC_REREAD or RESCALE -/
  cause : Nat
  /-- 8 bits; R38; detail of that cause -/
  detail : Nat
  /-- 2 bits; R40; cycles still to pass before issue stops -/
  after : Nat := 3
  /-- R40; held cycles still to come; of a rescale, those before its cause is clear (R75) -/
  left : Nat
  /-- R75; the end of the hold is known: a re-read, or a rescale whose cause is clear -/
  clear : Bool := true
  deriving DecidableEq, Repr

/-- The held turn in progress: R41, R53, R54. -/
structure Turn where
  /-- 8 bits; R54; the lowest code found so far, GANG while only another member has found one -/
  cause : Nat := 0xD
  /-- 8 bits; R54; detail of that cause -/
  detail : Nat := 0
  /-- 24 bits; R54; held cycles so far -/
  len : Nat := 0
  deriving DecidableEq, Repr

/-- An S plane of the array: R56. -/
structure Plane where
  /-- 4 bits; R57; none; S format code -/
  fmt : Nat
  /-- the operand lies on the diagonal: R77 -/
  diag : Bool
  /-- the tile's or the vector's bytes as they lay in WB -/
  bytes : List (BitVec 8)
  deriving DecidableEq, Repr

/-- What a pass streams: its plane, its X rows, and how its results enter ACC: R58, R60. -/
structure PassIn where
  /-- the plane that computes; none while nothing has been loaded -/
  plane : Option Plane
  /-- 4 bits; R57; X format code -/
  xFmt : Nat
  /-- 1 bit; R61; E_p + 8 -/
  shift8 : Bool
  /-- the X rows: 128 stored values each, and four block exponents of a block-scaled format -/
  rows : List (List Int × List Int)
  /-- columns that carry results; the others are padding and carry 0: R446 -/
  cols : Nat
  deriving DecidableEq, Repr

/-- A rescale sequence that an outstanding `mm.tile` runs: R75, R76. -/
structure Rescale where
  /-- the issue cycle from which issue stops, four after the first overflow -/
  due : Nat
  /-- the entries that overflowed -/
  entries : List Nat
  /-- entries repeated in each round: all of them, then those that overflowed again (R76) -/
  rounds : List Nat
  /-- passes of the block since its last spill, the overflowing one included -/
  passes : Nat
  deriving DecidableEq, Repr

/-- The timing of a pass: R59, R60. -/
structure PassAt where
  /-- first cycle of its S transfer -/
  begin_ : Nat
  /-- cycles of its S transfer, 0 when it keeps the active plane -/
  xfer : Nat
  /-- start cycle -/
  start : Nat
  /-- b -/
  b : Nat
  /-- L_pass -/
  lat : Nat
  /-- M -/
  rows : Nat
  deriving DecidableEq, Repr

/-- A matrix row that is outstanding: R62, R72. -/
structure MWork where
  /-- the model's own number of the row -/
  id : Nat
  /-- issue cycle of the last ACC write or output write -/
  doneAt : Nat
  /-- the row is an `mm.tile` or `mm.drain`: its output counts as a delivery (R72) -/
  output : Bool
  /-- scoreboard ranges the output span was counted into -/
  ranges : List Nat := []
  /-- rescale sequences of the row, oldest first: R75 -/
  rescales : List Rescale := []
  deriving DecidableEq, Repr

/-- The range monitor block `RANGE_MON`: R78, R79. -/
structure Monitor where
  /-- 16 bits; R79; 0x8000; largest exponent, signed; none reads 0x8000 -/
  maxExp : Option Int := none
  /-- 16 bits; R79; 0; largest leading 16 bits at max_exp -/
  maxMant : Nat := 0
  /-- 32 bits; R79; 0; values observed -/
  count : Nat := 0
  /-- 32 bits; R79; 0; sat_count -/
  satCount : Nat := 0
  /-- 32 bits; R79; 0; zero_count -/
  zeroCount : Nat := 0
  /-- 16 fields of 32 bits; R79; 0; histogram bins, keyed by bin -/
  hist : List (Nat × Nat) := []
  /-- 16 bits; R79; 0; rescale sequences since the last clear -/
  rescales : Nat := 0
  /-- 8 bits signed; R79; 0 at cast-on; histogram base -/
  histBase : Int := 0
  /-- 8 bits signed; R79; 127 at cast-on; saturation exponent -/
  satExp : Int := 127
  deriving DecidableEq, Repr

/-- The matrix engine of a core. -/
structure Engine where
  /-- 1 plane of 128 x 512 elements; R56; zeros (none); the computing plane -/
  active : Option Plane := none
  /-- 1 plane of 128 x 512 elements; R56; zeros (none); the loading plane -/
  back : Option Plane := none
  /-- at most 4 rows; R62; empty; outstanding matrix rows, oldest first -/
  work : List MWork := []
  /-- R60; DESIGN CHOICE 0 (entry 1); first cycle after the last tile transfer -/
  xferEnd : Nat := 0
  /-- R60; DESIGN CHOICE 0 (entry 1); start cycle of the last pass -/
  start : Nat := 0
  /-- R60; DESIGN CHOICE 0 (entry 1); first cycle after the last pass's streaming -/
  streamEnd : Nat := 0
  /-- R60, R75; empty; timing of the passes not yet complete, oldest first -/
  log : List PassAt := []
  /-- R62; empty; cycle of the last read or write of each ACC entry -/
  entLast : List (Nat × Nat) := []
  /-- MODEL: column values that saturated in each entry since its last write (R78); DESIGN CHOICE empty (entry 7) -/
  satN : List (Nat × Nat) := []
  /-- R79; clear; the range monitor block -/
  mon : Monitor := {}
  /-- 24 bits; R80; 0; RESCALE_COUNT.rescales -/
  rescales : Nat := 0
  /-- 16 bits; R80; 0; RESCALE_COUNT.acc_sats -/
  accSats : Nat := 0
  /-- 12 bits; R80; 0; RESCALE_COUNT.pb_realigns -/
  pbRealigns : Nat := 0
  /-- 12 bits; R80; 0; RESCALE_COUNT.out_sats -/
  outSats : Nat := 0
  deriving DecidableEq, Repr

/-- MODEL: a read of its core's buffers by the matrix engine: R60, R62, R65. -/
structure EngineRead where
  /-- the cycle in which the engine reads -/
  due : Nat
  /-- window offset of the bytes -/
  off : Nat
  /-- number of bytes -/
  len : Nat
  /-- the matrix row whose output is added to these bytes (R66); none for an operand -/
  into : Option Nat := none
  deriving DecidableEq, Repr

/-- MODEL: what the matrix engine does for a row issued in cycle `t` under the number `id`, its addresses formed: R61, R62. -/
inductive EngineOp where
  /-- `mm.pass`, or `mm.diag` where `diag`, with the X and S operands at `x` and `w` -/
  | pass (id t : Nat) (m : MSlot) (diag : Bool) (x w : Nat)
  /-- `mm.drain` with its output at `o`, counted into `ranges` -/
  | drain (id t : Nat) (m : MSlot) (o : Nat) (ranges : List Nat)
  /-- `mm.mon` with its block at `a` -/
  | mon (id t : Nat) (m : MSlot) (a : Nat)
  /-- `mm.tile` with the descriptor `d` and its bases, counted into `ranges` -/
  | tile (id t : Nat) (d : List (BitVec 8)) (x w o : Nat) (ranges : List Nat)
  /-- a rescale sequence of the row has begun, for these ACC entries (R75) -/
  | rescaled (id : Nat) (entries : List Nat)
  /-- the last output of the row is written (R72) -/
  | output (id t : Nat)
  deriving DecidableEq, Repr

/-- MODEL: the engine with ACC and its tag words as they stood when the oldest row issued that still reads: R62. -/
structure EngineBase where
  /-- the engine itself (R56 to R80) -/
  engine : Engine
  /-- the ACC values (R63) -/
  acc : List (Nat × BitVec 32)
  /-- e_tag of each entry (R63) -/
  eTag : List (Nat × Int)
  /-- r of each entry (R63) -/
  rTag : List (Nat × Nat)
  /-- entries whose ovf is set (R63) -/
  ovf : List Nat
  /-- entries whose sat is set (R63) -/
  sat : List Nat
  deriving DecidableEq, Repr

/-- The matrix engine of a core, with what its outstanding rows have still to read. -/
structure Matrix extends Engine where
  /-- MODEL: where the engine stood before the rows in `script`; DESIGN CHOICE none (entry 7) -/
  base : Option EngineBase := none
  /-- MODEL: what the engine does for the rows since `base`, oldest first; DESIGN CHOICE empty (entry 7) -/
  script : List EngineOp := []
  /-- MODEL: the reads of those rows with the bytes found, or to be found as things stand; DESIGN CHOICE empty (entry 7) -/
  seen : List (EngineRead × List (BitVec 8)) := []
  deriving DecidableEq, Repr

/-- A DMA descriptor as copied at the check stage: R144, R146. -/
structure Desc where
  /-- 64 bits; R146; source address -/
  src : Nat := 0
  /-- 64 bits; R146; destination address -/
  dst : Nat := 0
  /-- 32 bits; R146; bytes of dimension 0 -/
  len0 : Nat := 0
  /-- 16 bits; R146 -/
  n1 : Nat := 1
  /-- 16 bits; R146 -/
  n2 : Nat := 1
  /-- 16 bits; R146 -/
  n3 : Nat := 1
  /-- three signed strides of 32 bits; R146 -/
  srcS : List Int := [0, 0, 0]
  /-- three signed strides of 32 bits; R146 -/
  dstS : List Int := [0, 0, 0]
  /-- 1 bit; R149 -/
  transpose : Bool := false
  /-- 1 bit; R152 -/
  vol : Bool := false
  /-- 1 bit; R150 -/
  sigEn : Bool := false
  /-- ORDERED after sig_mode and SIGMODE are resolved: R153, R183 -/
  ordered : Bool := false
  /-- 2 bits; R181 -/
  scope : Nat := 0
  /-- 3 bits; R149; width code -/
  tw : Nat := 0
  /-- 6 bits; R146 -/
  tally : Nat := 0
  /-- 32 bits; R146; sig_val or sv -/
  sigVal : BitVec 32 := 0
  /-- 8 bits; R146 -/
  sigTo : Nat := 0
  /-- 8 bits; R146 -/
  tag : Nat := 0
  /-- 16 bits; R146; ring and side of a cable stage -/
  cable : Nat := 0
  deriving DecidableEq, Repr

/-- An entry of a DMA queue: R145, R150. -/
structure DEntry where
  /-- the model's own number of the entry -/
  id : Nat
  /-- `dma.get`, else `dma.put` -/
  isGet : Bool
  /-- the copied descriptor, addresses with their registers added -/
  desc : Desc
  /-- scoreboard ranges of its own core that the entry was counted into at its check stage: R35 -/
  ranges : List Nat := []
  /-- ranges of other cores that a put is counted into, 32 core + range: R37 -/
  far : List Nat := []
  /-- bursts sent -/
  sent : Nat := 0
  /-- bursts written at the core (get) or acknowledged (put) -/
  landed : Nat := 0
  /-- R149; what bursts of transposed blocks have brought so far, by burst -/
  gather : List (Nat × List (BitVec 8)) := []
  /-- bursts written at the destination: an ORDERED signal follows the last of them (R183) -/
  performed : Nat := 0
  /-- the scoreboard counts have been removed: R35 -/
  counted : Bool := false
  /-- the ORDERED add has been applied: R183 -/
  signalled : Bool := false
  /-- outbound operations that the entry's ACKED signal also covers: R448 -/
  covers : List Nat := []
  deriving DecidableEq, Repr

/-- A burst of a cable's load or store stage that is still to be sent: R147, R154, R160. -/
structure CBurst where
  /-- unit of the stage -/
  unit : Nat
  /-- source address: the remote one of a load, the ring's of a store -/
  src : Nat
  /-- destination address -/
  dst : Nat
  /-- bytes -/
  len : Nat
  /-- place of its bytes among those of the unit -/
  off : Nat
  /-- it is the last burst of its unit -/
  last : Bool
  deriving DecidableEq, Repr

/-- A short-path operation outstanding: R157. -/
structure ShortOp where
  /-- the model's own number of the operation -/
  id : Nat
  /-- 1 b.move, 8 sp.put, 9 sp.get, 10 sp.sig, 11 sp.word (R156) -/
  kind : Nat
  /-- remote address, or the source offset of `b.move` -/
  remote : Nat
  /-- local window offset -/
  loc : Nat
  /-- bytes moved -/
  len : Nat
  /-- scoreboard ranges counted -/
  ranges : List Nat := []
  /-- its data is written, or its home has acknowledged it -/
  done : Bool := false
  /-- the scoreboard counts have been removed -/
  counted : Bool := false
  deriving DecidableEq, Repr

/-- An entry of a read-combining or line buffer: R152, R184. -/
structure Combine where
  /-- address of the burst or line -/
  addr : Nat
  /-- the read in flight it stands for -/
  txn : Nat
  /-- a 64-byte line of the short path, else a DMA burst -/
  line : Bool
  /-- an acquire has marked it: no later read combines with it (R184) -/
  marked : Bool := false
  deriving DecidableEq, Repr

/-- What issued a transaction, so that its completion is accounted there. -/
inductive Origin where
  | outside
  | firmware
  | dma (core q id : Nat)
  | short (core id : Nat)
  | cable (core : Nat)
  | cableLoad (core slotOff : Nat)
  | strand (core ep id : Nat)
  | release (core id : Nat)
  deriving DecidableEq, Repr

/-- A release whose covered writes are not all acknowledged: R182, R183. -/
structure Release where
  /-- the model's own number of the release -/
  id : Nat
  /-- address of the tally, global or a core window -/
  addr : Nat
  /-- 32 bits; value added -/
  value : BitVec 32
  /-- numbers of the operations still to be acknowledged -/
  waits : List Nat
  /-- what makes the release: a row, a short-path operation, a descriptor, a cable or a message -/
  origin : Origin
  deriving DecidableEq, Repr

/-- A wait or take pending at a tally unit: R176, R177. -/
structure TallyReq where
  /-- 8 bits; logical core of the requester -/
  core : Nat
  /-- 6 bits; tally -/
  tally : Nat
  /-- target of a wait; none for a take -/
  target : Option (BitVec 32)
  /-- 2 bits; acquire scope -/
  scope : Nat
  deriving DecidableEq, Repr

/-- A word FIFO: R210, R216. -/
structure Fifo where
  /-- at most 32 words of 64 bits; R210; empty; head first -/
  words : List (BitVec 64) := []
  /-- R210; the parity bit held alongside each word, head first -/
  parity : List Bool := []
  /-- 16 bits; R216; 0; words delivered with POISON -/
  poisoned : Nat := 0
  /-- 32 bits; R216; 0; words popped since cast-on -/
  popped : Nat := 0
  /-- R211; none; owner index of the one writer -/
  writer : Option Nat := none
  /-- 6 bits; R213; 0; credits the writer holds -/
  credits : Nat := 0
  deriving DecidableEq, Repr

/-- A strand message queued on an endpoint: R200, R201. -/
structure Msg where
  /-- the model's own number of the message -/
  id : Nat
  /-- 7 bits; R199; granules -/
  g : Nat
  /-- 1 bit; R199; end mark -/
  endMark : Bool
  /-- 8 bits; R199; tag -/
  tag : Nat
  /-- 32 bits; R199; sequence number -/
  seq : Nat
  /-- 24 bits; R200; window offset of the payload -/
  payload : Nat
  /-- R206; tally and value signalled at completion -/
  sig : Option (Nat × BitVec 32)
  /-- bursts of the message still to be acknowledged, once granted -/
  unacked : Option Nat := none
  /-- outbound operations its signal also covers: R182 -/
  covers : List Nat := []
  deriving DecidableEq, Repr

/-- A send endpoint: `SEND_CFG_e`, `SEND_STAT_e`: R198, R208. -/
structure SendEp where
  /-- 8 bits; R198; 0 -/
  tCore : Nat := 0
  /-- 6 bits; R198; 0 -/
  tModule : Nat := 0
  /-- 4 bits; R198; 0 -/
  tSkein : Nat := 0
  /-- 1 bit; R198; 0 -/
  enable : Bool := false
  /-- at most 4 messages; R201; empty -/
  queue : List Msg := []
  /-- 32 bits; R208; 0 -/
  seqNext : Nat := 0
  deriving DecidableEq, Repr

/-- A grant request held at a skein: R202. -/
structure SReq where
  /-- 8 bits; sender's logical core -/
  core : Nat
  /-- 5 bits; sender's module -/
  module : Nat
  /-- 4 bits; sending endpoint -/
  ep : Nat
  /-- 7 bits; granules -/
  g : Nat
  deriving DecidableEq, Repr

/-- A grant of a skein that is not complete: R202, R204. -/
structure Grant where
  /-- request it serves -/
  req : SReq
  /-- ring offset of the message -/
  pos : Nat
  /-- ring offset of the WRAP record when the grant wrapped: R203 -/
  wrapAt : Option Nat
  /-- bytes of the message and its WRAP record still to be written -/
  left : Nat
  /-- scoreboard ranges counted from its first burst to its last: R37; none before the first -/
  ranges : Option (List Nat) := none
  deriving DecidableEq, Repr

/-- A receive ring: `SKEIN_CFG_n`, `STRAND_STAT_n`, `READ_INDEX_n`: R198, R204, R205. -/
structure Skein where
  /-- 24 bits; R198; 0 -/
  base : Nat := 0
  /-- 5 bits; R198; 0 -/
  log2 : Nat := 0
  /-- 6 bits; R198; 0 -/
  notify : Nat := 0
  /-- 1 bit; R198; 0 -/
  notifyEn : Bool := false
  /-- 1 bit; R198; 0 -/
  enable : Bool := false
  /-- 20 bits; R202; 0; allocation offset a -/
  alloc : Nat := 0
  /-- 21 bits; R202; 0; bytes granted and not yet released -/
  used : Nat := 0
  /-- part of the 512-entry request store; R341; empty; oldest first -/
  reqs : List SReq := []
  /-- R204; empty; grants not complete, oldest first -/
  grants : List Grant := []
  /-- 20 bits; R204; 0; wr_off -/
  wrOff : Nat := 0
  /-- 20 bits; R204; 0; msgs -/
  msgs : Nat := 0
  /-- 24 bits; R204; 0; wraps -/
  wraps : Nat := 0
  /-- 20 bits; R205; 0; rd_off -/
  rdOff : Nat := 0
  /-- 24 bits; R205; 0; rd_wraps -/
  rdWraps : Nat := 0
  deriving DecidableEq, Repr

/-- A ring of a cable command: R159, R160. -/
structure Ring where
  /-- 24 bits; R159; window offset in AB -/
  base : Nat := 0
  /-- 16 bits; R159; slot size in bytes -/
  slot : Nat := 0
  /-- 4 bits; R159; slots, 0 when the ring is not declared -/
  slots : Nat := 0
  /-- R160; slots filled so far -/
  filled : Nat := 0
  /-- R160; slots freed so far -/
  freed : Nat := 0
  deriving DecidableEq, Repr

/-- A running cable command: R159 to R166. -/
structure Cable where
  /-- 4 bits; R159; stages present -/
  stages : Nat := 0
  /-- 1 bit; R159; claimed pipe is V1 -/
  pipe1 : Bool := false
  /-- 5 bits; R159 -/
  vregLo : Nat := 0
  /-- 9 bits; R159 -/
  epiVl : Nat := 0
  /-- input chunk in bytes; R159 -/
  epiIn : Nat := 0
  /-- output chunk in bytes; R159 -/
  epiOut : Nat := 0
  /-- 24 bits; R159 -/
  constBase : Nat := 0
  /-- 32 bits; R159 -/
  constLen : Nat := 0
  /-- 64 containers at most; R162; the epilogue's V-slot operations -/
  prog : List Instr := []
  /-- R159; descriptor of the load stage -/
  load : Desc := {}
  /-- R159; descriptor of the store stage -/
  store : Desc := {}
  /-- 64 bytes; R161; tile descriptor -/
  tile : List (BitVec 8) := []
  /-- 64-bit window offsets of X, S; registers of the row's slot are not used under a cable: R161 -/
  ringA : Ring := {}
  /-- R159 -/
  ringB : Ring := {}
  /-- R159 -/
  ringC : Ring := {}
  /-- R159; load queue and store queue -/
  queues : Nat := 0
  /-- 6 bits; R165 -/
  doneTally : Nat := 0
  /-- 32 bits; R165 -/
  doneVal : BitVec 32 := 0
  /-- units done by the load stage -/
  loadU : Nat := 0
  /-- units done by the array stage (passes) -/
  arrU : Nat := 0
  /-- units done by the epilogue (chunks) -/
  epiU : Nat := 0
  /-- units done by the store stage -/
  stoU : Nat := 0
  /-- 4 bits; R166; 0; stages waiting on a ring -/
  waiting : Nat := 0
  /-- R154, R160; bursts of the load stage still to be sent -/
  toLoad : List CBurst := []
  /-- R154, R160; bursts of the store stage still to be sent -/
  toStore : List CBurst := []
  /-- R149; what the bursts of a transposed block of the load stage have brought so far -/
  gather : List (BitVec 8) := []
  /-- writes of the store stage still to be performed -/
  unwritten : Nat := 0
  /-- writes of the store stage still to be acknowledged -/
  unacked : Nat := 0
  /-- outbound operations that the load stage's signal also covers: R448 -/
  loadCovers : List Nat := []
  /-- outbound operations that the store stage's signal also covers: R448 -/
  storeCovers : List Nat := []
  /-- R150; the load stage's signal has been raised -/
  loadSignalled : Bool := false
  /-- R150; the store stage's signal has been raised -/
  storeSignalled : Bool := false
  /-- outbound operations its completion also covers: R448 -/
  covers : List Nat := []
  /-- R163; spans of the header, the stage descriptors, the program and the constant area -/
  area : List (Nat × Nat) := []
  /-- passes of the output block in progress, oldest first: R75, R164 -/
  since : List PassIn := []
  /-- R162; empty; register writes of the epilogue that its operations do not see yet, by the cycles of the claimed pipe still to pass -/
  epiPipe : List Pend := []
  /-- the model's own number of the cable -/
  id : Nat := 0
  deriving DecidableEq, Repr

/-- How far a core is in its task: R189, R190. -/
inductive Phase where
  | idle | ready | running | ended | castOff | stopped
  deriving DecidableEq, Repr

/-- A logical core: what patterns, clients and the firmware name by its logical number (R12). -/
structure Core where
  /-- 32 x 64 bits; R25; undefined at cast-on, DESIGN CHOICE 0 at reset (entry 1); scalar registers written since cast-on -/
  s : List (Nat × BitVec 64) := []
  /-- 32 x 64 bits; R30; as s; the scalar registers as a check operand reads them -/
  sChk : List (Nat × BitVec 64) := []
  /-- 32 x 2048 bits; R25; undefined at cast-on, DESIGN CHOICE 0 at reset (entry 1); vector registers -/
  v : List (Nat × BitVec 2048) := []
  /-- 8 x 256 bits; R25; undefined at cast-on, DESIGN CHOICE 0 at reset (entry 1); mask registers -/
  m : List (Nat × BitVec 256) := []
  /-- 9 bits; R25, R109; undefined at cast-on, DESIGN CHOICE 0 at reset (entry 1); VL, none while undefined -/
  vl : Option Nat := some 0
  /-- 9 bits; R109; as vl; VL as a check operand reads it -/
  vlChk : Option Nat := some 0
  /-- MODEL: number of the cast-on whose undefined registers are free values (entry 2); DESIGN CHOICE none (entry 2) -/
  tok : Option Nat := none
  /-- R27, R28; empty; writes not yet visible, in issue order -/
  pipe : List Pend := []
  /-- lc0 to lc3, 4 loop counters; R25, R32; no active loop; innermost level first -/
  loops : List Loop := []
  /-- MODEL: cycles that have passed here without a row of the core's, past its `task.end` or before a task; DESIGN CHOICE 0 (entry 7) -/
  drained : Nat := 0
  /-- 12 bits; R29; DESIGN CHOICE 0 (entry 1); row index of the next row for the check stage, in the active bank -/
  pc : Nat := 0
  /-- at most 4; R29, R39; empty; what lies between the check stage and issue, oldest first: a row, or none for a cycle in which no row issues -/
  skid : List (Option Checked) := []
  /-- R29, R190; false; the check stage has passed the task's `task.end` row -/
  fetchEnd : Bool := false
  /-- MODEL: bytes that stores changed in the last four issue cycles, as a check-stage read still finds them (R144), with the cycle that
  ends it and their offset, newest last; DESIGN CHOICE empty (entry 4) -/
  chkOld : List (Nat × Nat × List (BitVec 8)) := []
  /-- MODEL: row index that a control slot has chosen for the next row, if any; DESIGN CHOICE none (entry 5) -/
  next : Option Nat := none
  /-- MODEL: number from which operations of the row that is issuing count, while its slots act (R448); DESIGN CHOICE none (entry 7) -/
  rowFrom : Option Nat := none
  /-- R39; none; the row that the check stage holds -/
  held : Option Held := none
  /-- at most 2; R40; empty; late holds that this core has raised -/
  late : List Late := []
  /-- R41, R54; none; the held turn in progress -/
  turn : Option Turn := none
  /-- 8 bits; R54; 0; last_cause -/
  lastCause : Nat := 0
  /-- 8 bits; R54; 0; last_tag -/
  lastTag : Nat := 0
  /-- 6 bits; R54; 0; last_member -/
  lastMember : Nat := 0
  /-- 8 bits; R54; 0; last_detail -/
  lastDetail : Nat := 0
  /-- 24 bits; R54; 0; last_len -/
  lastLen : Nat := 0
  /-- R190; idle; how far the core is in its task -/
  phase : Phase := .idle
  /-- 32 bits; R359; DESIGN CHOICE none (entry 1); task the core carries -/
  task : Option Nat := none
  /-- R369; DESIGN CHOICE 0 (entry 1); GT since which the core carries no task, from which a batching window of its pattern runs -/
  freed : Nat := 0
  /-- 32 x 64 bits; R33; 0; SB_RANGE_0 to SB_RANGE_31 -/
  ranges : List (Nat × Range) := []
  /-- 8 x 64 bits; R130; 0; CB_REGION_0 to CB_REGION_7 -/
  regions : List (Nat × CbRegion) := []
  /-- CORE_ID.gang_pos, 5 bits; R126; 0 -/
  gangPos : Nat := 0
  /-- CORE_ID.in_gang, 1 bit; R126; 0 -/
  inGang : Bool := false
  /-- CORE_ID.gang_last, 5 bits; R126; 0 -/
  gangLast : Nat := 0
  /-- CORE_ID.module, 6 bits; R126; 0 -/
  idModule : Nat := 0
  /-- CORE_ID.modules_m1, 6 bits; R126; 0 -/
  idModules : Nat := 0
  /-- IBANK_STAT.active_bank, 1 bit; R55; 0 -/
  bank : Nat := 0
  /-- IBANK_STAT.flips, 16 bits; R55; 0 -/
  flips : Nat := 0
  /-- R236; DESIGN CHOICE empty (entry 1); segments of the flip list not yet loaded -/
  flipList : List Nat := []
  /-- R50; DESIGN CHOICE false (entry 1); a bank load with every write acknowledged awaits its signal -/
  loadDone : Bool := false
  /-- R50; DESIGN CHOICE false (entry 1); the completion of the loader's last write says that it was refused -/
  loadRefused : Bool := false
  /-- R56 to R80; as the parts say; the matrix engine -/
  mx : Matrix := {}
  /-- R74; DESIGN CHOICE false (entry 1); the manifest declares optimistic spill -/
  optimistic : Bool := false
  /-- 24 bits; R87; 0; NUM_STAT.cvt_sats -/
  cvtSats : Nat := 0
  /-- 16 bits; R87; 0; NUM_STAT.invalid -/
  invalid : Nat := 0
  /-- 16 bits; R87; 0; NUM_STAT.overflow -/
  overflow : Nat := 0
  /-- 4 queues of 64 descriptors; R142, R145; empty; keyed by queue -/
  queues : List (Nat × List DEntry) := []
  /-- DMA_QCOUNT_q.done, 4 x 32 bits; R153; 0 -/
  dmaDone : List (Nat × Nat) := []
  /-- DMA_QCFG.sigmode, 4 bits; R153; 0b1111 -/
  sigmode : BitVec 4 := 15
  /-- BW_REG.rate, 16 bits; R155; 819 -/
  bwRate : Nat := 819
  /-- BW_REG.depth, 16 bits; R155; 4096 -/
  bwDepth : Nat := 4096
  /-- BW_STAT.tokens, 16 bits, with 10 fraction bits; R155; depth; in 1/1024 token -/
  tokens : Nat := 4194304
  /-- BW_STAT.yellow, 32 bits; R155; 0 -/
  yellow : Nat := 0
  /-- at most 16 operations; R157; empty; short path -/
  short : List ShortOp := []
  /-- SHORT_STAT.combined, 16 bits; R158; 0 -/
  combined : Nat := 0
  /-- SHORT_STAT.done, 32 bits; R158; 0 -/
  shortDone : Nat := 0
  /-- 32 + 16 entries; R152; empty; read-combining and line buffers -/
  combine : List Combine := []
  /-- R159 to R166; none; running cable command (CABLE_STAT) -/
  cable : Option Cable := none
  /-- CABLE_STAT.passes, 24 bits; R166; 0 -/
  cablePasses : Nat := 0
  /-- CABLE_STAT.chunks, 32 bits; R166; 0 -/
  cableChunks : Nat := 0
  /-- 64 x 32 bits; R174, R188; DESIGN CHOICE 0 (entry 1); TALLY_0 to TALLY_63 -/
  tallies : List (Nat × BitVec 32) := []
  /-- 64 x 32 bits; R189; 0; cast-on values of the tallies -/
  tally0 : List (Nat × BitVec 32) := []
  /-- R176; empty; waits and takes pending at this core's tally unit -/
  reqs : List TallyReq := []
  /-- R183; empty; releases that wait for acknowledgements, oldest first -/
  rels : List Release := []
  /-- TALLY_STAT.at_castoff, 1 bit; R180; 0 -/
  atCastoff : Bool := false
  /-- TALLY_STAT.quiet, 21 bits; R180; 0 -/
  quiet : Nat := 0
  /-- 16 endpoints; R196; 0; SEND_CFG_e, SEND_STAT_e and strand queues -/
  sends : List (Nat × SendEp) := []
  /-- 16 rings; R196; 0; SKEIN_CFG_n, STRAND_STAT_n, READ_INDEX_n -/
  skeins : List (Nat × Skein) := []
  /-- 5 FIFOs; R210; empty -/
  fifos : List (Nat × Fifo) := []
  /-- PIP_ALLOT.allot, 8 bits; R293; pip_allot, DESIGN CHOICE 0 before any cast-on (entry 1) -/
  allot : Nat := 0
  /-- PIP_ALLOT.keep, 8 bits; R293; 0 -/
  keep : Nat := 0
  /-- PIP_LENT.lent, 8 bits; R293; 0 -/
  lent : Nat := 0
  /-- PIP_LENT.reclaiming, 1 bit; R293; 0 -/
  reclaiming : Bool := false
  /-- PIP_LENT.wait, 12 bits; R293, R294; 0; counts to 4096 -/
  wait : Nat := 0
  /-- PIP_LENT.lends, 32 bits; R293; 0 -/
  lends : Nat := 0
  /-- R247; empty; bursts another agent wrote since the last satisfied acquire (referee) -/
  unacquired : List Nat := []
  /-- R249; none; rows a STEP still lets issue -/
  stepLeft : Option Nat := none
  /-- IBANK segments in force per bank; R236; DESIGN CHOICE none (entry 1) -/
  segs : List (Nat × Nat) := []
  deriving DecidableEq, Repr

/-- Power state of a physical core: R307. -/
inductive CorePower where
  | active | hold | nap
  deriving DecidableEq, Repr

/-- A physical core: what follows the silicon and not the logical number (R53, R139). -/
structure Phys where
  /-- 12 MiB; R124; DESIGN CHOICE 0 (entry 3); WB, AB and PB by window offset -/
  mem : List (Nat × BitVec 8) := []
  /-- MODEL: checkerboard regions under which `mem` shows the bits of AB (R131, R134); DESIGN CHOICE none (entry 3) -/
  cbView : List CbRegion := []
  /-- 256 x 512 x 32 bits; R63; DESIGN CHOICE 0 (entry 1); ACC values keyed 512 e + n -/
  acc : List (Nat × BitVec 32) := []
  /-- 256 x 8 bits; R63; 0; e_tag of each entry, signed -/
  eTag : List (Nat × Int) := []
  /-- 256 x 5 bits; R63; 0; r of each entry -/
  rTag : List (Nat × Nat) := []
  /-- 256 x 1 bit; R63; 0; entries whose ovf is set -/
  ovf : List Nat := []
  /-- 256 x 1 bit; R63; 0; entries whose sat is set -/
  sat : List Nat := []
  /-- 2 x 4096 x 512 bits; R49; DESIGN CHOICE 0 (entry 1); instruction banks keyed 4096 bank + row -/
  imem : List (Nat × BitVec 512) := []
  /-- 64 bits; R53; 0; ROW_COUNT -/
  rowCount : Nat := 0
  /-- 64 bits; R53; 0; ROW_BASE -/
  rowBase : Nat := 0
  /-- 64 bits; R53; 0; HOLD_COUNT -/
  holdCount : Nat := 0
  /-- 64 bits; R53; 0; HOLD_CYCLES -/
  holdCycles : Nat := 0
  /-- IBANK_STAT.refused_writes, 16 bits; R55; 0 -/
  refused : Nat := 0
  /-- ECC_STAT.corr_wb 12, corr_ab 12, corr_pb 12, corr_acc 8, corr_imem 8 bits; R139; 0; keyed by buffer 0 to 4 -/
  corr : List (Nat × Nat) := []
  /-- ECC_STAT.uncorr, 8 bits; R139; 0 -/
  uncorr : Nat := 0
  /-- ECC_LAST[31:0], 32 bits; R139; 0 -/
  eccLast : BitVec 32 := 0
  /-- ECC_LAST.scrub_corr, 16 bits; R139; 0 -/
  scrubCorr : Nat := 0
  /-- ECC_LAST.spares_used, 8 bits per buffer; R139; from remap table, 0; keyed by buffer -/
  spares : List (Nat × Nat) := []
  /-- R135; DESIGN CHOICE none (entry 1); words known to hold a stored single-bit error -/
  weak : List EccWord := []
  /-- R138; DESIGN CHOICE 0 (entry 1); burst the scrubber reads next -/
  scrubPos : Nat := 0
  /-- R307; DESIGN CHOICE false (entry 1); the firmware has put it in NAP -/
  nap : Bool := false
  /-- R374; empty; GT of the replays the core caused -/
  caused : List Nat := []
  /-- R136; DESIGN CHOICE false (entry 1); returned to the spare pool: the ring-order map passes over it while others suffice -/
  passed : Bool := false
  deriving DecidableEq, Repr

/-- State of a unit in `UNIT_STATE_u`: R385. -/
inductive UState where
  | inService | spare | draining | disabled | retired | suspect
  deriving DecidableEq, Repr

/-- An entry of the unit state table: R385. -/
structure UnitE where
  /-- 3 bits; R385; from remap table: cores at ring positions 32 to 35 SPARE, all else IN_SERVICE -/
  state : UState := .inService
  /-- 1 bit; R385; 0; a management request is queued: the state asked for -/
  pending : Option UState := none
  /-- 1 bit; R385; 0; management path made the last change -/
  mgmt : Bool := false
  /-- 8 bits; R385; from remap table, 0 -/
  cause : Nat := 0
  /-- 4 bits; R385; from remap table, 0 -/
  marks : Nat := 0
  /-- 32 bits; R385; from remap table, 0 -/
  generation : Nat := 0
  /-- R387; what DRAINING leads to (DISABLED or RETIRED) -/
  target : UState := .disabled
  deriving DecidableEq, Repr

/-- Kinds of transaction: R330, and a landed read burst waiting for the external port (R153). -/
inductive TxKind where
  | readReq | readResp | landing | write | writeAck | tallyAdd | strandReq | strandGrant | strandData | fwMsg
  deriving DecidableEq, Repr

/-- A transaction in flight: R193, R330. -/
structure Txn where
  /-- 16 bits; R330; tag; the model's own number for local ones -/
  id : Nat
  /-- 8 bits; R330; type -/
  kind : TxKind
  /-- 8 bits; R330; src_core -/
  core : Nat := 255
  /-- 5 bits; R330; requester's module -/
  module : Nat := 0
  /-- 1 bit; R330; requester's side -/
  side : Bool := false
  /-- 1 bit; R330; volatile -/
  vol : Bool := false
  /-- 64 bits; R330; dst -/
  dst : Nat := 0
  /-- bytes asked for by a read -/
  len : Nat := 0
  /-- R330; data chunks -/
  data : List (BitVec 8) := []
  /-- what issued it -/
  origin : Origin := .outside
  /-- port it arrived on or leaves by: R337 -/
  port : Option Nat := none
  /-- buffer offset a landed read goes to -/
  loc : Nat := 0
  /-- bits 4-5 of STRAND_REQ, or the skein of strand traffic; the unit's index in its descriptor for DMA traffic -/
  aux : Nat := 0
  /-- R152; none; the outstanding read whose data a combined read returns -/
  follows : Option Nat := none
  /-- R157; false; it waits to go onto its link behind an earlier short-path operation to the same home -/
  unsent : Bool := false
  deriving DecidableEq, Repr

/-- A resident pattern: R234. -/
structure Pattern where
  /-- 64 bits; R363; handle -/
  handle : Nat
  /-- R229; the image as loaded -/
  image : List (BitVec 8)
  /-- 384 bits; R230; H -/
  hash : BitVec 384
  /-- 384 bits; R317; W -/
  weights : BitVec 384
  /-- load option DEBUG; R246 -/
  debug : Bool
  /-- load option LAX; R246 -/
  lax : Bool
  /-- load option by_name; R363; false -/
  byName : Bool := false
  /-- 7 bits; R363 -/
  batchMax : Nat
  /-- 11 bits; R363 -/
  windowUs : Nat
  /-- 384 bits; R318; 0; state head -/
  stateHead : BitVec 384 := 0
  /-- R235; false; resident entries have been copied at a cast-on -/
  placed : Bool := false
  /-- R378; false; UNFIT -/
  unfit : Bool := false
  /-- R376; false; STATE_LOST -/
  stateLost : Bool := false
  /-- warning records of the load; R241 -/
  warnings : List (BitVec 8) := []
  deriving DecidableEq, Repr

/-- A load the loader holds: R234. -/
structure Load where
  /-- session and tag to answer; none for a staged entry -/
  reply : Option (Nat × BitVec 32)
  /-- 8 bits; R363; options -/
  options : Nat
  /-- R363 -/
  batchMax : Nat
  /-- R363 -/
  windowUs : Nat
  /-- the image bytes -/
  image : List (BitVec 8)
  /-- entry of the staged list: R398 -/
  staged : Option Nat := none
  /-- R365; false; the peers have been asked for the objects that no own cartridge has -/
  asked : Bool := false
  /-- R363; none; the first refusal that the loader of another module has found, as status and record -/
  peerRefusal : Option (Nat × List (BitVec 8)) := none
  deriving DecidableEq, Repr

/-- Alerts that the device sends on DTLS: R347, R358. -/
inductive Alert where
  | closeNotify | internalError
  deriving DecidableEq, Repr

/-- What a task that has no rows to run here still waits for: its second run, the twin's vote, a third run (R326, R381), or the result of the
twin, which runs it instead of this side (R378, R383). -/
inductive TaskCheck where
  | none | second | vote | third | twin
  deriving DecidableEq, Repr

/-- Task states of QUERY_STATUS: R360. -/
inductive TState where
  | queued | running | replaying | complete | delivered
  deriving DecidableEq, Repr

/-- A task: R359 to R361. -/
structure Task where
  /-- 32 bits; R359; task number -/
  num : Nat
  /-- 14 bits; R360; session -/
  session : Nat
  /-- 32 bits; R349; tag of its SUBMIT (breakpoint kind 5) -/
  tag : BitVec 32
  /-- 64 bits; R359; handle -/
  handle : Nat
  /-- 2 bits; R359; evidence, sign -/
  options : Nat
  /-- R323; retained input bytes -/
  input : List (BitVec 8)
  /-- 512 bits; R315; seed block -/
  seeds : List (BitVec 8)
  /-- 384 bits; R318; P -/
  p : BitVec 384
  /-- 384 bits; R319; I, once the last byte has landed -/
  inHash : Option (BitVec 384) := none
  /-- R360; queued -/
  state : TState := .queued
  /-- 16 bits; R367; terminal status -/
  status : Nat := 1
  /-- 32 bits; R368; result flags -/
  flags : Nat := 0
  /-- R320; result bytes -/
  result : List (BitVec 8) := []
  /-- 32 bits; R360; replays -/
  replays : Nat := 0
  /-- 64 bits; R266; start time -/
  start : Nat := 0
  /-- 64 bits; R321; GT at cast-off -/
  gtCastoff : Nat := 0
  /-- 384 bits; R316; D -/
  digest : BitVec 384 := 0
  /-- 384 bits; R320; Q -/
  qHash : BitVec 384 := 0
  /-- R326, R381; D and Q of the runs so far, the twin's vote among them -/
  runs : List (BitVec 384 × BitVec 384) := []
  /-- R326, R381; none; what the check of the finished run waits for -/
  check : TaskCheck := .none
  /-- R326, R381; empty; physical cores of each run of this module -/
  runCores : List (List Nat) := []
  /-- R215; a poisoned word was delivered -/
  poisoned : Bool := false
  /-- R361; seq_out of a reply that will deliver the task once acknowledged -/
  deliverSeq : Option (BitVec 32) := none
  /-- R360; GT of delivery -/
  deliveredAt : Nat := 0
  /-- R362; result released after the cast-off check -/
  released : Bool := false
  /-- R369; slot in its batch and the batch's size -/
  slot : Nat := 0
  /-- R369; members of the batch by number, the first leading -/
  batch : List Nat := []
  /-- GT of acceptance: R369 -/
  accepted : Nat := 0
  /-- R259; GT since which its cast-on waits on an unlocked module -/
  waitsUnlocked : Option Nat := none
  /-- R235; HBM ranges installed at its cast-on: base, length, role -/
  ranges : List (Nat × Nat × Nat) := []
  /-- R235; core set installed at its cast-on -/
  coreSet : List Nat := []
  /-- R339; false; twin_mode is SHARE -/
  share : Bool := false
  /-- R362; false; a slot of a batch cancelled alone: its result is discarded at cast-off -/
  cancelled : Bool := false
  /-- 32 bits; R360; 0; bytes of a result that has been released -/
  resultLen : Nat := 0
  /-- R104; false; the format rule has run for the task's batch -/
  ruleRan : Bool := false
  deriving DecidableEq, Repr

/-- A command of more than one packet in progress: R352. -/
structure Multi where
  /-- 16 bits; opcode -/
  opcode : Nat
  /-- 32 bits; tag -/
  tag : BitVec 32
  /-- leading parameters of the first packet -/
  lead : List (BitVec 8)
  /-- data bytes taken so far -/
  data : List (BitVec 8)
  /-- data bytes the first packet declared -/
  total : Nat
  /-- a rule was broken: the rest is consumed without action -/
  dead : Bool := false
  /-- GT of its first packet -/
  since : Nat
  deriving DecidableEq, Repr

/-- A session context: R347. -/
structure Session where
  /-- 384 bits; R347; hash of the client's end-entity certificate -/
  cert : BitVec 384 := 0
  /-- role mask, 2 bits; R348; 1 CLIENT, 2 OPERATOR -/
  roles : Nat := 0
  /-- CAs the chain ends at: R348 -/
  cas : List (BitVec 384) := []
  /-- 32 bits; R353; 0; e -/
  expected : BitVec 32 := 0
  /-- at most 16; R353; empty; reorder store, oldest first, each packet with the GT at which it arrived -/
  held : List (Nat × Packet) := []
  /-- 32 bits; R354; 0; seq_out of the next numbered reply -/
  devNext : BitVec 32 := 0
  /-- at most 256; R354; empty; reply window, oldest first, each with the seq_out of the command it answers, none for an unnumbered one -/
  window : List (Option (BitVec 32) × Packet) := []
  /-- 32 bits; R356; 0xFFFFFFFF; latest seq_ack received -/
  clientAck : BitVec 32 := 0xFFFFFFFF
  /-- 16 bits; R356; 0 -/
  crcDrops : Nat := 0
  /-- R357; tags and seq_out of processed commands without a reply -/
  unanswered : List (BitVec 32 × BitVec 32) := []
  /-- R352; empty; commands of more than one packet in progress, oldest first -/
  multis : List Multi := []
  /-- 64 bits; R347; last-activity time, GT -/
  lastGt : Nat := 0
  /-- R347; source of the most recent authenticated packet -/
  peer : Nat := 0
  /-- R346; records sent under the sending keys in force -/
  sent : Nat := 0
  /-- 256 bits; R346, R347; record key that the device sends under -/
  txKey : BitVec 256 := 0
  /-- 256 bits; R346, R347; record key that the client sends under -/
  rxKey : BitVec 256 := 0
  /-- R346, R347; DTLS epoch of the sending keys -/
  txEpoch : Nat := 3
  /-- R346, R347; DTLS epoch of the receiving keys -/
  rxEpoch : Nat := 3
  /-- R395; SPDM connection state: 0 none, 1 version, 2 capabilities, 3 algorithms -/
  spdm : Nat := 0
  /-- R395; empty; SPDM messages of the connection so far: version, capabilities and algorithms -/
  transcriptA : List (BitVec 8) := []
  /-- R395; empty; SPDM messages of digests and certificates since the algorithms -/
  transcriptB : List (BitVec 8) := []
  /-- R395; empty; SPDM messages of measurements since the last signature -/
  transcriptM : List (BitVec 8) := []
  deriving DecidableEq, Repr

/-- A panel: clock, voltage and pip pool (R260 to R264, R295 to R300). -/
structure Panel where
  /-- 8 bits; R264; 120; FREQ_STAT_p.cur_code -/
  cur : Nat := 120
  /-- 8 bits; R264; 120; req_code -/
  req : Nat := 120
  /-- 4 bits; R264; 0; limit -/
  limit : Nat := 0
  /-- 4 bits; R264; 15; margin -/
  margin : Nat := 15
  /-- 16 bits; R264; 0; stretches -/
  stretches : Nat := 0
  /-- 16 bits; R264; 0; commits -/
  commits : Nat := 0
  /-- 8 bits; R264; 132; FREQ_CTL_p.ceiling -/
  ceiling : Nat := 132
  /-- R264; none; ceiling written and not yet applied -/
  ceilingNext : Option Nat := none
  /-- R264; false; a task boundary has passed since the write -/
  boundary : Bool := false
  /-- R263; false; the supply is below the droop threshold and the period doubled -/
  droop : Bool := false
  /-- R263; false; the epoch in progress saw a droop stretch -/
  drooped : Bool := false
  /-- R263; 0; 0 none, 1 sustained, 2 code 32 requested, 3 code 32 committed -/
  sustained : Nat := 0
  /-- R300; 120; highest code whose voltage the CPB has reported settled -/
  settled : Nat := 120
  /-- R300, R308; code 120; the code to whose voltage VPp is set; none: 0.55 V, in STANDBY -/
  vset : Option Nat := some 120
  /-- R300; false; a low reading caps the next margin_limit -/
  voutLow : Bool := false
  /-- PANEL_PWR_p.pool, 16 bits; R298; 0 -/
  pool : Nat := 0
  /-- PANEL_PWR_p.raise, 4 bits; R298; 0 -/
  raised : Nat := 0
  /-- PANEL_PWR_p.active_allot, 16 bits; R298; 0 -/
  activeAllot : Nat := 0
  /-- PANEL_PWR_p.tj, 8 bits signed; R298; 0 -/
  tj : Int := 0
  /-- PANEL_PWR_p.reclaim_stretches, 16 bits; R298; 0 -/
  reclaims : Nat := 0
  /-- R297; false; a reclaim stretch is in force -/
  reclaimStretch : Bool := false
  /-- R282; false; MARGIN_LOW already written in this summary interval -/
  marginLow : Bool := false
  deriving DecidableEq, Repr

/-- An HBM channel under calibration: R272 to R277. -/
structure Channel where
  /-- R272; DESIGN CHOICE 0 (entry 1); main phase in 1/64 UI steps -/
  phase : Int := 0
  /-- R274; 0; steps moved since the last window -/
  moved : Nat := 0
  /-- R274; 0; GT of the last completed window -/
  lastWindow : Nat := 0
  /-- R274; false; a window is due early -/
  due : Bool := false
  /-- R274; false; a window is open -/
  isOpen : Bool := false
  /-- R276; 0; consecutive failures -/
  fails : Nat := 0
  /-- R276; false; the controller has stopped retraining it -/
  stopped : Bool := false
  /-- R275; 0; aligned 4 ms interval the count belongs to -/
  interval : Nat := 0
  /-- R275; 0; windows opened in that interval -/
  windows : Nat := 0
  /-- R284; 0; filler reads issued in that interval -/
  fillers : Nat := 0
  /-- R272; false; the re-centring decision of that interval is made -/
  recentred : Bool := false
  /-- R274; none; temperature of the stack at the last window, or first read since boot (entry 34) -/
  temp : Option Int := none
  /-- R277; 0; exit from self-refresh after which its window has run -/
  windowExit : Nat := 0
  /-- R277; 0; exit from self-refresh after which its re-centring decision is made -/
  recentreExit : Nat := 0
  /-- 128 KiB; R274; empty; writes accepted while the channel is closed, not yet retired: address and length -/
  posted : List (Nat × Nat) := []
  /-- R373; empty; rows to be repaired at the next boundary -/
  repairs : List Nat := []
  /-- R373; empty; rows that soft repair replaced, for hard repair at the next STANDBY or boot -/
  softRows : List Nat := []
  deriving DecidableEq, Repr

/-- States of a port: R332. -/
inductive LState where
  | unused | down | train | up | retrain | failed | miswired
  deriving DecidableEq, Repr

/-- What the module puts on a link: flits, and the control channel's messages; a transaction is what flits carry (R258, R280, R328 to
R330). -/
inductive LinkMsg where
  /-- a time beacon: R258 -/
  | beacon
  /-- a flit of 256 bytes: R329 -/
  | flit (bytes : List (BitVec 8))
  /-- SWAP_REQ of a lane: R280 -/
  | swapReq (lane : Nat)
  /-- SWAP_AT a flit slot: R280 -/
  | swapAt (lane slot : Nat)
  /-- SWAP_DONE: R280 -/
  | swapDone (lane : Nat)
  /-- the signature of CHALLENGE_AUTH, by which the peer authenticates this module: R334, R390 -/
  | auth (signature : List (BitVec 8))
  /-- a transaction as its header chunk and data chunks say it: requester, tag, bytes moved, flags, address: R330 -/
  | txn (kind : TxKind) (core module : Nat) (side : Bool) (tag len : Nat) (vol : Bool) (dst : Nat) (data : List (BitVec 8))
  deriving DecidableEq, Repr

/-- A transaction that waits at a port: R333. -/
structure Waiting where
  /-- 0 RESP, 1 WRITE, 2 REQ, 3 MSG -/
  cls : Nat
  /-- the transaction -/
  msg : LinkMsg
  /-- what selects its port: its core, 256 for firmware (R337) -/
  sel : Nat
  /-- its core had no tokens left: R154 -/
  yellow : Bool := false
  /-- port whose receive buffer a relayed transaction still takes: R338 -/
  via : Option Nat := none
  deriving DecidableEq, Repr

/-- A flit of the retry buffer: part `part` of a transaction under a sequence number (R329, R331). -/
structure Flit where
  /-- sequence number; 12 bits: R331 -/
  seq : Nat
  /-- the transaction: R329, R330 -/
  msg : LinkMsg
  /-- which 15 of its chunks: R329 -/
  part : Nat
  deriving DecidableEq, Repr

/-- An Oalan port: R327 to R344, R279 to R285. -/
structure Port where
  /-- 3 bits; R343; 1 DOWN -/
  state : LState := .down
  /-- 5 bits; R343; 0 -/
  peerModule : Nat := 0
  /-- 1 bit; R343; 0 -/
  peerSide : Bool := false
  /-- 6 bits; R343; 0 -/
  peerPort : Nat := 0
  /-- 1 bit; R343; 0 -/
  relay : Bool := false
  /-- 1 bit; R343; 0 -/
  spareActive : Bool := false
  /-- 16 bits; R343; 0 -/
  retrains : Nat := 0
  /-- 32 bits; R343; 0 -/
  replays : Nat := 0
  /-- 16 bits; R343; 0 -/
  crcErrors : Nat := 0
  /-- 16 bits; R343; 0 -/
  fecUncorr : Nat := 0
  /-- R332; 0; training or retraining attempts failed in a row -/
  attempts : Nat := 0
  /-- R333; empty; transactions that wait for credit or for the retry buffer -/
  txQ : List Waiting := []
  /-- R333; 256; selector that each class sent for last: DESIGN CHOICE core 0 comes first (entry 16) -/
  lastSel : List Nat := [256, 256, 256, 256]
  /-- R333; 0; flit slots that each class with a waiting transaction has been passed over -/
  skipped : List Nat := [0, 0, 0, 0]
  /-- R329, R333; 0; receive buffer freed in each class since the last flit, in 256-byte units -/
  owed : List Nat := [0, 0, 0, 0]
  /-- R331; 0; next flit sequence number to send -/
  txSeq : Nat := 0
  /-- 2048 flits; R331; empty; retry buffer: flits unacknowledged, oldest first -/
  unacked : List Flit := []
  /-- R331; 0; replays of the oldest flit in a row -/
  oldest : Nat := 0
  /-- R331; 0; expected sequence number -/
  rxSeq : Nat := 0
  /-- R331; false; a nak has been sent and the expected flit has not arrived -/
  naked : Bool := false
  /-- R329; empty; chunks of a transaction not yet whole -/
  partChunks : List (BitVec 8) := []
  /-- 4 x 16 bits; R333; 256, 256, 64, 128; credits for RESP, WRITE, REQ, MSG -/
  credits : List Nat := [256, 256, 64, 128]
  /-- 4 bits; R285; 15; spare_for -/
  spareFor : Nat := 15
  /-- 1 bit; R285; 0; no_spare -/
  noSpare : Bool := false
  /-- 3 bits; R285; 0; eye_lane -/
  eyeLane : Nat := 0
  /-- 6 bits; R285; 63; eye_min -/
  eyeMin : Nat := 63
  /-- 32 bits; R285; 0; corrected -/
  corrected : Nat := 0
  /-- R279; 0; consecutive low checks per lane -/
  lowChecks : List (Nat × Nat) := []
  /-- R280; none; lane a swap request is out for (receive side) -/
  swapReq : Option Nat := none
  /-- R280; none; lane and slot chosen for the transmit direction -/
  swapTx : Option (Nat × Nat) := none
  /-- R280; none; lane and slot chosen for the receive direction -/
  swapRx : Option (Nat × Nat) := none
  /-- R281; 15; lane carried on the spare in the transmit direction -/
  txSpareFor : Nat := 15
  /-- R281; false; a substitution fell in the epoch in progress: its beacon pair is invalid -/
  swapped : Bool := false
  /-- R281; 0; GT at which the last SWAP_REQ went out -/
  swapGt : Nat := 0
  /-- R281; none; lane whose SWAP_REQ is held until the replay ends -/
  swapHeld : Option Nat := none
  /-- R280; 0; GT at link bring-up, from which the flit slots of both directions count -/
  aligned : Nat := 0
  deriving DecidableEq, Repr

/-- A cartridge header and catalogue: R404. -/
structure Cartridge where
  /-- 16 bytes; R409; serial -/
  serial : List (BitVec 8) := []
  /-- 8 bytes; R409; fw_rev -/
  fwRev : List (BitVec 8) := []
  /-- 64 bits; R409; capacity in bytes -/
  capacity : Nat := 0
  /-- the chain verifies under the Oalan cartridge CA: R402 -/
  authOk : Bool := true
  /-- a valid header is present; else blank: R405 -/
  valid : Bool := false
  /-- R404; 0 active, 1 read-only, 2 retired -/
  state : Nat := 0
  /-- 128 bits; R404 -/
  mirrorId : Nat := 0
  /-- 64 bits; R404 -/
  generation : Nat := 0
  /-- 64 bits; R404; bytes written over its life -/
  written : Nat := 0
  /-- R404; hash, first block and kind of each object with its bytes -/
  objects : List (BitVec 384 × Nat × List (BitVec 8)) := []
  /-- 16 entries of 52 bytes; R404; staged list -/
  staged : List (List (BitVec 8)) := []
  /-- 8 bits; R407; NVMe percentage_used -/
  pctUsed : Nat := 0
  /-- 384 bits; R409; end-entity certificate hash -/
  certHash : BitVec 384 := 0
  deriving DecidableEq, Repr

/-- A cartridge bay: R405 to R409, R441. -/
structure Bay where
  /-- R441; none; the cartridge in the bay -/
  cart : Option Cartridge := none
  /-- R441; false; PRSNT# debounced and the bay powered -/
  powered : Bool := false
  /-- R441; true; PERST# asserted -/
  perst : Bool := true
  /-- R441; true; PWRDIS asserted -/
  pwrdis : Bool := true
  /-- R405; false; mounted -/
  mounted : Bool := false
  /-- R408; false; marked retired -/
  retired : Bool := false
  /-- 8 bits; R409; 0; detail -/
  detail : Nat := 0
  /-- R406, R409; false; the bay is the resync target -/
  target : Bool := false
  /-- 64 bits; R409; 0; bytes still to copy -/
  resyncLeft : Nat := 0
  /-- R407; false; CART_WEAR_WARN recorded -/
  warned : Bool := false
  /-- R407; 0; bytes written at the last CART_WRITTEN -/
  lastWritten : Nat := 0
  /-- R387; false; DRAINING: no new command -/
  draining : Bool := false
  /-- R387; false; drained, safe to remove -/
  drained : Bool := false
  deriving DecidableEq, Repr

/-- An event offered to the scorebook controller: R411, R413. -/
structure Event where
  /-- 16 bits; R416 -/
  code : Nat
  /-- 16 bits; R411 -/
  source : Nat
  /-- R416; the event's data -/
  data : List (BitVec 8)
  deriving DecidableEq, Repr

/-- The scorebook: R410 to R420. -/
structure Scorebook where
  /-- 524,288 x 512 bits; R410; DESIGN CHOICE empty (entry 1); records by slot, each with its 64 bytes -/
  slots : List (Nat × List (BitVec 8)) := []
  /-- 48 bits; R419; from MRAM, 0; SB_STAT.next_seq -/
  nextSeq : Nat := 0
  /-- 16 bits; R419; 0; SB_STAT.dropped -/
  dropped : Nat := 0
  /-- R413; 0; events discarded since the last RECORDS_DROPPED -/
  owed : Nat := 0
  /-- 8 bits; R419; 0; SB_SPAN.late_ckpts -/
  late : Nat := 0
  /-- R413; 256; allowance -/
  allowance : Nat := 256
  /-- R413; 0; GT units towards the next step of the allowance -/
  allowTick : Nat := 0
  /-- 256 records; R413; empty; accepted and not yet written -/
  queue : List (List (BitVec 8)) := []
  /-- MODEL: events other steps have raised and the controller has not yet seen, oldest first; DESIGN CHOICE empty (entry 8) -/
  offered : List Event := []
  /-- R438; false; writing paused for a debug reader -/
  paused : Bool := false
  /-- R420; 0; generation of the state array -/
  stateGen : Nat := 0
  deriving DecidableEq, Repr

/-- A breakpoint: R248. -/
structure Break where
  /-- R248 -/
  kind : Nat
  /-- R248 -/
  core : Nat
  /-- R248 -/
  sel : Nat
  /-- R248 -/
  oneShot : Bool
  /-- 64 bits; R248 -/
  value : Nat
  deriving DecidableEq, Repr

/-- Debug state of a DEBUG load: R247, R248, R366. -/
structure Debug where
  /-- handle; R366 -/
  handle : Nat
  /-- task, 0 for every later task; R366 -/
  task : Nat
  /-- at most 8; R248; none -/
  breaks : List Break := []
  /-- R247; LOG at load; STOP -/
  stop : Bool := false
  deriving DecidableEq, Repr

/-- An enrolled certificate: R230, R348. -/
structure Cert where
  /-- 384 bits; SHA-384 of the certificate -/
  hash : BitVec 384
  /-- 384 bits; SHA-384 of its SubjectPublicKeyInfo (key_id of R230) -/
  keyId : BitVec 384
  /-- role mask: R348 -/
  roles : Nat
  deriving DecidableEq, Repr

/-- A slot of the boot flash: R396. -/
structure Flash where
  /-- the signature verifies: R396 -/
  sigOk : Bool := true
  /-- 16 bits; R396 -/
  svn : Nat := 0
  /-- 384 bits; R394; image hash -/
  hash : BitVec 384 := 0
  /-- R396, R424; false; its package asked for min_svn to be raised -/
  raise : Bool := false
  deriving DecidableEq, Repr

/-- A region's estimate of GT: R255. Fractions are kept in 2^-32 (DESIGN CHOICE: entry 50). -/
structure Region where
  /-- R255; 0; the estimate, in 2^-32 GT unit -/
  est : Nat := 0
  /-- R255; 0; what a cycle of the region's clock adds, in 2^-32 GT unit -/
  inc : Nat := 0
  /-- R255; 0; progress of the cycle in progress, in 1/160 of a cycle -/
  phase : Nat := 0
  deriving DecidableEq, Repr

/-- What a beacon pair changes in a module's time, as it was before the pair, with the pair's port: R258, R259, R281. -/
structure Pairing where
  /-- the port of the pair -/
  port : Nat
  /-- `Clock.offset` -/
  offset : Int
  /-- `Clock.srcPort` -/
  srcPort : Nat
  /-- `Clock.twoHop` -/
  twoHop : Bool
  /-- `Clock.beyond` -/
  beyond : Nat
  /-- `Clock.within` -/
  within : Nat
  /-- `Clock.locked` -/
  locked : Bool
  /-- `Clock.unlockedEpochs` -/
  unlockedEpochs : Nat
  /-- `Clock.rate` -/
  rate : Int
  /-- `Clock.slews` -/
  slews : Nat
  deriving DecidableEq, Repr

/-- Global time: R253 to R259. -/
structure Clock where
  /-- R254; 0; units of the 100 MHz cycle in progress, of 20, while T is off -/
  sub : Nat := 0
  /-- R255; empty: T is off; the regions P0 to P7, F, M0 to M3, L0 to L5, E, C, S and K -/
  regions : List Region := []
  /-- R259; empty; ports whose time source was left since the configuration formed -/
  passed : List Nat := []
  /-- 64 bits; R253, R254; 0; GT, and the A copy while T is off -/
  gt : Nat := 0
  /-- 32 bits; R256; A copy, 0; GT_HI as latched by the last read of GT_LO -/
  gtHi : Nat := 0
  /-- 48 bits; R256; A copy, 0; EPOCH.epoch -/
  epoch : Nat := 0
  /-- 1 bit; R256; 0; EPOCH.locked -/
  locked : Bool := false
  /-- 1 bit; R256; 0; EPOCH.holdover -/
  holdover : Bool := false
  /-- 16 bits signed; R256; 0; TIME_STAT.offset in 1/8 unit -/
  offset : Int := 0
  /-- 6 bits; R256; 63; src_port -/
  srcPort : Nat := 63
  /-- 1 bit; R256; 0; is_lead -/
  isLead : Bool := false
  /-- 1 bit; R256; 0; two_hop -/
  twoHop : Bool := false
  /-- 8 bits; R256; 0; unlocked_epochs -/
  unlockedEpochs : Nat := 0
  /-- 16 bits; R256; 0; slews -/
  slews : Nat := 0
  /-- 16 bits signed; R256; 0; rate in 0.01 ppm -/
  rate : Int := 0
  /-- R259; 0; consecutive epochs without a valid beacon -/
  missed : Nat := 0
  /-- R259; 0; consecutive beacons beyond twice the bound -/
  beyond : Nat := 0
  /-- R259; 0; consecutive beacons within the bound while unlocked -/
  within : Nat := 0
  /-- R258; false; a valid beacon has come in this epoch -/
  beaconSeen : Bool := false
  /-- R281; none; what the pair of this epoch has changed: a substitution on its port makes it invalid -/
  before : Option Pairing := none
  deriving DecidableEq, Repr

/-- Calibration sums: R283, R284. -/
structure Calib where
  /-- 12 bits; R283; 1000; CAL_CTL.wr_interval -/
  wrInterval : Nat := 1000
  /-- 32 bits; R283; 0; checks -/
  checks : Nat := 0
  /-- 16 bits; R283; 0; budget_defers -/
  defers : Nat := 0
  /-- 16 bits; R283; 0; fails -/
  fails : Nat := 0
  /-- 4 x 24 bits; R284; 0; recentres -/
  recentres : List (Nat × Nat) := []
  /-- 4 x 24 bits; R284; 0; windows -/
  windows : List (Nat × Nat) := []
  /-- 4 x 8 bits; R284; 0; train_fails -/
  trainFails : List (Nat × Nat) := []
  /-- 4 x 8 bits; R284; 0; peak_occ -/
  peakOcc : List (Nat × Nat) := []
  /-- R274, R399; 0; GT at which every channel was trained at boot -/
  base : Nat := 0
  /-- R277; 0; exits of the stacks from self-refresh -/
  exits : Nat := 0
  /-- R286; 0; multiple of 2^37 whose summary is done -/
  summed : Nat := 0
  deriving DecidableEq, Repr

/-- The configuration: R334 to R344. -/
structure Conf where
  /-- 5 bits; R344; MOD_SLOT[4:0], DESIGN CHOICE 0 before the strap is latched (entry 1) -/
  module : Nat := 0
  /-- 1 bit; R344; MOD_SLOT[5], DESIGN CHOICE 0 before the strap is latched (entry 1) -/
  side : Bool := false
  /-- 6 bits; R344; 0; n, 0 when unformed -/
  n : Nat := 0
  /-- 5 bits; R344; 0; degree -/
  degree : Nat := 0
  /-- 1 bit; R344; 0; formed -/
  formed : Bool := false
  /-- 8 bits; R344; 0; peers reached only through a relay -/
  relayed : List Nat := []
  /-- 32 bits; R344; 0; formations -/
  formations : Nat := 0
  /-- R257; 0; number of the lead module -/
  lead : Nat := 0
  /-- R380; empty; modules that are lost -/
  lost : List Nat := []
  /-- R338; empty; pairs of modules that have told that the first has no working port left to the second -/
  farDown : List (Nat × Nat) := []
  /-- R384; false; the twin is lost -/
  twinLost : Bool := false
  /-- R334; false; a twin took part in the formation -/
  twin : Bool := false
  /-- R381; empty; GT and side of MIRROR mismatches -/
  mismatches : List (Nat × Bool) := []
  /-- R381; false; MODULE_SUSPECT recorded for this module -/
  suspect : Bool := false
  deriving DecidableEq, Repr

/-- Power states of the module: R308. -/
inductive MState where
  | serve | idle | standby | auxOnly
  deriving DecidableEq, Repr

/-- Module power: R303 to R310. -/
structure Power where
  /-- 16 bits; R305, R306; 48,000; POWER_CAP.cap_pips -/
  cap : Nat := 48000
  /-- R305; none; accepted cap that takes effect at the next epoch mark -/
  capNext : Option Nat := none
  /-- 16 bits; R306; 0; in_pips -/
  inPips : Nat := 0
  /-- 16 bits; R306; 0; peak_pips -/
  peakPips : Nat := 0
  /-- 16 bits; R306; 0; cap_events -/
  capEvents : Nat := 0
  /-- 8 bits signed; R306; 0; hub_max -/
  hubMax : Int := 0
  /-- 8 bits signed; R306; 0; hbm_max -/
  hbmMax : Int := 0
  /-- 8 bits signed; R306; 0; optics_max -/
  opticsMax : Int := 0
  /-- 16 bits; R306; 0; throttle_epochs -/
  throttles : Nat := 0
  /-- 3 bits; R310; 3; MOD_STATE.state -/
  state : MState := .auxOnly
  /-- 3 bits; R310; 3; MOD_STATE.target -/
  target : MState := .auxOnly
  /-- 8 bits; R310; 0; last_cause -/
  lastCause : Nat := 0
  /-- 16 bits; R310; 10; idle_ms -/
  idleMs : Nat := 10
  /-- 32 bits; R310; 0; transitions -/
  transitions : Nat := 0
  /-- R309; false; a STANDBY request waits for the work to end -/
  standbyAsked : Bool := false
  /-- R308; 0; GT since which no task runs or is queued -/
  idleSince : Nat := 0
  /-- R306; false; a fit has been formed since the last reset: fit_total reads 0 before -/
  fitFormed : Bool := false
  /-- R303; false; a thermal trip waits for PWR_EN to be cycled -/
  tripped : Bool := false
  deriving DecidableEq, Repr

/-- Rails, boot and identity: R390 to R401, R427 to R433. -/
structure Boot where
  /-- R428; false; 12 V auxiliary present -/
  aux : Bool := false
  /-- R428; false; 48 V within its limits -/
  main : Bool := false
  /-- R431; false; PWR_EN asserted -/
  pwrEn : Bool := false
  /-- R432; 0; internal 48 V-derived rails up, in the order of the table (0 to 8) -/
  rails : Nat := 0
  /-- 4 bits; R401; 0; BOOT_STAT.step -/
  step : Nat := 0
  /-- 4 bits; R401; 0; fail_step -/
  failStep : Nat := 0
  /-- 1 bit; R401; 0; slot booted is B -/
  slotB : Bool := false
  /-- 1 bit; R401; 0; fallback -/
  fallback : Bool := false
  /-- 16 bits; R401; 0; svn -/
  svn : Nat := 0
  /-- 16 bits; R401; 0; boot_ms -/
  bootMs : Nat := 0
  /-- 16 bits; R401; 0; boots -/
  boots : Nat := 0
  /-- 32 MiB as its signature, SVN and hash; R396; DESIGN CHOICE valid, SVN 0 (entry 1); slot A -/
  slotAImg : Flash := {}
  /-- 32 MiB as its signature, SVN and hash; R396; DESIGN CHOICE valid, SVN 0 (entry 1); slot B -/
  slotBImg : Flash := {}
  /-- R396; false; slot B is marked active -/
  activeB : Bool := false
  /-- 16 bits; R396; DESIGN CHOICE 0 (entry 1); min_svn fuses -/
  minSvn : Nat := 0
  /-- R424; false; an update is in progress -/
  updating : Bool := false
  /-- R399; false; the identity key did not reconstruct -/
  noIdentity : Bool := false
  /-- R397, R436; none; service ports whose link is up -/
  ethUp : List (Nat × Bool) := []
  /-- R273; none; the bit string of the calibration row written at boot, by the index of its free values (entry 34) -/
  calRow : Option Nat := none
  /-- R437; false; SGMII link up -/
  sgmiiUp : Bool := false
  deriving DecidableEq, Repr

/-- The management path and the debug pins: R420 to R426, R438. -/
structure Mgmt where
  /-- 8 bits; R421; 0; MCTP endpoint ID, 0 until assigned -/
  eid : Nat := 0
  /-- R421; false; runs as an I3C target -/
  i3c : Bool := false
  /-- at most 8; R230; empty; pattern-signing keys -/
  keys : List Cert := []
  /-- at most 32; R348; empty; client CAs with their role masks -/
  cas : List Cert := []
  /-- 16 bits; R345; 19780; service UDP port -/
  udpPort : Nat := 19780
  /-- 16 bits; R425; 19781; management UDP port -/
  mgmtPort : Nat := 19781
  /-- 128 bits; R423; DESIGN CHOICE 0 (entry 1); IPv6 address of the management port -/
  ipv6 : BitVec 128 := 0
  /-- 128 bits; R405, R420; DESIGN CHOICE 0 (entry 1); last recorded cartridge mirror_id -/
  mirrorId : Nat := 0
  /-- R422; false; ALERT# asserted for a state sensor that changed -/
  alert : Bool := false
  /-- R422; 3, 0, 0, 0; the state sensors as last reported: MOD_STATE.state, degraded, bay B0, bay B1 -/
  sensed : List Nat := [3, 0, 0, 0]
  /-- MODEL: responses sent on the management path, newest last; DESIGN CHOICE empty (entry 7) -/
  out : List (List (BitVec 8)) := []
  /-- R400, R423; empty; requests queued until the CP runs and a task boundary comes -/
  waiting : List Instr := []
  /-- R438; false; DBG_REQ# asserted -/
  dbgReq : Bool := false
  /-- R438; false; DBG_RDY -/
  dbgRdy : Bool := false
  /-- R438; false; DBG_REQ# held past 1 ms is ignored -/
  dbgIgnored : Bool := false
  /-- R438; false; DBG_VREF powered and the MRAM connected to the header -/
  vref : Bool := false
  deriving DecidableEq, Repr

/-- The whole module. -/
structure State where
  /-- MODEL: commands waiting, first in first out; empty -/
  pending : List Instr := []
  /-- 256 logical cores; R11, R12; as their fields say -/
  cores : List (Nat × Core) := []
  /-- 288 physical cores; R11; as their fields say -/
  phys : List (Nat × Phys) := []
  /-- 256 x 9 bits; R43, R385; 36 panel + position; physical core of each logical core that has been moved -/
  map : List (Nat × Nat) := []
  /-- 846 entries; R385; from the remap table; UNIT_STATE_u -/
  units : List (Nat × UnitE) := []
  /-- 768 GiB; R11, R447; DESIGN CHOICE 0 (entry 3); HBM by address -/
  hbm : List (Nat × BitVec 8) := []
  /-- R193; empty; transactions in flight -/
  flight : List Txn := []
  /-- MODEL: next number of a transaction, operation or release; DESIGN CHOICE 1 (entry 7) -/
  nextId : Nat := 1
  /-- MODEL: number of the next free value; DESIGN CHOICE 0 (entry 2) -/
  nextFree : Nat := 0
  /-- at most 16; R234, R243; empty; resident patterns -/
  patterns : List Pattern := []
  /-- 1 running and 4 waiting; R234; empty; the loader's queue -/
  loads : List Load := []
  /-- 64 bits; R363; 1; next handle -/
  nextHandle : Nat := 1
  /-- R359; empty; tasks -/
  tasks : List Task := []
  /-- 32 bits; R359; 1; next task number, in the A domain -/
  nextTask : Nat := 1
  /-- 16,384 contexts; R347; empty; session table -/
  sessions : List (Nat × Session) := []
  /-- MODEL: packets the device has sent to clients, newest last; DESIGN CHOICE empty (entry 7) -/
  out : List Packet := []
  /-- MODEL: DTLS alerts the device has sent, by address, newest last; DESIGN CHOICE empty (entry 7) -/
  alerts : List (Nat × Alert) := []
  /-- R365; empty; objects that peers' loaders have sent for a load, as far as their bytes have come -/
  peerObjects : List (BitVec 384 × List (BitVec 8)) := []
  /-- MODEL: control flits and transactions put on the links, by port, newest last; DESIGN CHOICE empty (entry 7) -/
  linkOut : List (Nat × LinkMsg) := []
  /-- R341; empty; firmware messages held per peer -/
  fwStore : List (Nat × List (BitVec 8)) := []
  /-- R253 to R259; as its fields say; time -/
  clock : Clock := {}
  /-- 8 panels; R260; as its fields say -/
  panels : List (Nat × Panel) := []
  /-- 512 channels; R272; as its fields say -/
  channels : List (Nat × Channel) := []
  /-- R283; as its fields say; calibration sums -/
  cal : Calib := {}
  /-- 36 ports; R327; as its fields say -/
  ports : List (Nat × Port) := []
  /-- R334; as its fields say; configuration -/
  config : Conf := {}
  /-- R303 to R310; as its fields say -/
  power : Power := {}
  /-- R390 to R433; as its fields say -/
  boot : Boot := {}
  /-- 2 bays; R403; as its fields say -/
  bays : List (Nat × Bay) := []
  /-- R410 to R420; as its fields say -/
  book : Scorebook := {}
  /-- R420 to R426; as its fields say -/
  mgmt : Mgmt := {}
  /-- R246 to R250; empty; debug state of the DEBUG loads -/
  debug : List Debug := []
  /-- 256 entries of 32 bytes; R247; empty; referee log, oldest first -/
  referee : List (List (BitVec 8)) := []
  deriving DecidableEq, Repr

/-- The machine after reset: every field at the value its docstring names. -/
def State.reset : State := {}

end Sys2Proof.Machine
end

