-- ==== Sys2Proof/Machine/Ops.lean ====
section
/-!
DEFINITION. The named operations over the state: units by number, registers of a core in their two views, the
pipeline of writes not yet visible, buffers, events, and the end of a task by PROGRAM_FAULT (R167).
-/

namespace Sys2Proof.Machine

/-- What a meaning answers. -/
abbrev Out := Host.Outcome State Fault Refusal

/-- Keep the queue as it was: a command never changes what is waiting behind it. -/
def done (s t : State) : Out := .next { t with pending := s.pending }

/-! ### Units by number -/

/-- A logical core: R12. -/
def State.core (s : State) (n : Nat) : Core := mget {} s.cores n
/-- Replace a logical core. -/
def State.setCore (s : State) (n : Nat) (c : Core) : State := { s with cores := mset s.cores n c }
/-- Change a logical core. -/
def State.modCore (s : State) (n : Nat) (f : Core → Core) : State := s.setCore n (f (s.core n))

/-- The physical core a logical core is mapped to: the ring position of its number until the firmware moves it
(R12, R43). -/
def State.physOf (s : State) (n : Nat) : Nat := mget (36 * (n / 32) + n % 32) s.map n
/-- A physical core: R11. -/
def State.ph (s : State) (p : Nat) : Phys := mget {} s.phys p
/-- Replace a physical core. -/
def State.setPh (s : State) (p : Nat) (x : Phys) : State := { s with phys := mset s.phys p x }
/-- Change a physical core. -/
def State.modPh (s : State) (p : Nat) (f : Phys → Phys) : State := s.setPh p (f (s.ph p))
/-- The physical core behind a logical core's window: R140. -/
def State.pcore (s : State) (n : Nat) : Phys := s.ph (s.physOf n)
/-- Change the physical core behind a logical core's window. -/
def State.modP (s : State) (n : Nat) (f : Phys → Phys) : State := s.modPh (s.physOf n) f

/-- A panel: R260. -/
def State.panel (s : State) (p : Nat) : Panel := mget {} s.panels p
/-- Change a panel. -/
def State.modPanel (s : State) (p : Nat) (f : Panel → Panel) : State :=
  { s with panels := mset s.panels p (f (s.panel p)) }
/-- A port: R327. -/
def State.port (s : State) (p : Nat) : Port := mget {} s.ports p
/-- Change a port. -/
def State.modPort (s : State) (p : Nat) (f : Port → Port) : State :=
  { s with ports := mset s.ports p (f (s.port p)) }
/-- An HBM channel: R272. -/
def State.channel (s : State) (c : Nat) : Channel := mget {} s.channels c
/-- Change a channel. -/
def State.modChannel (s : State) (c : Nat) (f : Channel → Channel) : State :=
  { s with channels := mset s.channels c (f (s.channel c)) }
/-- A bay: R403. -/
def State.bay (s : State) (b : Nat) : Bay := mget {} s.bays b
/-- Change a bay. -/
def State.modBay (s : State) (b : Nat) (f : Bay → Bay) : State := { s with bays := mset s.bays b (f (s.bay b)) }

/-- The entry of a unit before any change: a core at ring position 32 to 35 is SPARE: R385. -/
def unitDefault (u : Nat) : UnitE := if u < 288 ∧ 32 ≤ u % 36 then { state := .spare } else {}
/-- An entry of the unit state table: R385. -/
def State.unit (s : State) (u : Nat) : UnitE := mget (unitDefault u) s.units u
/-- Change an entry of the unit state table. -/
def State.modUnit (s : State) (u : Nat) (f : UnitE → UnitE) : State :=
  { s with units := mset s.units u (f (s.unit u)) }

/-- Whether a unit in this state takes new work: R387. -/
def UState.serves : UState → Bool
  | .inService | .spare | .suspect => true
  | .draining | .disabled | .retired => false

/-- A task by its number: R359. -/
def State.task (s : State) (n : Nat) : Option Task := s.tasks.find? (fun t => t.num == n)
/-- Change a task. -/
def State.modTask (s : State) (n : Nat) (f : Task → Task) : State :=
  { s with tasks := s.tasks.map (fun t => if t.num = n then f t else t) }
/-- A resident pattern by its handle: R234. -/
def State.pattern (s : State) (h : Nat) : Option Pattern := s.patterns.find? (fun p => p.handle == h)
/-- Change a resident pattern. -/
def State.modPattern (s : State) (h : Nat) (f : Pattern → Pattern) : State :=
  { s with patterns := s.patterns.map (fun p => if p.handle = h then f p else p) }
/-- A session context: R347. -/
def State.session (s : State) (c : Nat) : Option Session := mfind s.sessions c
/-- Change a session context, where there is one. -/
def State.modSession (s : State) (c : Nat) (f : Session → Session) : State :=
  match s.session c with
  | some x => { s with sessions := mset s.sessions c (f x) }
  | none => s

/-- Change the clock. -/
def State.modClock (s : State) (f : Clock → Clock) : State := { s with clock := f s.clock }
/-- Change the calibration sums. -/
def State.modCal (s : State) (f : Calib → Calib) : State := { s with cal := f s.cal }
/-- Change the module's power state. -/
def State.modPower (s : State) (f : Power → Power) : State := { s with power := f s.power }
/-- Change rails, boot and identity. -/
def State.modBoot (s : State) (f : Boot → Boot) : State := { s with boot := f s.boot }
/-- Change the configuration. -/
def State.modConf (s : State) (f : Conf → Conf) : State := { s with config := f s.config }
/-- Change the management path. -/
def State.modMgmt (s : State) (f : Mgmt → Mgmt) : State := { s with mgmt := f s.mgmt }
/-- Change the scorebook. -/
def State.modBook (s : State) (f : Scorebook → Scorebook) : State := { s with book := f s.book }

/-! ### Events and numbers -/

/-- Offer an event to the scorebook controller: R411, R413, R416 (accepted or dropped by RECORD_WRITE: entry 8). -/
def State.emit (s : State) (code source : Nat) (data : List Byte) : State :=
  s.modBook (fun b => { b with offered := b.offered ++ [{ code := code, source := source, data := data }] })

/-- Event source of the CP firmware: R411. -/
def srcCP : Nat := 0x0800
/-- Event source of the loader and the Genqualer: R411. -/
def srcLoader : Nat := 0x0801
/-- Event source of the tension controller: R411. -/
def srcTension : Nat := 0x0802
/-- Event source of the common power block: R411. -/
def srcCPB : Nat := 0x0803
/-- Event source of the common security block: R411. -/
def srcCSB : Nat := 0x0804
/-- Event source of the common management block: R411. -/
def srcCMB : Nat := 0x0805
/-- Event source of the scorebook controller: R411. -/
def srcBook : Nat := 0x0806
/-- Event source of the packet engine: R411. -/
def srcPacket : Nat := 0x0807

/-- A fresh number for a transaction, an operation or a release (entry 7). -/
def State.fresh (s : State) : Nat × State := (s.nextId, { s with nextId := s.nextId + 1 })

/-- A fresh index for a free value: entry 2. -/
def State.freeIndex (s : State) : Nat × State := (s.nextFree, { s with nextFree := s.nextFree + 1 })

/-! ### Registers of a core -/

/-- A scalar register in the issue view: R25, R27 (undefined since cast-on: entry 2). -/
def Core.readS (c : Core) (r : BitVec 5) : BitVec 64 :=
  if r = 0 then 0
  else match mfind c.s r.toNat with
    | some v => v
    | none => match c.tok with
      | some t => Config.freeScalar t r.toNat
      | none => 0

/-- A scalar register as a check operand: R29, R30. -/
def Core.readChk (c : Core) (r : BitVec 5) : BitVec 64 :=
  if r = 0 then 0
  else match mfind c.sChk r.toNat with
    | some v => v
    | none => match c.tok with
      | some t => Config.freeScalar t r.toNat
      | none => 0

/-- A check operand as a number. -/
def Core.chk (c : Core) (r : BitVec 5) : Nat := (c.readChk r).toNat

/-- A vector register: R25. -/
def Core.readV (c : Core) (r : BitVec 5) : BitVec 2048 :=
  match mfind c.v r.toNat with
  | some v => v
  | none => match c.tok with
    | some t => Config.freeVector t r.toNat
    | none => 0

/-- A mask register: R25. -/
def Core.readM (c : Core) (r : BitVec 3) : BitVec 256 :=
  match mfind c.m r.toNat with
  | some v => v
  | none => match c.tok with
    | some t => Config.freeMask t r.toNat
    | none => 0

/-- VL, undefined since cast-on: entry 2. -/
def Core.freeVl (c : Core) : Nat :=
  match c.tok with
  | some t => Config.freeVl t % 257
  | none => 0

/-- VL as a check operand, as every V-slot row reads it: R109. -/
def Core.readVl (c : Core) : Nat :=
  match c.vlChk with
  | some n => n
  | none => c.freeVl

/-- The cycle now open at a core, which its pipelines count by: rows issued, and the cycles that pass past its `task.end` (R27, R53,
R190). -/
def State.cycle (s : State) (n : Nat) : Nat := (s.pcore n).rowCount + (s.core n).drained

/-- Add writes that a row issued and that no row sees yet: R27. -/
def State.pend (s : State) (n : Nat) (ps : List Pend) : State :=
  s.modCore n (fun c => { c with pipe := c.pipe ++ ps })

/-- A scalar result of latency `lat`: seen by rows issued `lat` cycles later, and by check operands 4 later (R27,
R30); a write to s0 is discarded (R25). -/
def State.writeS (s : State) (n : Nat) (r : BitVec 5) (lat : Nat) (v : BitVec 64) : State :=
  if r = 0 then s
  else
    let t := s.cycle n
    s.pend n [⟨t + lat, .sreg r v⟩, ⟨t + lat + 4, .sview r v⟩]

/-- A vector result of latency `lat` into the bits that `m` selects: R27, R110. -/
def State.writeV (s : State) (n : Nat) (r : BitVec 5) (lat : Nat) (m v : BitVec 2048) : State :=
  s.pend n [⟨s.cycle n + lat, .vreg r m v⟩]

/-- A mask result of latency `lat` into the bits that `m` selects: R27, R110. -/
def State.writeM (s : State) (n : Nat) (r : BitVec 3) (lat : Nat) (m v : BitVec 256) : State :=
  s.pend n [⟨s.cycle n + lat, .mreg r m v⟩]

/-- A VL result of latency `lat`: seen by V-slot rows 4 cycles later still (R109). -/
def State.writeVl (s : State) (n : Nat) (lat v : Nat) : State :=
  s.pend n [⟨s.cycle n + lat, .vl v⟩, ⟨s.cycle n + lat + 4, .vlview v⟩]

/-- Bytes that become visible in a core's own buffers `lat` cycles from now: R27. -/
def State.store (s : State) (n off lat : Nat) (bs : List Byte) : State :=
  s.pend n [⟨s.cycle n + lat, .bytes n off bs⟩]

/-! ### Buffers -/

/-- First offset of AB: R140. -/
def abBase : Nat := 0x600000
/-- First offset of PB: R140. -/
def pbBase : Nat := 0xA00000
/-- First offset beyond PB: R140. -/
def bufEnd : Nat := 0xC00000

/-- Whether `n` bytes at an offset lie in [lo, hi). -/
def within (lo hi off n : Nat) : Bool := decide (lo ≤ off ∧ off + n ≤ hi)
/-- Whether `n` bytes lie wholly in WB: R140. -/
def inWB (off n : Nat) : Bool := within 0 abBase off n
/-- Whether `n` bytes lie wholly in AB: R140. -/
def inAB (off n : Nat) : Bool := within abBase pbBase off n
/-- Whether `n` bytes lie wholly in PB: R140. -/
def inPB (off n : Nat) : Bool := within pbBase bufEnd off n
/-- Whether `n` bytes lie wholly in one of WB, AB, PB: R140. -/
def inBuf (off n : Nat) : Bool := inWB off n || inAB off n || inPB off n

/-- Bytes of a core's own buffers, as of the issue cycle now open. -/
def State.bufRead (s : State) (n off len : Nat) : List Byte := Memory.readN (s.pcore n).mem off len

/-- The number of a buffer: R139. -/
def bufferCode : Buffer → Nat
  | .wb => 0
  | .ab => 1
  | .pb => 2
  | .acc => 3
  | .imem => 4

/-- The largest value of a buffer's corrected count: R139. -/
def corrMax : Buffer → Nat
  | .wb | .ab | .pb => 2 ^ 12 - 1
  | .acc | .imem => 2 ^ 8 - 1

/-- A corrected read is counted: R135, R139. -/
def Phys.corrected (p : Phys) (b : Buffer) : Phys := { p with corr := mcount (corrMax b) p.corr (bufferCode b) 1 }

/-- The window bytes of the elements that a bank word of a checkerboard region holds, one skewed diagonal of a block: R131. -/
def CbRegion.wordBytes (r : CbRegion) (line bank : Nat) : List (Nat × Nat) :=
  let wb := 2 ^ r.width
  let l := line - (r.base - abBase) / 1024
  (List.range (64 / wb)).map (fun k =>
    let i := l % (2 * wb) * (64 / wb) + k
    let j := (bank + 128 - i) % 128
    (r.base + l / (2 * wb) * (2048 * wb) + 16 * wb * i + j * wb / 8, max 1 (wb / 8)))

/-- First window offset of the tag words of ACC: R63. -/
def tagBase : Nat := 0xC80000

/-- The window bytes of a protected word: R63, R124, R131. -/
def Phys.wordSpans (p : Phys) (w : EccWord) : List (Nat × Nat) :=
  match w.buffer with
  | .wb => [(0x200000 * (w.bank / 16) + 512 * w.line + 32 * (w.bank % 16) + 8 * (w.part % 4), 8)]
  | .ab =>
    let a := abBase + 1024 * w.line
    match p.cbView.find? (fun r => r.enable && decide (r.base ≤ a ∧ a < r.fin)) with
    | some r => r.wordBytes w.line w.bank
    | none => [(a + 8 * w.bank, 8)]
  | .pb => [(pbBase + 4096 * w.line + 8 * w.bank, 8)]
  | .acc => [if w.accTag then (tagBase + 4 * w.line, 4) else (bufEnd + 2048 * w.line + 4 * w.bank, 4)]
  | .imem => []

/-- An access to `n` bytes from `off` meets a word: a read finds its error, and a write replaces the code word, wholly or merged with what
the corrector reads of it (R135). -/
def Phys.wordMet (p : Phys) (w : EccWord) (off n : Nat) : Bool :=
  (p.wordSpans w).any (fun x => decide (x.1 < off + n ∧ off < x.1 + x.2))

/-- A word holds a stored error: R135. -/
def Phys.weaken (p : Phys) (w : EccWord) : Phys := { p with weak := if p.weak.contains w then p.weak else p.weak ++ [w] }

/-- Reads on any port of a core's window meet the words that hold a stored error, and each read of one counts as corrected: R135, R139. -/
def State.readWeak (s : State) (n : Nat) (spans : List (Nat × Nat)) : State :=
  let p := s.pcore n
  let met := spans.flatMap (fun x => p.weak.filter (fun w => p.wordMet w x.1 x.2))
  if met.isEmpty then s else s.modP n (fun p => met.foldl (fun p w => p.corrected w.buffer) p)

/-- Single-bit errors have appeared in words of the gang's memories: R135. -/
def State.appear (s : State) (ports : List PortFact) : State :=
  ports.foldl (fun s x => x.found.foldl (fun s w => s.modP x.core.toNat (fun p => p.weaken w)) s) s

/-- Write bytes of a core's buffers now; a stored error in a word rewritten is gone (R135). -/
def State.bufWrite (s : State) (n off : Nat) (bs : List Byte) : State :=
  s.modP n (fun p => { p with mem := Memory.writeN p.mem off bs, weak := p.weak.filter (fun w => !p.wordMet w off bs.length) })

/-- The bytes a check-stage read finds: those that stores of the last four issue cycles changed still read as
before (R144). -/
def State.chkRead (s : State) (n off len : Nat) : List Byte :=
  (List.range len).map (fun i =>
    match (s.core n).chkOld.find? (fun e => e.2.1 ≤ off + i && off + i < e.2.1 + e.2.2.length) with
    | some e => e.2.2.getD (off + i - e.2.1) 0
    | none => Memory.read (s.pcore n).mem (off + i))

/-- The parity of a FIFO word, held alongside it: R210. Which of the two parities it is, the spec leaves open (entry 49). -/
def wordParity (w : BitVec 64) : Bool := (List.range 64).foldl (fun p i => p != w.getLsbD i) false

/-! ### The end of a task by a fault of the program -/

/-- Whether a transaction was issued by one of these cores. -/
def Origin.byCores (cs : List Nat) : Origin → Bool
  | .dma c _ _ | .short c _ | .cable c | .cableLoad c _ | .strand c _ _ | .release c _ => cs.contains c
  | .outside | .firmware => false

/-- The logical cores that carry a task. -/
def State.coresOf (s : State) (t : Nat) : List Nat :=
  (s.cores.filter (fun c => c.2.task == some t)).map (fun c => c.1)

/-- The core that issued a transaction. -/
def Origin.core? : Origin → Option Nat
  | .dma c _ _ | .short c _ | .cable c | .cableLoad c _ | .strand c _ _ | .release c _ => some c
  | .outside | .firmware => none

/-- An operation of a core's task enters flight: the quiet cycles of every core of the task count from 0 again (R193). -/
def State.stir (s : State) (n : Nat) : State :=
  match (s.core n).task with
  | none => s
  | some t => { s with cores := s.cores.map (fun c => if c.2.task = some t then (c.1, { c.2 with quiet := 0 }) else c) }

/-- The engine has nothing left to read: R62. -/
def Matrix.close (x : Matrix) : Matrix := { x with base := none, script := [], seen := [] }

/-- Stop issue on a core and discard its queued work: R167, R194. -/
def Core.stop (c : Core) : Core :=
  { c with phase := .stopped, quiet := 0, skid := [], fetchEnd := false, held := none, late := [], turn := none, queues := [],
           short := [], cable := none, combine := [], rels := [], reqs := [], loops := [], pipe := [], next := none, stepLeft := none,
           mx := { c.mx.close with work := [] },
           sends := c.sends.map (fun e => (e.1, { e.2 with queue := [] })) }

/-- Stop cores, discard what they have queued and what they have in flight: R167, R194. Writes performed stay. -/
def State.stopCores (s : State) (cs : List Nat) : State :=
  { s with
    cores := s.cores.map (fun c =>
      if cs.contains c.1 then (c.1, c.2.stop)
      else (c.1, { c.2 with reqs := c.2.reqs.filter (fun r => !cs.contains r.core) }))
    flight := s.flight.filter (fun x => !x.origin.byCores cs) }

/-- The tasks that run together with a task: its batch, or itself (R369). -/
def State.batchOf (s : State) (t : Nat) : List Nat :=
  match s.task t with
  | some k => if k.batch.isEmpty then [t] else k.batch
  | none => [t]

/-- The module's time is locked: a cast-on that waited for it waits no longer, and one that waits again waits anew (R259). -/
def State.relocked (s : State) : State :=
  { s with tasks := s.tasks.map (fun t => if t.waitsUnlocked.isSome then { t with waitsUnlocked := none } else t) }

/-- Cores no longer carry a task: from now on they are free for the next (R369). -/
def State.freeCores (s : State) (cs : List Nat) : State :=
  { s with cores := s.cores.map (fun c =>
      if cs.contains c.1 ∧ c.2.task.isSome then (c.1, { c.2 with task := none, freed := s.clock.gt }) else c) }

/-- Whether a task is running or being replayed. -/
def Task.live (t : Task) : Bool := t.state == .running || t.state == .replaying

/-- The live tasks that run together with a task, in the order of their slots (R369). -/
def State.liveOf (s : State) (t : Nat) : List Nat := (s.batchOf t).filter (fun m => (s.task m).any Task.live)

/-- Whether a terminal status releases the retained copy at once: STALEMATE, PROGRAM_FAULT, CANCELLED: R323. -/
def releasesAtOnce (status : Nat) : Bool := status == 0x30 || status == 0x31 || status == 0x32

/-- Whether the retained copy of a task still takes space in the pool; a cancelled slot of a running batch has none (R323, R362). -/
def Task.retained (k : Task) : Bool := !k.released && !k.cancelled && !(k.state == .complete && releasesAtOnce k.status)

/-- A task is complete with a status and without a result: R167, R194, R323. -/
def Task.finish (k : Task) (status : Nat) : Task :=
  { k with state := .complete, status := status, result := [], waitsUnlocked := none, check := .none,
           input := if releasesAtOnce status then [] else k.input }

/-- Terminal status CANCELLED: R367. -/
def stCancelled : Nat := 0x32

/-- The status with which a task ends: a task ends with exactly one, and a slot that CANCEL has reached with CANCELLED (R362, R367). -/
def Task.endWith (k : Task) (status : Nat) : Task :=
  match k.state with
  | .complete | .delivered => k
  | .queued | .running | .replaying => k.finish (if k.cancelled then stCancelled else status)

/-- End a task, and what runs in one batch with it, with a status; its cores are stopped: R167, R194, R369. -/
def State.endTask (s : State) (t status : Nat) : State :=
  let ts := s.batchOf t
  let cs := ts.flatMap s.coresOf
  ts.foldl (fun s t => s.modTask t (fun k => k.endWith status)) ((s.stopCores cs).freeCores cs)

/-- Terminal status PROGRAM_FAULT: R367. -/
def stProgramFault : Nat := 0x31

/-- An address of the twin side while the twin is lost, in a task that SHARE lets use it: a hardware loss and no fault of the
program (R384). -/
def State.lostTwinAccess (s : State) (n a : Nat) : Bool :=
  a.testBit 63 && a.testBit 62 && s.config.twin && s.config.twinLost &&
    ((s.core n).task.bind s.task).any (fun t => t.share)

/-- Terminal status DEGRADED: R367. -/
def stDegraded : Nat := 0x40

/-- A run-time breach of rule `rule` by a core: the task ends with PROGRAM_FAULT, its queued work is discarded, and
the event is recorded (R167, R416). `detail` is the window offset or address. A core that carries no task only
stops. An access to a lost twin ends the task with DEGRADED instead (R384). -/
def State.programFault (s : State) (n rule detail : Nat) : State :=
  let t := (s.core n).task.getD 0
  if s.lostTwinAccess n detail then s.endTask t stDegraded
  else
    let s := s.emit 0x006F srcCP (leBytes 4 t ++ leBytes 1 n ++ leBytes 2 rule ++ leBytes 8 detail)
    let s := s.stopCores [n]
    s.endTask t stProgramFault

end Sys2Proof.Machine
end

