-- ==== Sys2Proof/Machine/Flags.lean ====
section
/-!
DEFINITION. The status, flag and counter registers: what each reads as, put together from the state (R33, R54, R55,
R79, R80, R87, R125, R126, R130, R139, R153, R155, R158, R166, R180, R198, R204, R205, R208, R216, R293), and the
counts that instructions add to them (R80, R87).
-/

namespace Sys2Proof.Machine

/-- A register word from its fields, each with its lowest bit. -/
def pack (fs : List (Nat × Nat)) : Nat := sumN (fs.map (fun f => f.2 * 2 ^ f.1))

/-- A wrapping field of `w` bits. -/
def wrap (w v : Nat) : Nat := v % 2 ^ w

/-- Saturating 24-bit counts and the like: the largest value of `w` bits. -/
def top (w : Nat) : Nat := 2 ^ w - 1

/-! ### Counting -/

/-- Add to `NUM_STAT`: R87. -/
def State.numStat (s : State) (n sats inv ovf : Nat) : State :=
  s.modCore n (fun c =>
    { c with cvtSats := satAdd (top 24) c.cvtSats sats, invalid := satAdd (top 16) c.invalid inv,
             overflow := satAdd (top 16) c.overflow ovf })

/-- Count the events of the elements' results: R87. -/
def State.countRes (s : State) (n : Nat) (rs : List FRes) : State :=
  s.numStat n 0 (rs.countP (fun r => r.invalid)) (rs.countP (fun r => r.overflow))

/-- Add to `RESCALE_COUNT`: R80. -/
def Matrix.count (x : Matrix) (resc acc pb out : Nat) : Matrix :=
  { x with rescales := satAdd (top 24) x.rescales resc, accSats := satAdd (top 16) x.accSats acc,
           pbRealigns := satAdd (top 12) x.pbRealigns pb, outSats := satAdd (top 12) x.outSats out }

/-! ### Registers of the core window -/

/-- Pips a core has available: R292. -/
def Core.avail (c : Core) : Nat := c.allot - c.lent

/-- `CORE_CFG`: R125. -/
def coreCfg : Nat :=
  pack [(0, 1), (8, 6), (12, 4), (16, 2), (20, 9), (24, 12), (28, 4), (32, 64), (40, 64), (48, 32), (54, 16), (59, 8)]

/-- `CORE_ID`: R126. -/
def State.coreId (s : State) (n : Nat) : Nat :=
  let c := s.core n
  pack [(0, n), (8, n / 32), (11, c.gangPos), (16, b2n c.inGang), (17, c.gangLast), (24, c.idModule), (30, c.idModules)]

/-! ### Rows past the check stage, and held turns -/

/-- The logical cores held and issued together with core `n`, in gang order: R44, R45. -/
def State.gang (s : State) (n : Nat) : List Nat :=
  let c := s.core n
  if c.inGang then (List.range (c.gangLast + 1)).map (fun i => n - c.gangPos + i) else [n]

/-- The members of a gang that a held turn holds: those that issue rows, and those past their `task.end` whose pipelines still run (R41,
R45; DESIGN CHOICE: entry 54). -/
def State.members (s : State) (n : Nat) : List Nat :=
  (s.gang n).filter (fun m => match (s.core m).phase with
    | .idle | .running | .ended => true
    | .ready | .castOff | .stopped => false)

/-- The members of a gang that may issue a row. -/
def State.rowMembers (s : State) (n : Nat) : List Nat :=
  (s.members n).filter (fun m => (s.core m).phase != .ended)

/-- Rows past their check stage and not yet issued, oldest first: R29. -/
def Core.pastCheck (c : Core) : List Checked := c.skid.filterMap id

/-- Queue entries that rows past the check stage will take: R38, R145. -/
def Core.pastQueue (c : Core) (q : Nat) : Nat := (c.pastCheck.flatMap (fun k => k.queues)).count q

/-- Slots of rows past the check stage for which `p` holds. -/
def Core.pastSlots (c : Core) (p : Instr → Bool) : Nat := sumN (c.pastCheck.map (fun k => k.row.countP p))

/-- A short-path operation: R156, R157. -/
def isShort : Instr → Bool
  | .bMove _ | .spPut _ | .spGet _ | .spSig _ | .spWord _ => true
  | _ => false

/-- Messages for an endpoint of rows past the check stage: R38, R201. -/
def Core.pastSends (c : Core) (ep : Nat) : Nat :=
  c.pastSlots (fun i => match i with
    | .strandSend d => field d.f.toNat 19 16 == ep
    | _ => false)

/-- A slot command holds its core: entry 5. -/
def Core.slotHeld (c : Core) : Bool := c.held.any (fun h => !h.fetched)

/-- A late hold in force: R40. -/
def Core.lateNow (c : Core) : Option Late := c.late.find? (fun l => l.after == 0)

/-- The first rescale sequence that has come due, with the row it belongs to: issue stops until it has run (R40, R75). -/
def State.rescaleDue (s : State) (n : Nat) : Option (MWork × Rescale) :=
  (s.core n).mx.work.findSome? (fun w => match w.rescales with
    | r :: _ => if r.due ≤ s.cycle n then some (w, r) else none
    | [] => none)

/-- A row of the core is due in the cycle now open: R29. -/
def Core.rowDue (c : Core) : Bool := match c.skid with
  | some _ :: _ => true
  | _ => false

/-- No member of a core's gang issues a row in the cycle now open: a late hold is in force or due, a slot command waits, or the check
stage has let no row through four cycles before (R39 to R41, R45). -/
def State.stalled (s : State) (n : Nat) : Bool :=
  let ms := s.members n
  ms.any (fun m => (s.core m).slotHeld || (s.core m).lateNow.isSome || (s.rescaleDue m).isSome) ||
    (ms.any (fun m => !(s.core m).skid.isEmpty) && ms.all (fun m => !(s.core m).rowDue))

/-- The condition with the lowest code, and of those the one with the lowest detail: R38, R54 (the detail: DESIGN CHOICE, entry 54). -/
def lowest (hs : List (Nat × Nat)) : Option (Nat × Nat) :=
  hs.foldl (fun a h => match a with
    | some x => if h.1 < x.1 ∨ h.1 = x.1 ∧ h.2 < x.2 then some h else some x
    | none => some h) none

/-- The condition that a core has found for the row its check stage holds: R54. -/
def Core.ownHeld (c : Core) : Option (Nat × Nat) :=
  c.held.bind (fun h => if h.cause = 0xD then none else some (h.cause, h.detail))

/-- The condition that a core has itself found for the row that is due next: R54. -/
def Core.ownHold (c : Core) : Option (Nat × Nat) :=
  match c.pastCheck with
  | k :: _ => k.hold
  | [] => c.ownHeld

/-- Every condition that a core has itself found in the held turn so far: R40, R54. -/
def Core.turnCauses (c : Core) : List (Nat × Nat) :=
  (match c.turn with
   | some t => if t.cause = 0xD then [] else [(t.cause, t.detail)]
   | none => []) ++ c.ownHold.toList ++ c.lateNow.toList.map (fun l => (l.cause, l.detail))

/-- cur_cause with its detail: the lowest code the core has found in the held turn, else GANG; NONE in an issue cycle (R54). -/
def State.curCause (s : State) (n : Nat) : Nat × Nat :=
  if s.stalled n ∧ (s.members n).contains n then (lowest (s.core n).turnCauses).getD (0xD, 0) else (0, 0)

/-- `HOLD_CAUSE`: R54. -/
def State.holdCause (s : State) (n : Nat) : Nat :=
  let c := s.core n
  pack [(0, (s.curCause n).1), (8, c.lastCause), (16, c.lastTag), (24, c.lastMember), (32, c.lastDetail), (40, c.lastLen)]

/-- Whether the row that the check stage holds is a `bank.flip` whose take has not been granted: R55. -/
def Core.flipWaiting (c : Core) : Bool :=
  c.held.any (fun h => !h.granted && h.row.any (fun i => match i with
    | .bankFlip _ => true
    | _ => false))

/-- `IBANK_STAT`: R55. -/
def State.ibankStat (s : State) (n : Nat) : Nat :=
  let c := s.core n
  pack [(0, c.bank), (1, b2n c.flipWaiting), (16, wrap 16 c.flips), (32, (s.pcore n).refused)]

/-- `SB_RANGE_n`: R33. -/
def Range.word (r : Range) : Nat := pack [(0, r.base), (24, r.fin), (48, r.outstanding), (63, b2n r.enable)]

/-- The loops that are active at the row due next: R32. -/
def Core.rowLoops (c : Core) : List Loop :=
  match c.pastCheck with
  | k :: _ => k.loops
  | [] => c.loops

/-- The innermost active loop that uses counter `lc`, as `LC_n`: R32. -/
def Core.lcWord (c : Core) (lc : Nat) : Nat :=
  match c.rowLoops.find? (fun l => l.lc == lc) with
  | some l => pack [(0, l.idx), (32, l.count)]
  | none => 0

/-- `RESCALE_COUNT`: R80. -/
def Matrix.rescaleCount (x : Matrix) : Nat :=
  pack [(0, x.rescales), (24, x.accSats), (40, x.pbRealigns), (52, x.outSats)]

/-- Word `i` of the monitor block: R79. -/
def Monitor.word (m : Monitor) (i : Nat) : Nat :=
  if i = 0 then
    pack [(0, match m.maxExp with
              | some e => wrapN 16 e
              | none => 0x8000), (16, m.maxMant), (32, m.count)]
  else if i = 1 then pack [(0, m.satCount), (32, m.zeroCount)]
  else if i < 10 then pack [(0, mget 0 m.hist (2 * (i - 2))), (32, mget 0 m.hist (2 * (i - 2) + 1))]
  else if i = 10 then wrap 16 m.rescales
  else 0

/-- The 128 bytes of the monitor block: R79. -/
def Monitor.block (m : Monitor) : List Byte := (List.range 16).flatMap (fun i => leBytes 8 (m.word i))

/-- `NUM_STAT`: R87. -/
def Core.numWord (c : Core) : Nat := pack [(0, c.cvtSats), (24, c.invalid), (40, c.overflow)]

/-- `ECC_STAT`: R139. -/
def Phys.eccStat (p : Phys) : Nat :=
  pack [(0, mget 0 p.corr 0), (12, mget 0 p.corr 1), (24, mget 0 p.corr 2), (36, mget 0 p.corr 3),
        (44, mget 0 p.corr 4), (52, p.uncorr)]

/-- `ECC_LAST`: R139. -/
def Phys.eccLastWord (p : Phys) : Nat :=
  pack [(0, p.eccLast.toNat), (32, p.scrubCorr), (48, wrap 8 (sumN (p.spares.map (fun e => e.2))))]

/-- `CB_REGION_n`: R130. -/
def CbRegion.word (r : CbRegion) : Nat := pack [(0, r.base), (24, r.fin), (48, r.width), (63, b2n r.enable)]

/-- Bursts of a queue in flight: R153. -/
def State.qBursts (s : State) (n q : Nat) : Nat :=
  let cable (bit : Nat) : Bool := (s.core n).cable.any (fun k => field k.queues (bit + 1) bit == q)
  s.flight.countP (fun x => x.kind != .tallyAdd && match x.origin with
    | .dma c q' _ => c == n && q' == q
    | .cableLoad c _ => c == n && cable 0
    | .cable c => c == n && cable 2
    | _ => false)

/-- Entries of a DMA queue, with those that a running cable owns: R145, R163. -/
def Core.qLen (c : Core) (q : Nat) : Nat :=
  (mget [] c.queues q : List DEntry).length +
    (match c.cable with
     | some k => b2n (k.stages.testBit 0 && field k.queues 1 0 == q) + b2n (k.stages.testBit 3 && field k.queues 3 2 == q)
     | none => 0)

/-- `DMA_QCOUNT_q`: R153. -/
def State.qCount (s : State) (n q : Nat) : Nat :=
  let c := s.core n
  pack [(0, c.qLen q + c.pastQueue q), (7, wrap 9 (s.qBursts n q)), (32, wrap 32 (mget 0 c.dmaDone q))]

/-- `SHORT_STAT`: R158. -/
def Core.shortStat (c : Core) : Nat :=
  pack [(0, wrap 5 (c.short.length + c.pastSlots isShort)), (16, c.combined), (32, wrap 32 c.shortDone)]

/-- `CABLE_STAT`: R166. -/
def Core.cableStat (c : Core) : Nat :=
  pack [(0, b2n c.cable.isSome), (1, match c.cable with
                                      | some k => k.waiting
                                      | none => 0),
        (8, c.cablePasses), (32, wrap 32 c.cableChunks)]

/-- The tally, owner and kind of the wait or take in a row: R175, R180. -/
def tallyOf : List Instr → Option (Nat × Nat × Bool)
  | [] => none
  | .tallyWait c :: _ => some (c.x.toNat, c.sd.toNat, false)
  | .tallyTake c :: _ => some (c.x.toNat, c.sd.toNat, true)
  | _ :: is => tallyOf is

/-- `TALLY_STAT`: R180. -/
def State.tallyStat (s : State) (n : Nat) : Nat :=
  let c := s.core n
  let row := match c.pastCheck with
    | k :: _ => k.row
    | [] => c.held.elim [] (fun h => h.row)
  let rest := [(13, b2n c.atCastoff), (32, c.quiet)]
  match (if (s.curCause n).1 = 7 ∨ (s.curCause n).1 = 8 then tallyOf row else none) with
  | some (t, o, k) => pack ([(0, t), (6, o), (11, 1), (12, b2n k)] ++ rest)
  | none => pack rest

/-- `PIP_ALLOT`: R293. -/
def Core.pipAllot (c : Core) : Nat := pack [(0, c.allot), (8, c.avail), (16, c.keep)]

/-- `PIP_LENT`: R293. -/
def Core.pipLent (c : Core) : Nat :=
  pack [(0, c.lent), (8, b2n (c.lent != 0)), (9, b2n c.reclaiming), (10, min 4095 c.wait), (32, wrap 32 c.lends)]

/-- A core register by index, as a read through the window returns it; none for an index that no register has:
R52, R80, R87, R130, R139, R153, R155, R158, R166, R180, R293. -/
def State.coreReg (s : State) (n idx : Nat) : Option Nat :=
  let c := s.core n
  let p := s.pcore n
  if idx = 0 then some (s.coreId n)
  else if idx = 1 then some coreCfg
  else if idx = 0x10 then some (wrap 64 p.rowCount)
  else if idx = 0x11 then some (wrap 64 p.rowBase)
  else if idx = 0x12 then some (wrap 64 p.holdCount)
  else if idx = 0x13 then some (wrap 64 p.holdCycles)
  else if idx = 0x14 then some (s.holdCause n)
  else if idx = 0x18 then some (s.ibankStat n)
  else if 0x20 ≤ idx ∧ idx < 0x40 then some (mget {} c.ranges (idx - 0x20)).word
  else if 0x40 ≤ idx ∧ idx < 0x44 then some (c.lcWord (idx - 0x40))
  else if idx = 0x80 then some c.mx.rescaleCount
  else if idx = 0x81 then some c.numWord
  else if 0x88 ≤ idx ∧ idx < 0x98 then some (c.mx.mon.word (idx - 0x88))
  else if idx = 0xA0 then some p.eccStat
  else if idx = 0xA1 then some p.eccLastWord
  else if 0xB0 ≤ idx ∧ idx < 0xB8 then some (mget {} c.regions (idx - 0xB0)).word
  else if 0xC0 ≤ idx ∧ idx < 0xC4 then some (s.qCount n (idx - 0xC0))
  else if idx = 0xC4 then some c.sigmode.toNat
  else if idx = 0xC5 then some c.shortStat
  else if idx = 0xC8 then some (pack [(0, c.bwRate), (16, c.bwDepth)])
  else if idx = 0xC9 then some (pack [(0, c.tokens / 1024), (32, c.yellow)])
  else if idx = 0xCC then some c.cableStat
  else if idx = 0xD0 then some (s.tallyStat n)
  else if idx = 0xD8 then some c.pipAllot
  else if idx = 0xD9 then some c.pipLent
  else none

/-- What `s.rdreg` returns: `ROW_COUNT` counts from `ROW_BASE`: R52. -/
def State.rdreg (s : State) (n idx : Nat) : Nat :=
  if idx = 0x10 then (s.pcore n).rowCount - (s.pcore n).rowBase else (s.coreReg n idx).getD 0

/-! ### Registers of strands and FIFOs in the window -/

/-- `STRAND_STAT_n`: R204. -/
def Skein.stat (k : Skein) : Nat := pack [(0, k.wrOff), (20, wrap 20 k.msgs), (40, wrap 24 k.wraps)]
/-- `READ_INDEX_n`: R205. -/
def Skein.readIndex (k : Skein) : Nat := pack [(0, k.rdOff), (20, k.rdWraps)]
/-- `SKEIN_CFG_n`: R198. -/
def Skein.cfg (k : Skein) : Nat :=
  pack [(0, k.base), (24, k.log2), (30, k.notify), (36, b2n k.notifyEn), (63, b2n k.enable)]
/-- `SEND_CFG_e`: R198. -/
def SendEp.cfg (e : SendEp) : Nat := pack [(0, e.tCore), (8, e.tModule), (14, e.tSkein), (63, b2n e.enable)]
/-- S: R196. -/
def Skein.size (k : Skein) : Nat := 2 ^ k.log2

/-- The place of a request in the ring: the WRAP record's position if it wraps, the message's position, the bytes it
uses and the next allocation offset; none while there is no room (R202). -/
def Skein.serve (k : Skein) (g : Nat) : Option (Option Nat × Nat × Nat × Nat) :=
  let b := 64 * g
  let t := k.size - k.alloc
  let need := if b ≤ t then b else t + b
  if k.used + need > k.size then none
  else if b ≤ t then some (none, k.alloc, need, if k.alloc + b = k.size then 0 else k.alloc + b)
  else some (some k.alloc, 0, need, b)

/-- Whether the oldest request of endpoint `e` of core `n` waits for space: at a skein of this module it stands in a request store whose
oldest request finds no room; one sent to another module waits until its grant comes back (R202, R208; entry 17). -/
def State.headWaits (s : State) (n e : Nat) : Bool :=
  let x := mget {} (s.core n).sends e
  let k : Skein := mget {} (s.core x.tCore).skeins x.tSkein
  if x.tModule = s.config.module then
    k.reqs.any (fun r => r.core == n && r.ep == e && r.module == s.config.module) && k.reqs.head?.any (fun r => (k.serve r.g).isNone)
  else s.flight.any (fun x => x.kind == .strandReq && x.port.isSome && x.core == n && x.origin != .outside && x.aux / 256 == e)
/-- `SEND_STAT_e`: R208. -/
def State.sendStat (s : State) (n e : Nat) : Nat :=
  let x := mget {} (s.core n).sends e
  pack [(0, x.queue.length + (s.core n).pastSends e), (3, b2n (s.headWaits n e)), (32, wrap 32 x.seqNext)]
/-- Words with END set: R210. -/
def Fifo.packets (f : Fifo) : Nat := f.words.countP (fun w => w.getLsbD 62)
/-- `FIFO_COUNT_f`: R216. -/
def Fifo.countWord (f : Fifo) : Nat := pack [(0, f.words.length), (32, f.poisoned)]
/-- `FIFO_PKTS_f`: R216. -/
def Fifo.pktsWord (f : Fifo) : Nat := pack [(0, f.packets), (32, wrap 32 f.popped)]

/-- The register of the strand and FIFO area at a window offset, none where R197 admits no read. -/
def State.strandReg (s : State) (n off : Nat) : Option Nat :=
  let c := s.core n
  if 0xF10000 ≤ off ∧ off < 0xF10400 then
    let k : Skein := mget {} c.skeins ((off - 0xF10000) / 64)
    match (off - 0xF10000) % 64 with
    | 0 => some k.stat
    | 8 => some k.readIndex
    | 16 => some k.cfg
    | _ => none
  else if 0xF10400 ≤ off ∧ off < 0xF10500 then
    let e := (off - 0xF10400) / 16
    if (off - 0xF10400) % 16 = 0 then some (mget {} c.sends e : SendEp).cfg else
    if (off - 0xF10400) % 16 = 8 then some (s.sendStat n e) else none
  else if 0xF10500 ≤ off ∧ off < 0xF105A0 then
    let f : Fifo := mget {} c.fifos ((off - 0xF10500) / 32)
    match (off - 0xF10500) % 32 with
    | 8 => some f.countWord
    | 16 => some f.pktsWord
    | _ => none
  else none

/-- A tally through the window: R174. -/
def State.tallyReg (s : State) (n off : Nat) : Option Nat :=
  if 0xF00000 ≤ off ∧ off < 0xF00200 ∧ off % 8 = 0 then
    some (mget 0 (s.core n).tallies ((off - 0xF00000) / 8) : BitVec 32).toNat
  else none

end Sys2Proof.Machine
end

