-- ==== Sys2Proof/WellFormed.lean ====
section
/-!
DEFINITION. Which commands the part can meet. For a slot command: the slot is an encoding the loader admits, every
field its opcode does not use being 0 (R9, R22, R23, R24, R46, R61, R108, R114, R143, R156, R175, R200, R212). For an
event: its operands lie in the ranges the spec gives them.
-/

namespace Sys2Proof

/-! ### Fields of the op-specific parts -/

/-- Bits [hi:lo] of the op-specific part of an M or a D slot, counted from slot bit 32. -/
abbrev bits64 (f : BitVec 64) (hi lo : Nat) : Nat := (f.extractLsb' lo (hi + 1 - lo)).toNat

/-- `ty` of a V slot: R108. -/
abbrev VSlot.ty (v : VSlot) : Nat := (v.f.extractLsb' 0 4).toNat
/-- `dty` of a V slot: R108. -/
abbrev VSlot.dty (v : VSlot) : Nat := (v.f.extractLsb' 4 4).toNat
/-- `part` of a V slot: R108. -/
abbrev VSlot.part (v : VSlot) : Nat := (v.f.extractLsb' 8 4).toNat
/-- `fl` of a V slot: R108. -/
abbrev VSlot.fl (v : VSlot) : Bool := v.f.getLsbD 12
/-- `half` of a V slot: R108. -/
abbrev VSlot.half (v : VSlot) : Bool := v.f.getLsbD 13
/-- The opcode-specific bits of a V slot: R108. -/
abbrev VSlot.op (v : VSlot) : BitVec 24 := v.f.extractLsb' 14 24
/-- `am`, the address form of a load or store: R108, R112. -/
abbrev VSlot.am (v : VSlot) : Nat := (v.op.extractLsb' 0 2).toNat
/-- `off` of a load or store: R108. -/
abbrev VSlot.off (v : VSlot) : Nat := (v.op.extractLsb' 2 16).toNat
/-- `imm16` of a shift or `v.iota`: R108. -/
abbrev VSlot.imm16 (v : VSlot) : Nat := (v.op.extractLsb' 0 16).toNat
/-- `k_minus1` of `v.sieve`: R108. -/
abbrev VSlot.kMinus1 (v : VSlot) : Nat := (v.op.extractLsb' 0 6).toNat
/-- `bs` of `v.cvtbs`: R108. -/
abbrev VSlot.bs (v : VSlot) : Nat := (v.op.extractLsb' 0 4).toNat
/-- `xs` of `v.cvtbs`: R108. -/
abbrev VSlot.xs (v : VSlot) : Nat := (v.op.extractLsb' 4 7).toNat
/-- `rs` of `v.setvl`: R108. -/
abbrev VSlot.rs (v : VSlot) : BitVec 5 := v.op.extractLsb' 0 5
/-- `rd` of `v.setvl` and `v.getvl`: R108. -/
abbrev VSlot.rd (v : VSlot) : BitVec 5 := v.op.extractLsb' 5 5

/-- Bits [hi:lo] of the op-specific part of a B slot, counted from slot bit 32. -/
abbrev BSlot.bits (b : BSlot) (hi lo : Nat) : Nat := (b.f.extractLsb' lo (hi + 1 - lo)).toNat

/-- Bits [hi:lo] of the op-specific part of an M slot, counted from slot bit 32. -/
abbrev MSlot.bits (m : MSlot) (hi lo : Nat) : Nat := bits64 m.f hi lo

/-- Bits [hi:lo] of the op-specific part of a D slot, counted from slot bit 32. -/
abbrev DSlot.bits (d : DSlot) (hi lo : Nat) : Nat := bits64 d.f hi lo

/-! ### C slots -/

/-- The two-operand scalar rows: register form or immediate form (R24). -/
def CSlot.wfAlu (c : CSlot) : Bool :=
  c.x.extractLsb' 1 5 == 0 && (if c.x.getLsbD 0 then c.sb == 0 else c.imm == 0)

/-- Bits [31:12] of the immediate are unused: R24. -/
def CSlot.wfRow12 (c : CSlot) : Bool := c.imm.extractLsb' 12 20 == 0

/-- A register index that `s.rdreg` may name: R52. -/
def rdregIndex (i : Nat) : Bool :=
  i == 0 || i == 1 || (0x10 ≤ i && i ≤ 0x14) || i == 0x18 || (0x20 ≤ i && i ≤ 0x3F) || (0x40 ≤ i && i ≤ 0x43)

/-- An index that `s.rdreg` may name in a DEBUG load only: R52. -/
def rdregDebugOnly (i : Nat) : Bool := (0x11 ≤ i && i ≤ 0x14) || i == 0x18 || (0x20 ≤ i && i ≤ 0x3F)

/-! ### M slots -/

/-- A format code of the streaming operand: R57. -/
def xFmtOk (c : Nat) : Bool := 1 ≤ c && c ≤ 0xC
/-- A format code of the stationary operand of one pass: R57, R61. -/
def sFmtOk (c : Nat) : Bool := 1 ≤ c && c ≤ 6

/-- `mm.pass` and `mm.diag`: R61. -/
def MSlot.wfPass (m : MSlot) : Bool :=
  m.pa == 0 && m.ta == 0 && m.bits 9 8 != 3 && xFmtOk (m.bits 13 10) && sFmtOk (m.bits 17 14) &&
  m.bits 23 22 == 0 && m.bits 63 63 == 0 && m.bits 31 24 + m.bits 7 0 ≤ 255

/-! ### V slots -/

/-- The fields of a V slot that an operation of the given use leaves at 0: R108. DESIGN CHOICE: a field that the opcode uses only in another
form is unused in this one, and so is the mask number where mask_en = 0 (entry 53). -/
def VSlot.unused (v : VSlot) (vd va vb vc mem : Bool) (dty part fl half op : Bool) : Bool :=
  (vd || v.vd == 0) && (va || v.va == 0) && (vb || v.vb == 0) && (vc || v.vc == 0) &&
  (mem || (v.ab == 0 && v.st == 0)) && (dty || v.dty == 0) && (part || v.part == 0) && (fl || !v.fl) &&
  (half || !v.half) && (op || v.op == 0) && (v.maskEn || v.mask == 0)

/-- An elementwise operation of the given number of sources and accepted types: R114. -/
def VSlot.wfArith (v : VSlot) (srcs : Nat) (tys : List Nat) : Bool :=
  v.unused true (1 ≤ srcs) (2 ≤ srcs) (3 ≤ srcs) false false false false false false && tys.contains v.ty

/-- Every type an elementwise operation may take: R107. -/
def tyArith : List Nat := [0, 1, 2, 3, 4, 5]
/-- The float types: R107. -/
def tyFloat : List Nat := [0, 1]

/-- A shift: R114. DESIGN CHOICE: vb is unused where the count is the immediate, and the immediate where it is vb (entry 53). -/
def VSlot.wfShift (v : VSlot) : Bool :=
  v.unused true true v.fl false false false false true false true && [2, 3, 4].contains v.ty &&
  v.op.extractLsb' 16 8 == 0 && (!v.fl || v.imm16 == 0)

/-- A compare: its destination is a mask register: R114. -/
def VSlot.wfCompare (v : VSlot) : Bool := v.wfArith 2 tyArith && v.vd.toNat < 8

/-- Mask logic: R114. -/
def VSlot.wfMask (v : VSlot) : Bool :=
  v.wfArith 2 [0] && v.vd.toNat < 8 && v.va.toNat < 8 && v.vb.toNat < 8 && !v.maskEn

/-- Slices of the narrower side of a conversion, none for a pair that `v.cvt` refuses: R117. -/
def cvtParts (ty dty : Nat) : Option Nat :=
  match ty, dty with
  | 0, 1 | 1, 0 => some 2
  | 0, 2 | 2, 0 => some 1
  | 0, 3 | 3, 0 => some 2
  | 0, 4 | 4, 0 | 0, 5 | 5, 0 => some 4
  | 0, 6 | 6, 0 => some 8
  | 0, 7 | 7, 0 => some 16
  | 8, 0 => some 2
  | _, _ => none

/-- Whether a conversion pair takes the multiplier f: R117. -/
def cvtHasF (ty dty : Nat) : Bool := (ty == 0 && 2 ≤ dty) || (2 ≤ ty && ty ≤ 7)

/-- `v.cvt`: R117. -/
def VSlot.wfCvt (v : VSlot) : Bool :=
  (match cvtParts v.ty v.dty with
   | some n => decide (v.part < n)
   | none => false) &&
  v.unused true true (cvtHasF v.ty v.dty && !v.fl) false false true true (cvtHasF v.ty v.dty) false false

/-- Slices of a `v.cvtbs` result: R118. -/
def cvtbsParts (bs : Nat) : Nat := if bs = 8 then 8 else if bs = 9 ∨ bs = 10 then 4 else 2

/-- `v.cvtbs`: R118. -/
def VSlot.wfCvtbs (v : VSlot) : Bool :=
  v.unused true true false true false false true false false true && v.ty == 0 && !v.maskEn &&
  8 ≤ v.bs && v.bs ≤ 0xC && v.part < cvtbsParts v.bs && v.vd != v.vc && v.op.extractLsb' 11 13 == 0

/-- `v.sieve`: R121, R123. -/
def VSlot.wfSieve (v : VSlot) : Bool :=
  v.unused true true true v.fl false false false true true true && [0, 2, 3].contains v.ty &&
  v.vd.toNat % 2 == 0 && (!v.half || v.ty == 3) && v.op.extractLsb' 6 18 == 0 &&
  (!v.fl || (v.kMinus1 == 63 && v.vc.toNat % 2 == 0 && v.vd != v.vc))

/-- `v.ld` and `v.st`: R108, R112, R133. -/
def VSlot.wfMem (v : VSlot) (store : Bool) : Bool :=
  v.unused (!store) store false false true false false false false true && [0, 1, 2, 3, 4, 5, 8].contains v.ty &&
  v.op.extractLsb' 18 6 == 0 && (v.am == 1 || v.am == 2 || v.st == 0) && (!store || v.am != 3) &&
  (v.am != 2 || v.ty != 8)

/-! ### B and D slots -/

/-- `fifo.pop` and `fifo.stat`: R212. -/
def BSlot.wfFifoRead (b : BSlot) : Bool := b.src == 0 && b.cnt == 0 && b.bits 2 0 ≤ 4 && b.bits 31 3 == 0

/-- `dma.get` and `dma.put`: R143. -/
def DSlot.wfDma (d : DSlot) : Bool :=
  d.bits 31 22 == 0 && d.bits 63 48 == 0 && (d.bits 21 21 == 1 || d.bits 47 32 == 0)

/-! ### Commands -/

/-- Whether a command is one the part can meet. -/
def Instr.wf : Instr → Bool
  | .sAdd c | .sSub c | .sAnd c | .sOr c | .sXor c | .sShl c | .sShr c | .sSra c | .sSlt c | .sSltu c | .sSeq c
  | .sMul c => c.wfAlu
  | .sLi c => c.sa == 0 && c.sb == 0 && c.x == 0
  | .sLui c => c.sb == 0 && c.x == 0
  | .sLd c => c.sb == 0 && c.x == 0
  | .sSt c => c.sd == 0 && c.x == 0
  | .sRdreg c => c.sa == 0 && c.sb == 0 && c.x == 0 && c.wfRow12 && rdregIndex (c.imm.extractLsb' 0 12).toNat
  | .sbDef c => c.sd == 0 && c.x.toNat < 32 && c.imm == 0
  | .br c => c.sd == 0 && c.sa == 0 && c.sb == 0 && c.x == 0 && c.wfRow12
  | .brZ c | .brNz c | .brNeg c => c.sd == 0 && c.sb == 0 && c.x == 0 && c.wfRow12
  | .loopI c => c.sd == 0 && c.sa == 0 && c.sb == 0 && c.x.toNat < 4 && c.imm.extractLsb' 12 20 != 0
  | .loopR c => c.sd == 0 && c.sb == 0 && c.x.toNat < 4 && c.wfRow12
  | .tallySig c => c.sa == 0 && c.x.toNat ≤ 62
  | .tallyWait c => c.sb == 0 && c.x.toNat ≤ 62
  | .tallyTake c => c.sa == 0 && c.sb == 0 && c.x.toNat ≤ 62 && c.imm.extractLsb' 0 30 == 0
  | .bankFlip c => c.sd == 0 && c.sa == 0 && c.sb == 0 && c.x == 0 && c.wfRow12
  | .brk c | .taskEnd c => c.sd == 0 && c.sa == 0 && c.sb == 0 && c.x == 0 && c.imm == 0
  | .mmPass m | .mmDiag m => m.wfPass
  | .mmTile m => m.bits 63 16 == 0
  | .mmDrain m => m.xa == 0 && m.wa == 0 && m.ta == 0 && m.bits 31 24 == 0 && m.bits 15 8 + m.bits 7 0 ≤ 255
  | .mmMon m => m.wa == 0 && m.pa == 0 && m.ta == 0 && m.bits 63 32 == 0
  | .vAdd v | .vSub v | .vMin v | .vMax v => v.wfArith 2 tyArith
  | .vMul v => v.wfArith 2 [0, 1, 2, 3]
  | .vFma v | .vFnma v => v.wfArith 3 tyFloat
  | .vWfma v => v.unused true true true true false false false false true false && v.ty == 1
  | .vAbs v | .vNeg v => v.wfArith 1 [0, 1, 2, 3, 4]
  | .vAnd v | .vOr v | .vXor v => v.wfArith 2 [2, 3, 4]
  | .vShl v | .vShr v | .vSra v => v.wfShift
  | .vPopc v => v.wfArith 1 [2, 3, 4]
  | .vIota v =>
    v.unused true false false false false false false false false true && [2, 3].contains v.ty &&
      v.op.extractLsb' 16 8 == 0
  | .vSel v => v.wfArith 2 tyArith && v.maskEn
  | .vCeq v | .vClt v | .vCle v => v.wfCompare
  | .mAnd v | .mOr v | .mXor v | .mAndn v => v.wfMask
  | .vCvt v => v.wfCvt
  | .vCvtbs v => v.wfCvtbs
  | .vExp v | .vLog v | .vRcp v | .vRsqrt v | .vTanh v | .vErf v => v.wfArith 1 tyFloat
  | .vCompress v | .vExpand v => v.wfArith 1 tyArith && v.maskEn
  | .vRedsum v | .vRedmax v | .vRedmin v => v.wfArith 1 [0, 1, 2, 3]
  | .vSieve v => v.wfSieve
  | .vSinit v => v.wfArith 0 [0, 2] && v.vd.toNat % 2 == 0 && !v.maskEn
  | .vSetvl v =>
    v.unused false false false false false false false false false true && [0, 1, 2, 3, 4, 5, 8].contains v.ty &&
      !v.maskEn && v.op.extractLsb' 10 14 == 0
  | .vGetvl v =>
    v.unused false false false false false false false false false true && v.ty == 0 && !v.maskEn &&
      v.op.extractLsb' 10 14 == 0 && v.rs == 0
  | .vLd v => v.wfMem false
  | .vSt v => v.wfMem true
  | .ribPut b => b.cnt.extractLsb' 2 3 == 0 && b.cnt.extractLsb' 0 2 != 0
  | .bMove b => b.cnt == 0 && b.bits 15 3 == 0
  | .spPut b => b.cnt == 0 && b.bits 15 3 == 0
  | .spGet b => b.cnt == 0 && b.bits 15 4 == 0
  | .spSig b => b.src == 0 && b.bits 3 0 == 0 && b.bits 31 6 == 0
  | .spWord b => b.src == 0 && b.bits 15 0 == 0
  | .fifoPush b => b.src == 0 && b.dst == 0 && 1 ≤ b.bits 2 0 && b.bits 2 0 ≤ 4 && b.bits 31 9 == 0
  | .fifoPop b _ | .fifoStat b => b.wfFifoRead
  | .dmaGet d => d.src == 0 && d.wfDma
  | .dmaPut d => d.dst == 0 && d.wfDma
  | .strandSend d =>
    d.q == 0 && d.desc == 0 && d.dst == 0 && d.bits 31 28 == 0 && d.bits 39 38 == 0
  | .cableRun d => d.q == 0 && d.src == 0 && d.dst == 0 && d.bits 63 16 == 0
  | .flitReceive _ flit _ => flit.length == 256
  | .windowEnd _ eye => eye ≤ 64
  | .eyeCheck _ o c => o.length == 9 && c.length == 9 && o.all (fun x => x ≤ 63)
  | .swapReq _ lane _ | .swapAt _ lane _ => lane < 8
  | .voltageSettled _ code => 32 ≤ code && code ≤ 132
  | .unitRequest u _ _ _ | .drainEnd u _ => u < 846
  | .stagedSet es => es.length ≤ 16 && es.all (fun e => e.length == 52)
  | .sbRead _ n => 1 ≤ n && n ≤ 16
  | .fifoDataWrite _ f _ => f < 5
  | .configFormation begins peers => !begins || peers.isEmpty
  | .eccReread _ w _ _ | .externalReread _ w _ | .scrubRead _ w _ _ => w.line < 4096 && w.bank < 512
  | .issueCycle _ _ ps => ps.all (fun p => p.found.all (fun w => w.line < 4096 && w.bank < 512))
  | .heldTurnEnd _ _ | .rescale _ | .rescaleClear _ _ | .mmTileOutputDone _ | .dmaBurstSend _ _
  | .deliveryLastBurst _ _ | .dmaComplete _ _ | .ackedRelease _ | .shortPathComplete _ _ | .cableStageUnit _ _
  | .cableComplete _ | .externalBurstWrite _
  | .tallyAdd _ | .tallyRelease _ | .taskCastOn _ | .startTimeReached _ | .coreCastOff _ | .taskCastOff _ _
  | .stalemate _ | .strandReq _ | .strandGrant _ _ | .strandData _ | .grantComplete _ _ | .readIndexWrite _ _ _
  | .strandSendComplete _ _ | .registerWrite _ _ | .gtLoRead | .freqCtlWrite _ _ | .calCtlWrite _ | .ibankLoad _ _ _
  | .bankReadySignal _ | .patternLoad | .epochMark _ | .droop _ | .droopRecovery _ | .sustainedDroop _ _
  | .beacon _ _ _ _ | .timeUnlocked | .castonUnlockedTimeout _ | .recentre _ _ _ _ | .allBankRefresh _ _
  | .laneSwap _ _ | .swapDone _ | .swapReqResend _ | .calSummary | .lend _ | .reclaimBatch _ | .voutTelemetry _
  | .regulatorFault _ | .thermalTrip _ _ | .napEntry _ | .idleEntry | .standbyEntry | .mainRailLost | .auxPowerLost
  | .auxPowerOn _ _ | .pwrEnAssert _ | .pwrEnDeassert | .inputHash _ | .taskReplay _ | .dualSecondRun _
  | .mirrorVote _ _ _ _ | .hbmUncorr _ _ _ | .nak _ _ | .retryTimeout _ | .readReq _ | .readResp _ | .write _
  | .writeAck _ | .fwMsg _ _ | .heartbeat | .trainAttempt _ _ | .retrain _ _ | .retrainAttempt _ _ | .moduleLost _
  | .twinLost | .watchdog _ _ | .handshake _ _ _ _ | .keyUpdate _ | .sessionExpired _ | .continuationBlock _
  | .commandTimeout _ | .seqGap _ | .ping _ | .getSeq _ | .close _ | .submit _ | .batchingWindow _ | .queryStatus _
  | .fetchResult _ | .taskForgotten _ | .cancel _ | .loadPattern _ | .unloadPattern _ | .listPatterns _ | .putObject _
  | .getObject _ | .deleteObject _ | .readScorebook _ | .setPowerCap _ | .getHealth _ | .cartridgeInfo _
  | .cartridgeRetire _ | .arm _ | .disarmAll _ | .refereeLog _ | .refereeStop _ | .resume _ | .step _
  | .readRefereeLog _ | .readWindowBytes _ | .getVersion _ | .getCapabilities _ | .negotiateAlgorithms _
  | .getDigests _ | .getCertificate _ | .challenge _ | .getMeasurements _ | .cartridgeInsert _ _ | .prsntDebounce _
  | .perstRelease _ | .resyncComplete _ | .bayFailure _ | .smartRead _ _ | .enrol _ | .regRead _ | .moduleReset _
  | .netCfg _ _ _ | .sensorRead _ | .effecterSet _ _ | .pldmFirmwareUpdate _ _ _ _ | .activateFirmware
  | .setEndpointId _ | .i3cBroadcastCcc | .recordWrite | .dbgReq | .dbgReqRelease | .dbgReqTimeout | .dbgVref _
  | .servicePortLink _ _ | .badOpcode _ | .closeNotify _ | .clientKeyUpdate _ | .standbyRequest | .cartridgeRemove _
  | .sgmiiLink _ => true

end Sys2Proof
end

