-- ==== Sys2Proof/Machine/Operands.lean ====
section
/-!
DEFINITION. The operand forms of the scalar, vector and buffer slots: the second scalar operand, the elements of a
vector register, the active elements of a vector row, the addresses of loads, stores, moves and rib writes, and the
bytes of the core's own buffers that a slot touches (R23, R24, R46, R106 to R113, R131, R133, R156).
-/

namespace Sys2Proof

open Machine

/-! ### Scalar operands -/

/-- The second operand B: sb, or the sign-extended immediate: R24. -/
def CSlot.operandB (x : CSlot) (c : Core) : BitVec 64 :=
  if x.x.getLsbD 0 then x.imm.signExtend 64 else c.readS x.sb

/-- The window offset of `s.ld` and `s.st`: sa, a check operand, plus the immediate, as a 64-bit sum: R23, R24. -/
def CSlot.addr (x : CSlot) (c : Core) : Nat := (c.readChk x.sa + x.imm.signExtend 64).toNat

/-- A row index in the immediate: R24. -/
def CSlot.row12 (x : CSlot) : Nat := (x.imm.extractLsb' 0 12).toNat

/-! ### Elements of vectors -/

/-- The width of an element type: R107. -/
def Machine.tyWidth (ty : Nat) : Nat :=
  match ty with
  | 0 | 2 => 32
  | 1 | 3 => 16
  | 4 | 5 => 8
  | 6 => 4
  | 7 => 2
  | _ => 64

/-- Element `i` of width `w`: R106. -/
def Machine.elemAt (w : Nat) (v : BitVec 2048) (i : Nat) : Nat := (v.extractLsb' (w * i) w).toNat

/-- The register bits of elements of width `w` and the value they take: R106. -/
def Machine.putElems (w : Nat) (ps : List (Nat × Nat)) : BitVec 2048 × BitVec 2048 :=
  ps.foldl (fun a p =>
    (a.1 ||| BitVec.ofNat 2048 ((2 ^ w - 1) * 2 ^ (w * p.1)),
     (a.2 &&& ~~~ BitVec.ofNat 2048 ((2 ^ w - 1) * 2 ^ (w * p.1))) |||
       BitVec.ofNat 2048 (p.2 % 2 ^ w * 2 ^ (w * p.1))))
    (0, 0)

/-- Write elements of width `w` into a vector register with latency `lat`; the others keep their contents: R110. -/
def Machine.State.writeElems (s : State) (n : Nat) (r : BitVec 5) (lat w : Nat) (ps : List (Nat × Nat)) : State :=
  let (m, v) := putElems w ps
  s.writeV n r lat m v

/-- A vector register with elements of another width replaced: R106. -/
def Machine.mergeElems (w : Nat) (old : BitVec 2048) (ps : List (Nat × Nat)) : BitVec 2048 :=
  let (m, v) := putElems w ps
  (old &&& ~~~ m) ||| v

/-- The elements of a row's count `n` whose mask bit, at the index `at` gives, is 1 when the mask applies: R110. -/
def VSlot.active (v : VSlot) (c : Core) (n : Nat) (idx : Nat → Nat) : List Nat :=
  let m := c.readM v.mask
  (List.range n).filter (fun i => !v.maskEn || m.getLsbD (idx i))

/-- The element count of a row of `e` elements: R109. -/
def Machine.Core.count (c : Core) (e : Nat) : Nat := min c.readVl e

/-! ### Vector addresses -/

/-- A = s[ab] + 64 * off: R112. -/
def VSlot.base (v : VSlot) (c : Core) : Nat := (c.readChk v.ab + BitVec.ofNat 64 (64 * v.off)).toNat

/-- The element count of a load or store: R109 (PB64 registers hold 32 elements: R107). -/
def VSlot.memCount (v : VSlot) (c : Core) : Nat := c.count (2048 / tyWidth v.ty)

/-- The element width code of R130. -/
def Machine.widthOf (code : Nat) : Nat := 2 ^ code

/-- The bytes of a 128 x 128 block of width `wb`: R131. -/
def Machine.blockBytes (wb : Nat) : Nat := 2048 * wb

/-- The enabled regions of a core. -/
def Machine.Core.enabledRegions (c : Core) : List CbRegion := (c.regions.map (fun r => r.2)).filter (fun r => r.enable)

/-- Whether an offset is the start of a block in a region of width `wb`: R133. -/
def Machine.Core.blockStart (c : Core) (wb a : Nat) : Bool :=
  c.enabledRegions.any (fun r =>
    widthOf r.width == wb && decide (r.base ≤ a ∧ a + blockBytes wb ≤ r.fin) && (a - r.base) % blockBytes wb == 0)

/-- The byte offset of element `i` of a load or store; integers, since a stride is signed: R112. -/
def VSlot.elemAddr (v : VSlot) (c : Core) (i : Nat) : Int :=
  let a : Int := v.base c
  let w := tyWidth v.ty
  let st := c.readChk v.st
  match v.am with
  | 0 => a + (i * (w / 8) : Nat)
  | 1 => a + i * st.toInt
  | 2 =>
    let col := (st.extractLsb' 0 7).toNat
    let row := (st.extractLsb' 8 7).toNat + i
    a + (row * (16 * w) + col * (w / 8) : Nat)
  | _ => a

/-- The breach of a load's or store's base, by its alignment: R113. -/
def VSlot.baseBreach (v : VSlot) (c : Core) : Option (Nat × Nat) :=
  let a := v.base c
  if a % (tyWidth v.ty / 8) ≠ 0 then some (113, a) else none

/-- The breach of its stride or its column selector: R112, R113. -/
def VSlot.strideBreach (v : VSlot) (c : Core) : Option (Nat × Nat) :=
  let a := v.base c
  let st := c.readChk v.st
  if v.am = 1 ∧ st.toInt % (tyWidth v.ty / 8 : Nat) ≠ 0 then some (112, a)
  else if v.am = 2 ∧ (st.extractLsb' 0 7).toNat + 256 * (st.extractLsb' 8 7).toNat ≠ st.toNat then some (112, a)
  else if v.am = 2 ∧ (st.extractLsb' 8 7).toNat + v.memCount c > 128 then some (113, a)
  else none

/-- The breach of a load's or store's base as the start of a checkerboard block: R133. -/
def VSlot.blockBreach (v : VSlot) (c : Core) : Option (Nat × Nat) :=
  if v.am = 2 ∧ !c.blockStart (tyWidth v.ty) (v.base c) then some (133, v.base c) else none

/-- The breach of a load or store, by rule: R113, R133. -/
def VSlot.memBreach (v : VSlot) (c : Core) : Option (Nat × Nat) :=
  let n := v.memCount c
  let w := tyWidth v.ty
  let a := v.base c
  if n = 0 then none
  else if let some b := ((v.baseBreach c).or (v.strideBreach c)).or (v.blockBreach c) then some b
  else
    let es := (List.range n).map (v.elemAddr c)
    if es.all (fun e => decide (e ≥ 0) && inAB e.toNat (w / 8)) || es.all (fun e => decide (e ≥ 0) && inPB e.toNat (w / 8))
    then none else some (113, a)

/-- The bytes a load or store touches: R113. -/
def VSlot.memSpan (v : VSlot) (c : Core) : List (Nat × Nat) :=
  let n := v.memCount c
  let w := tyWidth v.ty
  if n = 0 then []
  else match v.am with
    | 0 => [(v.base c, n * (w / 8))]
    | 3 => [(v.base c, w / 8)]
    | _ => (List.range n).map (fun i => ((v.elemAddr c i).toNat, w / 8))

/-- The issue cycles for which a load or store occupies its pipe's port: R112. -/
def VSlot.occupancy (v : VSlot) : Nat := if v.am = 1 then 2048 / tyWidth v.ty else 1

/-- The latency of a load: R112. -/
def VSlot.loadLat (v : VSlot) : Nat := 6 + v.occupancy - 1
/-- The latency at which a store is visible: R112. -/
def VSlot.storeLat (v : VSlot) : Nat := 4 + v.occupancy - 1

/-! ### The checkerboard layout underneath -/

/-- The physical bit of AB, as a bit address in the packed order of the lines, behind a logical bit of a region;
other bits are where they seem: R124, R131. -/
def Machine.cbPhysBit (rs : List CbRegion) (bitA : Nat) : Nat :=
  match rs.find? (fun r => decide (r.base * 8 ≤ bitA ∧ bitA < r.fin * 8)) with
  | none => bitA
  | some r =>
    let wb := widthOf r.width
    let p := bitA - r.base * 8
    let bb := 16384 * wb
    let blk := p / bb
    let q := p % bb
    let i := q / (128 * wb)
    let j := q % (128 * wb) / wb
    let bank := (i + j) % 128
    let line := (r.base - abBase) / 1024 + 2 * wb * blk + i * wb / 64
    (abBase + line * 1024 + bank * 8) * 8 + i * wb % 64 + q % wb

/-- The logical bit that a physical bit of AB shows under the regions: the inverse of `cbPhysBit`. -/
def Machine.cbLogicalBit (rs : List CbRegion) (bitA : Nat) : Nat :=
  match rs.find? (fun r => decide (r.base * 8 ≤ bitA ∧ bitA < r.fin * 8)) with
  | none => bitA
  | some r =>
    let wb := widthOf r.width
    let a := bitA / 8
    let line := (a - r.base) / 1024
    let bank := a % 1024 / 8
    let bit := bitA % 64
    let blk := line / (2 * wb)
    let i := (line % (2 * wb) * 64 + bit) / wb
    let j := (bank + 128 - i % 128) % 128
    r.base * 8 + blk * (16384 * wb) + i * (128 * wb) + j * wb + bit % wb

/-- The set bits of a memory's bytes, as bit addresses. -/
def Machine.setBits (m : Memory) : List Nat :=
  m.flatMap (fun c => ((List.range 8).filter (fun i => c.2.getLsbD i)).map (fun i => 8 * c.1 + i))

/-- A memory in which these bits are set and no others. -/
def Machine.ofBits (bs : List Nat) : Memory :=
  bs.foldl (fun m b => Memory.write m (b / 8) (Memory.read m (b / 8) ||| BitVec.ofNat 8 (2 ^ (b % 8)))) []

/-- The buffers as they are seen when the regions change from `old` to `new`: the physical lines keep their bits
(R134). -/
def Machine.remapRegions (old new : List CbRegion) (m : Memory) : Memory :=
  if old = new then m
  else
    let inside (b : Nat) : Bool := (old ++ new).any (fun r => decide (r.base * 8 ≤ b ∧ b < r.fin * 8))
    let bits := (setBits (m.filter (fun c => inside (8 * c.1)))).map (fun b => cbLogicalBit new (cbPhysBit old b))
    let moved := ofBits bits
    moved.foldl (fun acc c => Memory.write acc c.1 (Memory.read acc c.1 ||| c.2)) (m.filter (fun c => !inside (8 * c.1)))

/-! ### Buffer slots -/

/-- A scaled offset on a check operand, as a 64-bit sum. -/
def Machine.Core.chkOff (c : Core) (r : BitVec 5) (off : Nat) : Nat := (c.readChk r + BitVec.ofNat 64 off).toNat

/-- The rib source in the core's own AB: R46. -/
def BSlot.ribSrc (b : BSlot) (c : Core) : Nat := c.chkOff b.src (64 * b.bits 15 0)
/-- The rib destination in the neighbour's AB: R46. -/
def BSlot.ribDst (b : BSlot) (c : Core) : Nat := c.chkOff b.dst (64 * b.bits 31 16)

/-- Bytes moved by a short-path operation: 8 (n8_m1 + 1): R156. -/
def BSlot.bytes (b : BSlot) : Nat := 8 * (b.bits 2 0 + 1)
/-- Bytes copied by `b.move`: R156. -/
def BSlot.moveBytes (b : BSlot) : Nat := 64 * (b.bits 2 0 + 1)
/-- The `off` field of a short-path slot: R156. -/
def BSlot.off (b : BSlot) : Nat := b.bits 31 16

/-- The local side of `b.move`, `sp.put` (source) : R156. -/
def BSlot.localSrc (b : BSlot) (c : Core) : Nat := c.chkOff b.src (64 * b.off)
/-- The local side of `sp.get` (destination): R156. -/
def BSlot.localDst (b : BSlot) (c : Core) : Nat := c.chkOff b.dst (64 * b.off)

end Sys2Proof
end

