-- ==== Sys2Proof/Machine/Desc.lean ====
section
/-!
DEFINITION. The DMA descriptor (R146), its pieces and bursts (R147, R149), its spans (R148), and the breaches that the
check stage and the issue find in it (R142, R147, R149, R150).
-/

namespace Sys2Proof.Machine

/-- Whether a descriptor sets a reserved value: R146, R147. -/
def descReserved (b : List Byte) : Bool :=
  let fl := leAt b 52 1
  leAt b 26 2 != 0 || leAt b 55 1 != 0 || fl ≥ 128 || field fl 4 3 == 3 || leAt b 53 1 ≥ 8 || leAt b 54 1 ≥ 64 ||
  leAt b 60 1 ≥ 2 || leAt b 62 2 ≥ 8

/-- The descriptor in 64 bytes; `mode` is the queue's SIGMODE bit (0 ORDERED, 1 ACKED): R146, R153. -/
def parseDesc (b : List Byte) (acked : Bool) : Desc :=
  let fl := leAt b 52 1
  let sm := field fl 4 3
  let s32 (off : Nat) : Int := sextN 32 (leAt b off 4)
  { src := leAt b 0 8, dst := leAt b 8 8, len0 := leAt b 16 4, n1 := leAt b 20 2 + 1, n2 := leAt b 22 2 + 1,
    n3 := leAt b 24 2 + 1, srcS := [s32 28, s32 32, s32 36], dstS := [s32 40, s32 44, s32 48],
    transpose := bitOf fl 0, vol := bitOf fl 1, sigEn := bitOf fl 2,
    ordered := sm == 1 || (sm == 0 && !acked), scope := field fl 6 5, tw := field (leAt b 53 1) 2 0,
    tally := field (leAt b 54 1) 5 0, sigVal := BitVec.ofNat 32 (leAt b 56 4), sigTo := leAt b 60 1,
    tag := leAt b 61 1, cable := leAt b 62 2 }

/-- A piece: its source and destination addresses (integers until they are known to be in range): R147. -/
def Desc.piece (_ : Desc) (st : List Int) (base : Nat) (i1 i2 i3 : Nat) : Int :=
  base + i1 * st.getD 0 0 + i2 * st.getD 1 0 + i3 * st.getD 2 0

/-- The index triples of the pieces, in order: R147. -/
def Desc.indices (d : Desc) : List (Nat × Nat × Nat) :=
  (List.range d.n3).flatMap (fun i3 => (List.range d.n2).flatMap (fun i2 =>
    (List.range d.n1).map (fun i1 => (i1, i2, i3))))

/-- The lowest and highest reach of the pieces along one dimension. -/
def strideReach (n : Nat) (s : Int) : Int × Int := (min 0 ((n - 1 : Nat) * s), max 0 ((n - 1 : Nat) * s))

/-- The interval from the lowest to the highest byte over all pieces, as its offset and length: R148. -/
def Desc.interval (d : Desc) (st : List Int) (base : Nat) : Int × Nat :=
  let r1 := strideReach d.n1 (st.getD 0 0)
  let r2 := strideReach d.n2 (st.getD 1 0)
  let r3 := strideReach d.n3 (st.getD 2 0)
  (base + r1.1 + r2.1 + r3.1, (r1.2 - r1.1 + (r2.2 - r2.1) + (r3.2 - r3.1)).toNat + d.len0)

/-- The alignment of the pieces of a side: R147, R149. -/
def Desc.aligned (d : Desc) (st : List Int) (base : Nat) : Bool :=
  if d.transpose then
    let a := 16 * widthOf d.tw
    base % a == 0 && st.getD 0 0 % (a : Int) == 0
  else
    base % 64 == 0 && (d.n1 == 1 || st.getD 0 0 % 64 == 0) && (d.n2 == 1 || st.getD 1 0 % 64 == 0) &&
      (d.n3 == 1 || st.getD 2 0 % 64 == 0)

/-- The first field of a descriptor that sets a reserved value or one out of range, as its byte: R146, R147, R149, R240. -/
def descFault (b : List Byte) (isGet : Bool) : Nat :=
  let fl := leAt b 52 1
  let len := leAt b 16 4
  let byte (o : Nat) : Nat × Bool := (o, leAt b o 1 != 0)
  let all : List (Nat × Bool) :=
    [(16, len == 0 || decide (len > 2 ^ 24) || (if bitOf fl 0 then len != 16 * widthOf (leAt b 53 1) else len % 64 != 0)),
     (20, bitOf fl 0 && leAt b 20 2 != 127), byte 26, byte 27,
     (52, decide (fl ≥ 128) || field fl 4 3 == 3 || (bitOf fl 1 && !isGet)), (53, decide (leAt b 53 1 ≥ 8) || (bitOf fl 0 && decide (leAt b 53 1 > 5))), (54, decide (leAt b 54 1 ≥ 63)),
     byte 55, (60, decide (leAt b 60 1 ≥ 2)), (62, decide (leAt b 62 1 ≥ 8)), byte 63]
  ((all.find? (fun f => f.2)).map (fun f => f.1)).getD 0

/-- A breach by the values alone: R146, R147, R149. -/
def Desc.valueBreach (d : Desc) (isGet : Bool) : Option Nat :=
  if d.tally = 63 ∨ (d.vol ∧ !isGet) then some 147
  else if d.len0 = 0 ∨ d.len0 > 2 ^ 24 then some 146
  else if d.transpose then
    (if d.tw > 5 ∨ d.len0 ≠ 16 * widthOf d.tw ∨ d.n1 ≠ 128 then some 149 else none)
  else if d.len0 % 64 ≠ 0 then some 147
  else none

/-- Every piece of the local side lies in WB, AB or PB: R147. -/
def Desc.localOk (d : Desc) (st : List Int) (base : Nat) : Bool :=
  d.indices.all (fun i =>
    let a := d.piece st base i.1 i.2.1 i.2.2
    decide (a ≥ 0) && inBuf a.toNat d.len0)

/-- A burst: its source and destination addresses, its length, and the block of a transposed descriptor that it belongs to (R147,
R149). -/
structure Burst where
  src : Nat
  dst : Nat
  len : Nat
  block : Nat := 0
  deriving DecidableEq, Repr

/-- Cut a piece of `len` bytes at the 256-byte boundaries of its destination: R147. -/
def cutPiece (src dst : Nat) : Nat → Nat → List Burst
  | 0, _ => []
  | f + 1, len =>
    if len = 0 then []
    else
      let k := min len (256 - dst % 256)
      { src := src, dst := dst, len := k } :: cutPiece (src + k) (dst + k) f (len - k)

/-- The bursts of a descriptor, in the order they go out: R147, R149. -/
def Desc.bursts (d : Desc) : List Burst :=
  d.indices.flatMap (fun i =>
    (cutPiece (d.piece d.srcS d.src i.1 i.2.1 i.2.2).toNat (d.piece d.dstS d.dst i.1 i.2.1 i.2.2).toNat (d.len0 / 64 + 1) d.len0).map
      (fun b => { b with block := i.2.2 * d.n2 + i.2.1 }))

/-- The bursts of a block, in order: R149. -/
def Desc.blockBursts (d : Desc) (block : Nat) : List Burst := d.bursts.filter (fun b => b.block == block)

/-- The places of a block's bursts among those of the descriptor. -/
def Desc.blockIndices (d : Desc) (block : Nat) : List Nat := (d.bursts.zipIdx.filter (fun b => b.1.block == block)).map (fun b => b.2)

/-- The rows that a block reads, in order: R149. -/
def Desc.blockRows (d : Desc) (block : Nat) : List Nat :=
  (List.range d.n1).map (fun i1 => (d.piece d.srcS d.src i1 (block % d.n2) (block / d.n2)).toNat)

/-- The bytes of a block that come before burst `i` of the descriptor. -/
def Desc.blockOffset (d : Desc) (i block : Nat) : Nat := sumN (((d.bursts.take i).filter (fun b => b.block == block)).map (fun b => b.len))

/-- The rows of a block transposed: element j of source row i lands as element i of row j, packed under R81: R149. -/
def transposeBlock (wb : Nat) (data : List Byte) : List Byte :=
  let rows := (List.range 128).map (fun i => leNat (slice data (16 * wb * i) (16 * wb)))
  (List.range 128).flatMap (fun j =>
    leBytes (16 * wb) (sumN ((List.range 128).map (fun i => (rows.getD i 0 >>> (j * wb)) % 2 ^ wb * 2 ^ (i * wb)))))

/-- The bytes a unit writes, from the bytes it read: R149. -/
def Desc.transform (d : Desc) (data : List Byte) : List Byte :=
  if d.transpose then transposeBlock (widthOf d.tw) data else data

/-- HBM's first address beyond: R142. -/
def hbmEnd : Nat := 0xC000000000
/-- The first core window: R140. -/
def winBase : Nat := 0x10000000000
/-- Beyond the last core window: R140. -/
def winEnd : Nat := 0x10100000000

/-- The queue of a remote address: R142. -/
def queueClass (addr : Nat) (isGet : Bool) : Option Nat :=
  if addr.testBit 63 then some 3
  else if addr < hbmEnd then some (if isGet then 0 else 1)
  else if winBase ≤ addr ∧ addr < winEnd then some 2
  else none

/-- ORDERED is legal only when every destination byte and the signalled tally lie in one core window of this module:
R150. `owner` is the core whose tally is signalled, and `lo`, `len` the destination's interval as global addresses. -/
def orderedOk (owner : Nat) (lo : Int) (len : Nat) : Bool :=
  let w : Int := winBase + owner * 0x1000000
  decide (w ≤ lo ∧ lo + len ≤ w + 0x1000000)

end Sys2Proof.Machine
end

