-- ==== Sys2Proof/Machine/Crypto.lean ====
section
/-!
DEFINITION. The fixed functions of bytes that the spec names: SHA-384 (R230, R316 to R320, R414), CRC-32C of packets (R349)
and CRC-32 of flits (R329), and the signatures made over bytes, whose function is in Config (entry 18).
-/

namespace Sys2Proof.Machine

/-! ### SHA-384 (FIPS 180-4) -/

/-- The k-th root of `x`, rounded down: `n` of Newton's steps down from an `r` that is no less. -/
def rootDown (k x : Nat) : Nat → Nat → Nat
  | 0, r => r
  | n + 1, r =>
    let y := ((k - 1) * r + x / r ^ (k - 1)) / k
    if y < r then rootDown k x n y else r

/-- The first 64 bits of the fractional part of the k-th root of `p`, a root below 8: a constant of FIPS 180-4. -/
def rootFraction (k p : Nat) : BitVec 64 := BitVec.ofNat 64 (rootDown k (p * 2 ^ (64 * k)) 16 (2 ^ 67))

/-- The primes below `n`, in rising order, for `n` up to 23². -/
def primesBelow (n : Nat) : List Nat :=
  (List.range n).filter (fun p => 2 ≤ p && [2, 3, 5, 7, 11, 13, 17, 19].all (fun d => p == d || p % d != 0))

/-- Round constants: from the cube roots of the first 80 primes, the last of which is 409. -/
def shaK : List (BitVec 64) := (primesBelow 410).map (rootFraction 3)

/-- The initial value of SHA-384: from the square roots of the ninth to sixteenth primes, 23 to 53. -/
def sha384Init : List (BitVec 64) := ((primesBelow 54).drop 8).map (rootFraction 2)

/-- A word rotated right. -/
def rotr (x : BitVec 64) (n : Nat) : BitVec 64 := x.rotateRight n

/-- The message schedule, newest word first: `n` words more. -/
def shaExtend : Nat → List (BitVec 64) → List (BitVec 64)
  | 0, ws => ws
  | n + 1, ws =>
    let w2 := ws.getD 1 0
    let w7 := ws.getD 6 0
    let w15 := ws.getD 14 0
    let w16 := ws.getD 15 0
    let s0 := rotr w15 1 ^^^ rotr w15 8 ^^^ (w15 >>> 7)
    let s1 := rotr w2 19 ^^^ rotr w2 61 ^^^ (w2 >>> 6)
    shaExtend n ((w16 + s0 + w7 + s1) :: ws)

/-- One round on the eight working words. -/
def shaRound (v : List (BitVec 64)) (kw : BitVec 64) : List (BitVec 64) :=
  match v with
  | [a, b, c, d, e, f, g, h] =>
    let t1 := h + (rotr e 14 ^^^ rotr e 18 ^^^ rotr e 41) + ((e &&& f) ^^^ (~~~e &&& g)) + kw
    let t2 := (rotr a 28 ^^^ rotr a 34 ^^^ rotr a 39) + ((a &&& b) ^^^ (a &&& c) ^^^ (b &&& c))
    [t1 + t2, a, b, c, d + t1, e, f, g]
  | _ => v

/-- One block of 128 bytes. -/
def shaBlock (h : List (BitVec 64)) (block : List Byte) : List (BitVec 64) :=
  let ws := (List.range 16).map (fun i => BitVec.ofNat 64 (beAt block (8 * i) 8))
  let ws := (shaExtend 64 ws.reverse).reverse
  List.zipWith (· + ·) h ((List.zipWith (· + ·) shaK ws).foldl shaRound h)

/-- The message with its padding. -/
def shaPad (m : List Byte) : List Byte :=
  let z := (128 - (m.length + 17) % 128) % 128
  m ++ (0x80 : Byte) :: (zeros z ++ beBytes 16 (8 * m.length))

/-- The words of a SHA-384 value, first word most significant. -/
def shaJoin (ws : List (BitVec 64)) : Hash := BitVec.ofNat 384 (ws.foldl (fun a w => a * 2 ^ 64 + w.toNat) 0)

/-- SHA-384 of a byte string. -/
def sha384 (m : List Byte) : Hash :=
  shaJoin (((chunksOf 128 (m.length / 128 + 2) (shaPad m)).foldl shaBlock sha384Init).take 6)

/-- A SHA-384 value as 48 octets: R7. -/
def hashBytes (h : Hash) : List Byte := beBytes 48 h.toNat

/-- The hash that 48 octets hold. -/
def hashOf (b : List Byte) : Hash := BitVec.ofNat 384 (beNat b)

/-! ### Cyclic redundancy checks -/

/-- One bit of a reflected CRC of 32 bits. -/
def crcBit (poly : BitVec 32) (c : BitVec 32) : BitVec 32 := if c.getLsbD 0 then (c >>> 1) ^^^ poly else c >>> 1

/-- One byte of a reflected CRC of 32 bits. -/
def crcByte (poly : BitVec 32) (c : BitVec 32) (b : Byte) : BitVec 32 :=
  (List.range 8).foldl (fun c _ => crcBit poly c) (c ^^^ b.setWidth 32)

/-- A reflected CRC of 32 bits that starts at ones and is inverted at the end. -/
def crc32With (poly : BitVec 32) (m : List Byte) : BitVec 32 := ~~~ (m.foldl (crcByte poly) 0xFFFFFFFF)

/-- CRC-32C (Castagnoli, RFC 3720): R349. -/
def crc32c (m : List Byte) : BitVec 32 := crc32With 0x82F63B78 m

/-- CRC-32 of IEEE 802.3: R329. -/
def crc32 (m : List Byte) : BitVec 32 := crc32With 0xEDB88320 m

/-! ### Signatures -/

/-- The number of the module identity key: R390. -/
def identityKey : Nat := 0

/-- The signature r ‖ s of some bytes under a key, over their SHA-384: R322, R390. -/
def signBy (key : Nat) (m : List Byte) : List Byte := beBytes 96 (Config.sign key (sha384 m)).toNat

/-- The key of an SPDM slot: 0 the identity key, 1 the alias key (R391 to R393). -/
def slotKey (slot : Nat) : Nat := if slot = 0 then identityKey else 1

/-- The prefix of a signed SPDM 1.3 message: the version string four times, then a context string in 36 bytes. -/
def spdmPrefix (context : List Byte) : List Byte :=
  let v : List Byte := [0x64, 0x6D, 0x74, 0x66, 0x2D, 0x73, 0x70, 0x64, 0x6D, 0x2D, 0x76, 0x31, 0x2E, 0x33, 0x2E, 0x2A]
  v ++ v ++ v ++ v ++ zeros (36 - context.length) ++ context

/-- The context string of CHALLENGE_AUTH. -/
def challengeContext : List Byte :=
  [0x72, 0x65, 0x73, 0x70, 0x6F, 0x6E, 0x64, 0x65, 0x72, 0x2D, 0x63, 0x68, 0x61, 0x6C, 0x6C, 0x65, 0x6E, 0x67, 0x65, 0x5F, 0x61, 0x75,
   0x74, 0x68, 0x20, 0x73, 0x69, 0x67, 0x6E, 0x69, 0x6E, 0x67]

/-- The context string of MEASUREMENTS. -/
def measurementsContext : List Byte :=
  [0x72, 0x65, 0x73, 0x70, 0x6F, 0x6E, 0x64, 0x65, 0x72, 0x2D, 0x6D, 0x65, 0x61, 0x73, 0x75, 0x72, 0x65, 0x6D, 0x65, 0x6E, 0x74, 0x73,
   0x20, 0x73, 0x69, 0x67, 0x6E, 0x69, 0x6E, 0x67]

/-- The signature over a transcript under the key of a slot: R393. -/
def spdmSign (slot : Nat) (context transcript : List Byte) : List Byte :=
  signBy (slotKey slot) (spdmPrefix context ++ hashBytes (sha384 transcript))

/-- A DER element: tag, length and contents (PRESUMED: entry 39). -/
def der (tag : Byte) (b : List Byte) : List Byte :=
  let n := b.length
  [tag] ++ (if n < 128 then leBytes 1 n else if n < 256 then [0x81] ++ leBytes 1 n else [0x82] ++ beBytes 2 n) ++ b

/-- A DER integer of a number in big-endian bytes: no leading zero byte but the one that keeps it positive. -/
def derInteger (b : List Byte) : List Byte :=
  let v := b.dropWhile (fun x => x == 0)
  der 0x02 (if v.headD 0x80 < 0x80 then v else zeros 1 ++ v)

/-- An ECDSA signature r ‖ s as X.509 carries it. -/
def derSignature (s : List Byte) : List Byte := der 0x30 (derInteger (s.take 48) ++ derInteger (s.drop 48))

/-- The algorithm identifier of ecdsa-with-SHA384: R391. -/
def ecdsaSha384Id : List Byte := [0x30, 0x0A, 0x06, 0x08, 0x2A, 0x86, 0x48, 0xCE, 0x3D, 0x04, 0x03, 0x03]

end Sys2Proof.Machine
end

