-- ==== Sys2Proof/Machine/Wire.lean ====
section
/-!
DEFINITION. How transactions leave by the Oalan ports: classes and credits (R333), the retry buffer (R331), and which
port carries what (R336 to R338); flits as they go out (R329, R330).
-/

namespace Sys2Proof.Machine

/-- The class of a transaction, RESP highest: R330, R333. -/
def TxKind.cls : TxKind → Nat
  | .readResp | .writeAck | .landing => 0
  | .write | .tallyAdd => 1
  | .readReq => 2
  | .strandReq | .strandGrant | .strandData | .fwMsg => 3

/-- Chunks of a message: a header and its data chunks of 16 bytes (R329, R330). -/
def LinkMsg.chunks : LinkMsg → Nat
  | .txn _ _ _ _ _ _ _ _ data => 1 + (data.length + 15) / 16
  | .beacon | .flit _ | .swapReq _ | .swapAt _ _ | .swapDone _ | .auth _ => 0

/-- Credit that a message takes, in 256-byte units: R333. -/
def LinkMsg.units (m : LinkMsg) : Nat := (16 * m.chunks + 255) / 256

/-- Flits that a message takes, each transaction beginning a flit (entry 16): R329. -/
def LinkMsg.flits (m : LinkMsg) : Nat := (m.chunks + 14) / 15

/-- The code of a transaction's kind: R330. -/
def TxKind.code : TxKind → Nat
  | .readReq => 1
  | .readResp | .landing => 2
  | .write => 3
  | .writeAck => 4
  | .tallyAdd => 5
  | .strandReq => 6
  | .strandGrant => 7
  | .strandData => 8
  | .fwMsg => 9

/-- The header chunk and the data chunks of a transaction: R330. -/
def LinkMsg.bytes : LinkMsg → List Byte
  | .txn kind core module side tag len vol dst data =>
    leBytes 1 kind.code ++ leBytes 1 ((data.length + 15) / 16) ++ leBytes 1 core ++ leBytes 1 (module + 32 * b2n side) ++ leBytes 2 tag ++
      leBytes 1 ((len + 7) / 8 - 1) ++ leBytes 1 (b2n vol) ++ leBytes 8 dst ++ padTo (16 * ((data.length + 15) / 16)) data
  | .beacon | .flit _ | .swapReq _ | .swapAt _ _ | .swapDone _ | .auth _ => []

/-- A flit: sequence number and kind, the acknowledgement of what has come in order, with `nak` or without, the credits given back, the
chunk that begins a transaction, 15 chunks filled up with a PAD, and the CRC (R329 to R331). -/
def Port.flitBytes (x : Port) (seq : Nat) (idle nak : Bool) (credits : List Nat) (start : Nat) (chunks : List Byte) : List Byte :=
  let b := leBytes 2 (seq % 4096 + 4096 * b2n idle) ++ leBytes 2 ((x.rxSeq + 4095) % 4096 + 4096 + 8192 * b2n nak) ++
    credits.flatMap (fun c => leBytes 1 (min 255 c)) ++ leBytes 1 start ++ zeros 3 ++
    padTo 240 (if chunks.length < 240 then chunks ++ [0x0F] else chunks)
  b ++ leBytes 4 (crc32 b).toNat

/-- A flit of the retry buffer as it goes out: R329, R331. -/
def Port.dataFlit (x : Port) (credits : List Nat) (f : Flit) : List Byte :=
  x.flitBytes f.seq false false credits (if f.part = 0 then 0 else 15) (slice f.msg.bytes (240 * f.part) 240)

/-- An idle flit, under the next sequence number, which it does not take (entry 16): R329. -/
def Port.idleFlit (x : Port) (nak : Bool) : List Byte := x.flitBytes x.txSeq true nak x.owed 15 []

/-- The credits that a flit has given back are owed no longer: R329. -/
def Port.paid (x : Port) : Port := { x with owed := x.owed.map (fun c => c - min 255 c) }

/-- An idle flit goes out: R329, R331. -/
def State.sendIdle (s : State) (p : Nat) (nak : Bool) : State :=
  { s.modPort p Port.paid with linkOut := s.linkOut ++ [(p, .flit ((s.port p).idleFlit nak))] }

/-- Receive buffer of a port is free again, in one class: R333. -/
def Port.owe (x : Port) (cls units : Nat) : Port := { x with owed := x.owed.set cls (x.owed.getD cls 0 + units) }

/-- The transaction of a class that would go next: the oldest of a core, green before yellow, in turn by core (R154, R333). DEDUCED: a
core's own transactions keep their order, since R337 has one path keep it (entry 16). -/
def Port.candidate (x : Port) (c : Nat) : Option Waiting :=
  let q := x.txQ.filter (fun w => w.cls == c)
  let heads := q.filter (fun w => q.find? (fun v => v.sel == w.sel) == some w)
  let green := heads.filter (fun w => !w.yellow)
  let q := if green.isEmpty then heads else green
  let turn (w : Waiting) : Nat := (w.sel + 256 - x.lastSel.getD c 256) % 257
  q.find? (fun w => q.all (fun v => turn w ≤ turn v))

/-- The waiting transaction that goes next: of the highest class that has the credit, while the retry buffer has room; a class that has
been passed over for 64 flit slots comes first (R331, R333). -/
def Port.nextTx (x : Port) : Option Waiting :=
  let starved := (List.range 4).filter (fun c => 64 ≤ x.skipped.getD c 0)
  (starved ++ List.range 4).findSome? (fun c =>
    match x.candidate c with
    | some w => if w.msg.units ≤ x.credits.getD c 0 ∧ x.unacked.length + w.msg.flits ≤ 2048 then some w else none
    | none => none)

/-- Traffic that a port in this state may carry: R332. -/
def Port.sends (p : Port) : Bool := p.state == .up

/-- The flits of a transaction, from the next sequence number on: R329, R331. -/
def Port.flitsOf (x : Port) (m : LinkMsg) : List Flit := (List.range m.flits).map (fun i => ⟨(x.txSeq + i) % 4096, m, i⟩)

/-- A port after a transaction has gone out: credit and flit numbers are taken, and the other classes have been passed over for its flits
(R331, R333). -/
def Port.sent (x : Port) (w : Waiting) : Port :=
  { x.paid with
    txQ := x.txQ.erase w, credits := x.credits.set w.cls (x.credits.getD w.cls 0 - w.msg.units)
    unacked := x.unacked ++ x.flitsOf w.msg, txSeq := (x.txSeq + w.msg.flits) % 4096, lastSel := x.lastSel.set w.cls w.sel
    skipped := (List.range 4).map (fun c =>
      if c ≠ w.cls ∧ x.txQ.any (fun v => v.cls == c) then x.skipped.getD c 0 + w.msg.flits else 0) }

/-- The next transaction goes out; a relayed one has left its relay buffer (R329 to R331, R333, R338). -/
def State.sendOne (s : State) (p : Nat) : State :=
  let x := s.port p
  if !x.sends then s
  else match x.nextTx with
    | none => s
    | some w =>
      let s' := s.modPort p (fun x => x.sent w)
      let s' := match w.via with
        | some q => s'.modPort q (fun y => y.owe w.cls w.msg.units)
        | none => s'
      { s' with linkOut := s'.linkOut ++ (x.flitsOf w.msg).map (fun f => (p, .flit (x.dataFlit (if f.part = 0 then x.owed else [0, 0, 0, 0]) f))) }

/-- Everything that can go out of a port does; one whose retry buffer is full sends an idle flit (R331). -/
def State.drainPort (s : State) (p : Nat) : State :=
  let s := (List.range (s.port p).txQ.length).foldl (fun s _ => s.sendOne p) s
  if (s.port p).sends ∧ 2048 ≤ (s.port p).unacked.length ∧ (s.port p).txQ ≠ [] then s.sendIdle p false else s

/-- The class of a message: R330, R333. -/
def LinkMsg.cls : LinkMsg → Nat
  | .txn k _ _ _ _ _ _ _ _ => k.cls
  | .beacon | .flit _ | .swapReq _ | .swapAt _ _ | .swapDone _ | .auth _ => 0

/-- The selector that a message shows: its core, 256 for a firmware message. DESIGN CHOICE: R330 writes 0xFF for firmware and for core 255
alike, and what a relay forwards under it goes as core 255's (entry 16). -/
def LinkMsg.selector : LinkMsg → Nat
  | .txn .fwMsg _ _ _ _ _ _ _ _ => 256
  | .txn _ core _ _ _ _ _ _ _ => core
  | .beacon | .flit _ | .swapReq _ | .swapAt _ _ | .swapDone _ | .auth _ => 256

/-- A transaction waits its turn at a port, under selector `sel`: R333, R337. -/
def State.portWait (s : State) (p : Nat) (w : Waiting) : State := (s.modPort p (fun x => { x with txQ := x.txQ ++ [w] })).drainPort p

/-- A green transaction waits its turn at a port: R333. -/
def State.portSend (s : State) (p : Nat) (m : LinkMsg) : State := s.portWait p { cls := m.cls, msg := m, sel := m.selector }

/-- The working ports to one peer, ascending; the spare twin port only while it carries a failed port's streams, and
none that drains or is out of service (R336, R337, R387). -/
def State.portsTo (s : State) (module : Nat) (twin : Bool) : List Nat :=
  (List.range 36).filter (fun p =>
    let x := s.port p
    (x.state == .up || x.state == .retrain) && (s.unit (808 + p)).state.serves && decide (31 ≤ p) == twin && (p != 35 || x.spareActive) &&
      x.peerModule == module)

/-- The module that relays traffic to a peer no port reaches: the lowest-numbered with working ports to both ends (R338). That it has none to
the peer is known where it has told so (entry 16). -/
def State.relayFor (s : State) (module : Nat) : Option Nat :=
  (List.range s.config.n).find? (fun m =>
    m != module && m != s.config.module && !(s.portsTo m false).isEmpty && !s.config.farDown.contains (m, module))

/-- The port by which traffic with selector `sel` leaves toward a global address: P of sel mod c, over a relay or the own
twin where no port reaches the peer (R337, R338). -/
def State.outPort (s : State) (sel a : Nat) : Option Nat :=
  let module := field a 61 56
  let twin := a.testBit 62
  let ps := if twin then s.portsTo s.config.module true else s.portsTo module false
  let ps := if ps.isEmpty ∧ !twin then
      (match s.relayFor module with
       | some r => s.portsTo r false
       | none => [])
    else ps
  if ps.isEmpty then none else ps[sel % ps.length]?

/-- The peers that no port reaches, while another module does: R338, R344. -/
def State.unreached (s : State) : List Nat :=
  (List.range s.config.n).filter (fun m => m != s.config.module && (s.portsTo m false).isEmpty && (s.relayFor m).isSome)

/-- The peers reached only through a relay are noted, and the ports to the relay marked: R338, R343, R344. -/
def State.noteRelays (s : State) : State :=
  let ms := s.unreached
  let ps := ms.flatMap (fun m => match s.relayFor m with
    | some r => s.portsTo r false
    | none => [])
  ps.foldl (fun s p => s.modPort p (fun x => { x with relay := true })) (s.modConf (fun c => { c with relayed := ms }))

/-- A firmware message goes out toward a global address, in pieces of at most 256 bytes: R330, R337, R341. Its bytes are what the firmware of
two modules agrees on: a code, the task and the matter (DESIGN CHOICE: entry 44). -/
def State.fwSend (s : State) (a code task : Nat) (data : List Byte) : State :=
  match s.outPort 256 a with
  | none => s
  | some p =>
    let b := leBytes 4 code ++ leBytes 4 task ++ data
    ((List.range ((b.length + 255) / 256)).map (fun i => slice b (256 * i) 256)).foldl (fun s e =>
      s.portSend p (.txn .fwMsg 255 s.config.module s.config.side 0 e.length false a e)) s

/-- A firmware message goes to every other module of the configuration. -/
def State.fwTell (s : State) (code task : Nat) (data : List Byte) : State :=
  ((List.range s.config.n).filter (fun m => m != s.config.module && !s.config.lost.contains m)).foldl
    (fun s m => s.fwSend (2 ^ 63 + m * 2 ^ 56) code task data) s

end Sys2Proof.Machine
end

