-- ==== Sys2Proof/Machine/Home.lean ====
section
/-!
DEFINITION. The homes of the address space (R140, R141, R168, R339): what an address names, which accesses are
admitted (R49, R67, R140, R141, R174, R197, R235), reads and writes at a home (R168, R169), the tally unit (R176) and
the scope regions (R181, R184).
-/

namespace Sys2Proof.Machine

/-- What an address names: R140, R168, R339. -/
inductive Place where
  | hbm (a : Nat)
  | win (core off : Nat)
  | remote
  | bad
  deriving DecidableEq, Repr

/-- An address of this module: R140, R142. -/
def localPlace (a : Nat) : Place :=
  if a < hbmEnd then .hbm a
  else if winBase ≤ a ∧ a < winEnd then .win ((a - winBase) / 0x1000000) ((a - winBase) % 0x1000000)
  else .bad

/-- Whether the module has a linked twin: R334, R384. -/
def State.twinLinked (s : State) : Bool := s.config.twin && !s.config.twinLost

/-- What an address that core `n` issues names: R140, R339. Its own side and module number name the module itself. -/
def State.place (s : State) (n a : Nat) : Place :=
  if a < 2 ^ 63 then localPlace a
  else if field a 61 56 ≥ s.config.n then .bad
  else if localPlace (a % 2 ^ 56) = .bad then .bad
  else if a.testBit 62 then
    let share := match (s.core n).task.bind s.task with
      | some t => t.share
      | none => false
    if s.twinLinked && share then .remote else .bad
  else if field a 61 56 = s.config.module then localPlace (a % 2 ^ 56)
  else .remote

/-- Offsets of the strand and FIFO registers that a read of at most 8 bytes may name: R197. -/
def strandReadable (off : Nat) : Bool :=
  (0xF10000 ≤ off && off < 0xF10400 && off % 64 < 24) || (0xF10400 ≤ off && off < 0xF10500) ||
  (0xF10500 ≤ off && off < 0xF105A0 && 8 ≤ off % 32 && off % 32 < 24)

/-- The rule a read of `n` bytes of a core window breaks: R49, R140, R141, R174, R197. -/
def winReadBreach (off n : Nat) : Option Nat :=
  if off + n ≤ 0xC80400 then none
  else if off < 0xD00000 then some 140
  else if off < 0xD80000 then some 49
  else if off < 0xF00000 then some 141
  else if off < 0xF10000 then (if off + n ≤ 0xF00200 then none else some 174)
  else if off < 0xFC0000 then (if n ≤ 8 ∧ strandReadable off then none else some 197)
  else if n ≤ 8 ∧ off + n ≤ 0x1000000 then none else some 141

/-- The rule a data write of `n` bytes to a core window breaks: R49, R67, R140, R141, R174, R197, R216. -/
def winWriteBreach (off n : Nat) : Option Nat :=
  if off + n ≤ bufEnd then none
  else if off < 0xC80400 then some 67
  else if off < 0xD00000 then some 140
  else if off < 0xD80000 then some 49
  else if off < 0xF00000 then some 141
  else if off < 0xF10000 then some 174
  else if off < 0xFC0000 then some 197
  else if n ≤ 8 ∧ off + n ≤ 0x1000000 then none else some 141

/-- Whether an offset is that of `READ_INDEX_n`: R197. -/
def readIndexOff (off : Nat) : Option Nat :=
  if 0xF10000 ≤ off ∧ off < 0xF10400 ∧ off % 64 = 8 then some ((off - 0xF10000) / 64) else none

/-- The tally an address names, as its owner and number: R174. -/
def tallyAt (p : Place) : Option (Nat × Nat) :=
  match p with
  | .win c off => if 0xF00000 ≤ off ∧ off < 0xF00200 ∧ off % 8 = 0 then some (c, (off - 0xF00000) / 8) else none
  | _ => none

/-- The address of a tally of this module: R140, R174. -/
def tallyAddr (core t : Nat) : Nat := winBase + core * 0x1000000 + 0xF00000 + 8 * t

/-- Whether the task's HBM ranges admit an access; a role-0 range admits no write: R235. -/
def Task.admitsHbm (t : Task) (a n : Nat) (write : Bool) : Bool :=
  t.ranges.any (fun r => decide (r.1 ≤ a ∧ a + n ≤ r.1 + r.2.1) && !(write && r.2.2 == 0))

/-- The rule that an access of a task breaks at a module's address decoder, which holds the ranges and the core set of the task's pattern:
R140, R141, R235. Without a task nothing is installed, and every home is admitted (entry 9). -/
def placeBreach (task : Option Task) (p : Place) (len : Nat) (write : Bool) : Option Nat :=
  match p with
  | .bad | .remote => some 339
  | .hbm x =>
    if x + len > hbmEnd then some 141
    else match task with
      | some t => if t.admitsHbm x len write then none else some 235
      | none => none
  | .win c off =>
    let outside := match task with
      | some t => !t.coreSet.contains c
      | none => false
    if outside then some 235 else if write then winWriteBreach off len else winReadBreach off len

/-- The task that the decoders know a core's accesses by. -/
def State.taskOf (s : State) (n : Nat) : Option Task := (s.core n).task.bind s.task

/-- The rule that an access of core `n` breaks at the address decoder of its path: R140, R141, R235, R256, R339. What another module
holds is admitted as here: the decoders of every module have the same ranges and core set (R235). -/
def State.accessBreach (s : State) (n a len : Nat) (write : Bool) : Option Nat :=
  match s.place n a with
  | .bad => some (if a < 0x20000000000 then 141 else if a < 2 ^ 63 then 256 else 339)
  | .remote => placeBreach (s.taskOf n) (localPlace (a % 2 ^ 56)) len write
  | p => placeBreach (s.taskOf n) p len write

/-- The rule that an access from another module breaks here, where the task of its core runs: R235, R339. -/
def State.outsideBreach (s : State) (x : Txn) (write : Bool) : Option Nat :=
  match s.taskOf x.core with
  | none => none
  | some t =>
    if x.side != s.config.side && !t.share then some 339
    else placeBreach (some t) (localPlace (x.dst % 2 ^ 56)) (max x.len x.data.length) write

/-- A tag word of ACC: R63. -/
def Phys.tagWord (p : Phys) (e : Nat) : Nat :=
  pack [(0, wrapN 8 (mget 0 p.eTag e)), (8, mget 0 p.rTag e), (13, b2n (p.ovf.contains e)),
        (14, b2n (p.sat.contains e))]

/-- The 8-byte word of the register areas at an aligned offset, as a window read returns it; an index that no
register has reads 0 (entry 10): R52, R174, R197. -/
def State.regWord (s : State) (n off : Nat) : Nat :=
  if off < 0xF10000 then (s.tallyReg n off).getD 0
  else if off < 0xFC0000 then (s.strandReg n off).getD 0
  else (s.coreReg n ((off - 0xFC0000) / 8)).getD 0

/-- A byte of a core window: R140. -/
def State.winByte (s : State) (n off : Nat) : Byte :=
  let p := s.pcore n
  if off < bufEnd then Memory.read p.mem off
  else if off < 0xC80000 then
    let v : BitVec 32 := mget 0 p.acc ((off - bufEnd) / 4)
    v.extractLsb' (8 * (off % 4)) 8
  else if off < 0xC80400 then BitVec.ofNat 8 (p.tagWord ((off - 0xC80000) / 4) >>> (8 * (off % 4)))
  else BitVec.ofNat 8 (s.regWord n (off - off % 8) >>> (8 * (off % 8)))

/-- Where the calibration rows lie, in the top 4 GiB of HBM: the last 4,096-byte block of each channel (R273; DESIGN CHOICE: entry 34). -/
def calRowBase : Nat := hbmEnd - 0x200000

/-- What a read of HBM finds: in the calibration rows, the bit string that boot has written (R273). -/
def State.hbmRead (s : State) (a len : Nat) : List Byte :=
  match s.boot.calRow with
  | none => Memory.readN s.hbm a len
  | some k =>
    if a + len ≤ calRowBase then Memory.readN s.hbm a len
    else (List.range len).map (fun i => if a + i < calRowBase then Memory.read s.hbm (a + i) else Config.calRow k (a + i - calRowBase))

/-- What a read finds at its home: R168, R169. -/
def State.homeRead (s : State) (p : Place) (len : Nat) : List Byte :=
  match p with
  | .hbm a => s.hbmRead a len
  | .win c off => (List.range len).map (fun i => s.winByte c (off + i))
  | _ => zeros len

/-- A read at a core's external port passes the corrector: R135. -/
def State.placeRead (s : State) (p : Place) (len : Nat) : State :=
  match p with
  | .win c off => s.readWeak c [(off, len)]
  | _ => s

/-- Note, for the referee, bursts of a core's own window that another agent has written: R247. -/
def State.noteWrite (s : State) (c off len : Nat) (byOther : Bool) : State :=
  if byOther ∧ 0 < len then
    s.modCore c (fun x =>
      { x with unacquired := ((List.range ((off + len - 1) / 256 + 1 - off / 256)).map (fun i => off / 256 + i)).foldl
                 (fun l b => if l.contains b then l else l ++ [b]) x.unacquired })
  else s

/-- The channel that holds an HBM address, 32 × stack + channel: R447. -/
def hbmChannel (a : Nat) : Nat := 32 * (a / 4096 % 16) + a / 65536 % 32

/-- The byte of its channel at which an HBM address lies: R447. -/
def hbmWithin (a : Nat) : Nat := a / 4096 / 512 * 4096 + a % 4096

/-- Whether the channel of an HBM address accepts no access yet: since the exit from self-refresh it has not run its window and its
re-centring decision (R277). -/
def State.hbmShut (s : State) (a : Nat) : Bool :=
  let c := s.channel (hbmChannel a)
  c.windowExit != s.cal.exits || c.recentreExit != s.cal.exits

/-- Whether a channel of a range of HBM is shut, or in a retraining window, so that an access by the firmware waits (R274, R277). The
blocks of 4,096 bytes go round all 512 channels. -/
def State.rangeShut (s : State) (a len : Nat) : Bool :=
  len != 0 && (List.range (min 512 ((a + len - 1) / 4096 + 1 - a / 4096))).any (fun i =>
    s.hbmShut (a + 4096 * i) || (s.channel (hbmChannel (a + 4096 * i))).isOpen)

/-- Whether a read of HBM waits for its channel to open (R277) or to reopen: no posted write holds newer data (R274). -/
def State.hbmWaits (s : State) (a n : Nat) : Bool :=
  let c := s.channel (hbmChannel a)
  let b := hbmWithin a
  s.hbmShut a || (c.isOpen && !c.posted.any (fun w => w.1 ≤ b && b + n ≤ w.1 + w.2))

/-- A core window whose physical core was forced out of service at the end of a drain is fenced: R388. -/
def State.fenced (s : State) (c : Nat) : Bool :=
  let u := s.unit (s.physOf c)
  (u.state == .disabled || u.state == .retired) && u.cause == 0x0A

/-- A data write performed at its home: R169, R170. A write to HBM is performed on acceptance, and stays posted while its
channel is closed (R274). Writes to read-only registers are accepted and ignored (R8), and so are writes to a fenced core (R388). -/
def State.homeWrite (s : State) (p : Place) (writer : Nat) (bs : List Byte) : State :=
  match p with
  | .hbm a =>
    let s := if (s.channel (hbmChannel a)).isOpen then
        s.modChannel (hbmChannel a) (fun c => { c with posted := c.posted ++ [(hbmWithin a, bs.length)] }) else s
    { s with hbm := Memory.writeN s.hbm a bs }
  | .win c off =>
    if s.fenced c then s
    else if off + bs.length ≤ bufEnd then (s.bufWrite c off bs).noteWrite c off bs.length (writer != c) else s
  | _ => s

/-! ### Scopes -/

/-- Whether a home lies in the region of a scope, relative to core `n`: R181. -/
def inRegion (n scope a : Nat) : Bool :=
  if a.testBit 63 then scope == 3
  else if a < hbmEnd then 2 ≤ scope
  else
    let c := (a - winBase) / 0x1000000
    match scope with
    | 0 => c == n
    | 1 => c / 32 == n / 32
    | _ => true

/-- An acquire is satisfied: entries of the region are marked so that no later read combines with them, and the
referee's record of unacquired writes is cleared: R184, R247. -/
def State.acquire (s : State) (n scope : Nat) : State :=
  s.modCore n (fun c =>
    { c with unacquired := [],
             combine := c.combine.map (fun e => if inRegion n scope e.addr then { e with marked := true } else e) })

/-! ### The tally unit -/

/-- The count of a tally. -/
def State.tally (s : State) (n t : Nat) : BitVec 32 := mget 0 (s.core n).tallies t

/-- Set the count of a tally. -/
def State.setTally (s : State) (n t : Nat) (v : BitVec 32) : State :=
  s.modCore n (fun c => { c with tallies := mset c.tallies t v })

/-- Whether a wait is met: R176. -/
def waitMet (count target : BitVec 32) : Bool := decide ((count - target).toInt ≥ 0)

/-- Whether a take can be granted: R176. -/
def takeOk (count : BitVec 32) : Bool := decide (count.toInt ≥ 1)

/-- A release or grant of the unit: known in that cycle on the owner's own core, on its way to another (R177, R193). -/
def State.answer (s : State) (owner : Nat) (r : TallyReq) : State :=
  let s := s.modCore r.core (fun c =>
    { c with held := c.held.map (fun h => { h with granted := true, arrived := h.arrived || r.core == owner }) })
  if r.core = owner then s.acquire r.core r.scope else s.stir r.core

/-- Add a request, keeping them in ascending order of the requester. -/
def insertReq (r : TallyReq) : List TallyReq → List TallyReq
  | [] => [r]
  | x :: xs => if r.core ≤ x.core then r :: x :: xs else x :: insertReq r xs

/-- The unit's cycle for one tally: every met wait is released, then takes are granted in ascending core order while
the count lasts: R176. -/
def State.serviceTally (s : State) (owner t : Nat) : State :=
  let count := s.tally owner t
  let met (r : TallyReq) : Bool := r.tally == t && match r.target with
    | some x => waitMet count x
    | none => false
  let reqs := (s.core owner).reqs
  let s := s.modCore owner (fun c => { c with reqs := reqs.filter (fun r => !met r) })
  let s := (reqs.filter met).foldl (fun s r => s.answer owner r) s
  ((reqs.filter (fun r => r.tally == t && r.target.isNone))).foldl (fun s r =>
    if takeOk (s.tally owner t) then
      ((s.setTally owner t (s.tally owner t - 1)).modCore owner
        (fun c => { c with reqs := c.reqs.filter (fun x => x.core != r.core) })).answer owner r
    else s) s

/-- An add reaches the owner's tally unit and is applied in that cycle: R176, R177. -/
def State.addTally (s : State) (owner t : Nat) (v : BitVec 32) : State :=
  (s.setTally owner t (s.tally owner t + v)).serviceTally owner t

/-- A request reaches the owner's unit: R176, R177. -/
def State.request (s : State) (owner : Nat) (r : TallyReq) : State :=
  (s.modCore owner (fun c => { c with reqs := insertReq r (c.reqs.filter (fun x => x.core != r.core)) })).serviceTally
    owner r.tally

/-! ### Adds on their way and releases -/

/-- Put a transaction in flight under a fresh number: R193. -/
def State.send (s : State) (x : Txn) : State :=
  let (id, s) := s.fresh
  let s : State := { s with flight := s.flight ++ [{ x with id := id }] }
  match x.origin.core? with
  | some n => s.stir n
  | none => s

/-- A transaction by its number. -/
def State.txn (s : State) (id : Nat) : Option Txn := s.flight.find? (fun x => x.id == id)

/-- Change a transaction. -/
def State.modTxn (s : State) (id : Nat) (f : Txn → Txn) : State :=
  { s with flight := s.flight.map (fun x => if x.id = id then f x else x) }

/-- A transaction leaves flight. -/
def State.dropTxn (s : State) (id : Nat) : State := { s with flight := s.flight.filter (fun x => x.id != id) }

/-- Where a transaction goes: one from another module names this one (R339). -/
def State.txnPlace (s : State) (x : Txn) : Place :=
  if x.origin == .outside then localPlace (x.dst % 2 ^ 56) else s.place x.core x.dst

/-- Whether the task's core set keeps an add from reaching a core: R235. -/
def State.addBreach (s : State) (n c : Nat) : Bool :=
  match s.taskOf n with
  | some t => !t.coreSet.contains c
  | none => false

/-- The rule that a transaction breaks on its way to another module: R140, R141, R174, R235, R339. -/
def State.farBreach (s : State) (n : Nat) (x : Txn) : Option Nat :=
  match x.kind with
  | .readReq => s.accessBreach n x.dst x.len false
  | .write => s.accessBreach n x.dst x.data.length true
  | .tallyAdd => match tallyAt (localPlace (x.dst % 2 ^ 56)) with
    | some (c, _) => if s.addBreach n c then some 235 else none
    | none => some 174
  | _ => none

/-- The message that carries a transaction of core `n` to another module: R330. A STRAND_REQ carries its endpoint and G - 1 in place
of a tag. -/
def State.linkMsg (s : State) (n id : Nat) (x : Txn) : LinkMsg :=
  .txn x.kind n s.config.module s.config.side (if x.kind = .strandReq then x.aux % 65536 else id % 65536)
    (if x.kind = .readReq ∨ x.kind = .strandReq then x.len else x.data.length) x.vol x.dst x.data

/-- What orders short-path operations among themselves: the core window or the 256-byte HBM burst that an address
names (R157). -/
def State.shortHome (s : State) (n a : Nat) : Nat × Nat :=
  match s.place n a with
  | .hbm x => (0, x / 256)
  | .win c _ => (1, c)
  | .remote => (2, if a % 2 ^ 56 < hbmEnd then a / 256 else a / 0x1000000)
  | .bad => (3, a)

/-- Whether an operation waits before its link: its release is still to be made, or its message is held back behind an earlier one (R157). -/
def State.shortUnsent (s : State) (n : Nat) (o : ShortOp) : Bool :=
  (s.core n).rels.any (fun r => r.origin == .short n o.id) || s.flight.any (fun x => x.origin == .short n o.id && x.unsent)

/-- Whether an earlier short-path operation to the same home has yet to go onto the link: R157. -/
def State.linkBlocked (s : State) (n : Nat) (x : Txn) : Bool :=
  match x.origin with
  | .short _ id => (((s.core n).short.takeWhile (fun o => o.id != id)).any (fun o =>
      s.shortHome n o.remote == s.shortHome n x.dst && s.shortUnsent n o))
  | _ => false

/-- A transaction of core `n` sets out: toward a home of this module it is in flight; toward another module its message also goes onto
a link, behind the earlier short-path operations to its home, unless the address decoder ends the task (R154, R157, R167, R330, R337). -/
def State.launch (s : State) (n : Nat) (x : Txn) (yellow : Bool := false) : State :=
  match s.place n x.dst with
  | .remote =>
    match s.farBreach n x with
    | some rule => s.programFault n rule x.dst
    | none =>
      let id := s.nextId
      let port := s.outPort n x.dst
      let m := s.linkMsg n id x
      let held := s.linkBlocked n x
      let s := s.send { x with port := port, module := s.config.module, side := s.config.side, unsent := held }
      match port with
      | none => s
      | some p => if held then s else s.portWait p { cls := m.cls, msg := m, sel := n, yellow := yellow }
  | _ => s.send x

/-- Messages of core `n` that no earlier operation to their home holds back any longer go onto their links, oldest first: R157. -/
def State.sendHeld (s : State) (n : Nat) : State :=
  (s.flight.filter (fun x => x.unsent && x.core == n)).foldl (fun s x =>
    if s.linkBlocked n x then s
    else
      let s := s.modTxn x.id (fun y => { y with unsent := false })
      match x.port with
      | none => s
      | some p =>
        let m := s.linkMsg n x.id x
        s.portWait p { cls := m.cls, msg := m, sel := n }) s

/-- A tally add by core `n` sets out for an address. That of a `tally.sig` reaches the core's own tally in that cycle;
any other is in flight until TALLY_ADD (R177). -/
def State.sendAdd (s : State) (n a : Nat) (v : BitVec 32) (origin : Origin) : State :=
  let go := s.launch n { id := 0, kind := .tallyAdd, core := n, dst := a, data := leBytes 4 v.toNat, origin := origin }
  match origin, tallyAt (s.place n a) with
  | .release _ _, some (c, t) => if c = n then s.addTally c t v else go
  | _, _ => go

/-- An outbound operation is performed and acknowledged: nothing waits for it any longer: R182, R183, R448. -/
def Core.acked (c : Core) (id : Nat) : Core :=
  { c with rels := c.rels.map (fun r => { r with waits := r.waits.filter (fun w => w != id) }),
           queues := c.queues.map (fun q =>
             (q.1, q.2.map (fun e => { e with covers := e.covers.filter (fun w => w != id) }))),
           cable := c.cable.map (fun k => { k with
             covers := k.covers.filter (fun w => w != id), loadCovers := k.loadCovers.filter (fun w => w != id),
             storeCovers := k.storeCovers.filter (fun w => w != id) }),
           sends := c.sends.map (fun e => (e.1, { e.2 with queue := e.2.queue.map (fun m =>
             { m with covers := m.covers.filter (fun w => w != id) }) })) }

/-- The outbound operations of a core still outstanding whose homes lie in a scope's region, those of rows before the one that is issuing:
R182, R448. -/
def State.outbound (s : State) (n scope : Nat) : List Nat :=
  let c := s.core n
  let before (id : Nat) : Bool := c.rowFrom.all (fun k => decide (id < k))
  let puts := (c.queues.flatMap (fun q => q.2)).filter (fun e =>
    !e.isGet && e.desc.bursts.any (fun b => inRegion n scope b.dst))
  let shorts := c.short.filter (fun o =>
    !o.done && (o.kind == 8 || o.kind == 10 || o.kind == 11) && inRegion n scope o.remote)
  let msgs := c.sends.flatMap (fun e =>
    let a := if e.2.tModule = s.config.module then winBase + e.2.tCore * 0x1000000 else 2 ^ 63
    if inRegion n scope a then e.2.queue.map (fun m => m.id) else [])
  let cable := match c.cable with
    | some k =>
      if 8 ≤ k.stages ∧ k.store.bursts.any (fun b => inRegion n scope b.dst) = true then [k.id] else []
    | none => []
  (puts.map (fun e => e.id) ++ shorts.map (fun o => o.id) ++ msgs ++ cable).filter before

/-- An ACKED release: its add sets out once every covered write is acknowledged, at once when nothing is outstanding:
R183. -/
def State.release (s : State) (n a : Nat) (v : BitVec 32) (waits : List Nat) (origin : Origin) : State :=
  if waits.isEmpty then s.sendAdd n a v origin
  else
    let (id, s) := s.fresh
    s.modCore n (fun c =>
      { c with rels := c.rels ++ [{ id := id, addr := a, value := v, waits := waits, origin := origin }] })

/-! ### Scoreboard counts -/

/-- Whether two spans share a byte. -/
def overlaps (a n b m : Nat) : Bool := decide (0 < n ∧ 0 < m ∧ a < b + m ∧ b < a + n)

/-- The enabled ranges a span overlaps, in rising order: R33 to R36. -/
def Core.rangesOf (c : Core) (off n : Nat) : List Nat :=
  (c.ranges.filter (fun r => r.2.enable && overlaps r.2.base (r.2.fin - r.2.base) off n)).map (fun r => r.1)

/-- Raise the outstanding counts of ranges: R35. -/
def Core.countUp (c : Core) (rs : List Nat) : Core :=
  rs.foldl (fun c r => { c with ranges := mset c.ranges r { (mget {} c.ranges r : Range) with
    outstanding := (mget {} c.ranges r : Range).outstanding + 1 } }) c

/-- Lower the outstanding counts of ranges: R35. -/
def Core.countDown (c : Core) (rs : List Nat) : Core :=
  rs.foldl (fun c r => { c with ranges := mset c.ranges r { (mget {} c.ranges r : Range) with
    outstanding := (mget {} c.ranges r : Range).outstanding - 1 } }) c

end Sys2Proof.Machine
end

