-- ==== Sys2Proof/Machine/Image.lean ====
section
/-!
DEFINITION. The pattern image as data: header, segments, weight references (R229, R233), signature block (R230), manifest
(R231), core records (R232) and auxiliary tables (R233). Offsets count from byte 0 of the image.
-/

namespace Sys2Proof.Machine

/-! ### Header and tables of the image -/

/-- `image_len`: R229. -/
def imgLen (b : List Byte) : Nat := leAt b 8 8
/-- `man_off`: R229. -/
def imgMan (b : List Byte) : Nat := leAt b 16 4
/-- `seg_off`: R229. -/
def imgSegOff (b : List Byte) : Nat := leAt b 24 4
/-- `seg_count`: R229. -/
def imgSegCount (b : List Byte) : Nat := leAt b 28 4
/-- `wref_off`: R229. -/
def imgWrefOff (b : List Byte) : Nat := leAt b 32 4
/-- `wref_count`: R229. -/
def imgWrefCount (b : List Byte) : Nat := leAt b 36 2
/-- `sig_off`: R229. -/
def imgSigOff (b : List Byte) : Nat := leAt b 40 4

/-- H: R230. -/
def imgHash (b : List Byte) : Hash := sha384 (b.take (imgSigOff b))

/-- An entry of the segment table: core, rows, offset of the row data: R233. -/
structure Segment where
  core : Nat
  rows : Nat
  off : Nat
  deriving DecidableEq, Repr

/-- Segment `i`: R233. -/
def segAt (b : List Byte) (i : Nat) : Segment :=
  let e := slice b (imgSegOff b + 16 * i) 16
  { core := leAt e 0 1, rows := leAt e 2 2, off := leAt e 4 4 }

/-- Row `r` of a segment; rows beyond its length are empty: R233. -/
def segRow (b : List Byte) (g : Segment) (r : Nat) : BitVec 512 :=
  if r < g.rows then BitVec.ofNat 512 (leAt b (g.off + 64 * r) 64) else 0

/-- A weight reference: R233. -/
structure WRef where
  hash : Hash
  len : Nat
  place : Nat
  deriving DecidableEq, Repr

/-- Weight reference `i`: R233. -/
def wrefAt (b : List Byte) (i : Nat) : WRef :=
  let e := slice b (imgWrefOff b + 64 * i) 64
  { hash := hashOf (e.take 48), len := leAt e 48 8, place := leAt e 56 8 }

/-- The weight references in table order. -/
def wrefs (b : List Byte) : List WRef := (List.range (imgWrefCount b)).map (wrefAt b)

/-- Whether module `m` places a weight object: R233. -/
def WRef.placesOn (w : WRef) (m : Nat) : Bool := !w.place.testBit 63 || field w.place 61 56 == m

/-- The HBM address of a placed weight object: R233. -/
def WRef.addr (w : WRef) : Nat := field w.place 39 0

/-- W: R317. -/
def imgWeights (b : List Byte) : Hash := sha384 ((wrefs b).flatMap (fun w => hashBytes w.hash))

/-! ### Manifest -/

/-- A range of the HBM range table: R233. -/
structure HbmRange where
  base : Nat
  len : Nat
  role : Nat
  deriving DecidableEq, Repr

/-- The manifest header and its tables: R231, R233. -/
structure Manifest where
  cores : Nat
  modules : Nat
  dual : Bool
  twin : Nat
  optSpill : Bool
  coreSet : List Nat
  gangs : List (Nat × Nat)
  coreOff : Nat
  auxOff : Nat
  auxLen : Nat
  hbm : List HbmRange
  ruleId : Nat
  layers : Nat
  fmtArea : Nat
  inMax : Nat
  outMax : Nat
  pipsTotal : Nat
  deriving DecidableEq, Repr

/-- The manifest of an image: R231. -/
def manifestOf (b : List Byte) : Manifest :=
  let m := slice b (imgMan b) 128
  let g := leAt m 40 4
  let h := leAt m 56 4
  { cores := leAt m 0 2, modules := leAt m 2 1, dual := leAt m 3 1 == 1, twin := leAt m 4 1,
    optSpill := bitOf (leAt m 5 1) 0,
    coreSet := (List.range 256).filter (fun n => bitOf (leAt m (8 + n / 8) 1) (n % 8)),
    gangs := (List.range (leAt m 6 2)).map (fun i => (leAt b (g + 4 * i) 1, leAt b (g + 4 * i + 1) 1)),
    coreOff := leAt m 44 4, auxOff := leAt m 48 4, auxLen := leAt m 52 4,
    hbm := (List.range (leAt m 60 2)).map (fun i =>
      { base := leAt b (h + 16 * i) 8, len := leAt b (h + 16 * i + 8) 6, role := leAt b (h + 16 * i + 14) 1 }),
    ruleId := leAt m 64 1, layers := leAt m 66 2, fmtArea := leAt m 68 8, inMax := leAt m 76 4,
    outMax := leAt m 80 4, pipsTotal := leAt m 84 4 }

/-- The first range of a role: R315, R320. -/
def Manifest.firstRange (m : Manifest) (role : Nat) : Option HbmRange := m.hbm.find? (fun r => r.role == role)

/-- Bytes of an input slot: R370. -/
def Manifest.inSlot (m : Manifest) : Nat := (64 + m.inMax + 4095) / 4096 * 4096
/-- T, bytes of a result slot: R370. -/
def Manifest.outSlot (m : Manifest) : Nat := (m.outMax + 8 + 4095) / 4096 * 4096

/-! ### Register images -/

/-- `SB_RANGE_n` from its image: R33. -/
def rangeOfWord (w : Nat) : Range :=
  { base := field w 23 0, fin := field w 47 24, outstanding := field w 55 48, enable := bitOf w 63 }
/-- `CB_REGION_n` from its image: R130. -/
def regionOfWord (w : Nat) : CbRegion :=
  { base := field w 23 0, fin := field w 47 24, width := field w 50 48, enable := bitOf w 63 }
/-- `SKEIN_CFG_n` from its image: R198. -/
def skeinOfWord (w : Nat) : Skein :=
  { base := field w 23 0, log2 := field w 28 24, notify := field w 35 30, notifyEn := bitOf w 36, enable := bitOf w 63 }
/-- `SEND_CFG_e` from its image: R198. -/
def sendOfWord (w : Nat) : SendEp :=
  { tCore := field w 7 0, tModule := field w 13 8, tSkein := field w 17 14, enable := bitOf w 63 }

/-- A resident entry: R233. -/
structure Resident where
  ref : Nat
  off : Nat
  win : Nat
  len : Nat
  deriving DecidableEq, Repr

/-- A core record: R232. -/
structure CoreRec where
  core : Nat
  entryBank : Nat
  entryRow : Nat
  flips : List Nat
  pipAllot : Nat
  bwRate : Nat
  bwDepth : Nat
  sigmode : Nat
  fifoW : List Nat
  tallyMask : Nat
  reserved : List (Nat × Nat)
  residents : List Resident
  ranges : List Range
  regions : List CbRegion
  skeins : List Skein
  sends : List SendEp
  tallyInit : List Nat
  deriving DecidableEq, Repr

/-- The `i`-th core record: R232. -/
def coreRecAt (b : List Byte) (m : Manifest) (i : Nat) : CoreRec :=
  let e := slice b (m.coreOff + 1024 * i) 1024
  let fo := leAt e 4 4
  let ro := leAt e 56 4
  { core := leAt e 0 1, entryBank := field (leAt e 1 1) 0 0, entryRow := leAt e 2 2,
    flips := (List.range (leAt e 8 2)).map (fun k => leAt b (fo + 2 * k) 2),
    pipAllot := leAt e 10 2,
    bwRate := if leAt e 12 2 = 0 then 819 else leAt e 12 2,
    bwDepth := if leAt e 14 2 = 0 then 4096 else leAt e 14 2,
    sigmode := field (leAt e 16 1) 3 0,
    fifoW := (List.range 4).map (fun k => leAt e (17 + k) 1),
    tallyMask := leAt e 24 8,
    reserved := (List.range 3).map (fun k => (leAt e (32 + 8 * k) 4, leAt e (36 + 8 * k) 4)),
    residents := (List.range (leAt e 60 2)).map (fun k =>
      { ref := leAt b (ro + 16 * k) 2, off := leAt b (ro + 16 * k + 4) 4, win := leAt b (ro + 16 * k + 8) 4,
        len := leAt b (ro + 16 * k + 12) 4 }),
    ranges := (List.range 32).map (fun k => rangeOfWord (leAt e (64 + 8 * k) 8)),
    regions := (List.range 8).map (fun k => regionOfWord (leAt e (320 + 8 * k) 8)),
    skeins := (List.range 16).map (fun k => skeinOfWord (leAt e (384 + 8 * k) 8)),
    sends := (List.range 16).map (fun k => sendOfWord (leAt e (512 + 8 * k) 8)),
    tallyInit := (List.range 63).map (fun k => leAt e (640 + 4 * k) 4) }

/-- The core records in table order: R231, R232. -/
def coreRecs (b : List Byte) : List CoreRec :=
  let m := manifestOf b
  (List.range m.cores).map (coreRecAt b m)

/-- The record of a logical core, if the image reserves it. -/
def recFor (b : List Byte) (n : Nat) : Option CoreRec := (coreRecs b).find? (fun r => r.core == n)

end Sys2Proof.Machine
end

