-- ==== Sys2Proof/Machine/Recover.lean ====
section
/-!
DEFINITION. Fault absorption as shared operations (R372 to R388): the unit state table and its changes (R385), working cores
and the ring-order map (R43, R375), the fit tests (R243, R290, R378), degradation (R377), and the detected error that stops
tasks for replay (R324, R372, R374).
-/

namespace Sys2Proof.Machine

/-! ### Units -/

/-- The code of a unit's state: R385. -/
def UState.code : UState → Nat
  | .inService => 0
  | .spare => 1
  | .draining => 2
  | .disabled => 3
  | .retired => 4
  | .suspect => 5

/-- Whether a physical core works: IN_SERVICE or SPARE: R375. -/
def State.working (s : State) (p : Nat) : Bool :=
  decide (p < 288) && match (s.unit p).state with
  | .inService | .spare => true
  | .draining | .disabled | .retired | .suspect => false

/-- The working physical cores of a panel, in ring order: R43, R375. -/
def State.workingOn (s : State) (panel : Nat) : List Nat :=
  ((List.range 36).map (fun i => 36 * panel + i)).filter s.working

/-- Free spare cores of a panel: its spare count, 0 when negative: R366, R375. -/
def State.spares (s : State) (panel : Nat) : Nat := (s.workingOn panel).length - 32

/-- The logical core that a physical core stands for: R43. -/
def State.logicalOf (s : State) (p : Nat) : Option Nat := (List.range 256).find? (fun n => s.physOf n == p)

/-- The physical core of a logical core that has none: no physical core has this number (R375, R378). -/
def noCore : Nat := 0x1FF

/-- The logical field of an entry: the logical core that a map has given the physical core since reset, 0x1FF when none (R385). -/
def State.logicalCode (s : State) (u : Nat) : Nat :=
  if u < 288 then ((s.map.find? (fun e => e.2 == u)).map (fun e => e.1)).getD 0x1FF else 0x1FF

/-- The unit index of a panel: R385. -/
def uPanel (p : Nat) : Nat := 288 + p
/-- The unit index of a channel: R385. -/
def uChannel (c : Nat) : Nat := 296 + c
/-- The unit index of a port: R385. -/
def uPort (p : Nat) : Nat := 808 + p
/-- The unit index of a bay: R385. -/
def uBay (b : Nat) : Nat := 844 + b

/-- An entry changes: its generation rises, saturating (R269), and UNIT_CHANGE is recorded (R385, R416). -/
def State.changeUnit (s : State) (u : Nat) (st : UState) (cause : Nat) (mgmt : Bool) : State :=
  let e := s.unit u
  let g := satAdd (2 ^ 32 - 1) e.generation 1
  (s.modUnit u (fun e => { e with state := st, cause := cause, mgmt := mgmt, generation := g })).emit 0x0064 srcCP
    (leBytes 2 u ++ leBytes 1 e.state.code ++ leBytes 1 st.code ++ leBytes 1 cause ++ leBytes 4 g ++
      leBytes 2 (s.logicalCode u))

/-- A physical core gains one suspicion mark: R326, R381, R385. -/
def State.markUnit (s : State) (u : Nat) : State :=
  let e := s.unit u
  (s.modUnit u (fun e => { e with marks := min 15 (e.marks + 1) })).changeUnit u e.state 0x0B true

/-- The HBM channels that a manifest's ranges lie on, by blocks of the interleave: R233. -/
def Manifest.channels (m : Manifest) : List Nat :=
  (m.hbm.flatMap (fun r => (List.range (min 512 ((r.len + 8191) / 4096))).map (fun i => hbmChannel (r.base + 4096 * i)))).eraseDups

/-! ### Fit -/

/-- The manifest of a resident pattern. -/
def Pattern.man (p : Pattern) : Manifest := manifestOf p.image

/-- check_mode in force: a DEBUG load runs with NONE (R246). -/
def Pattern.dual (p : Pattern) : Bool := p.man.dual && !p.debug
/-- twin_mode in force: a DEBUG load runs with 0 (R246). -/
def Pattern.twin (p : Pattern) : Nat := if p.debug then 0 else p.man.twin

/-- Logical cores that some image reserves. -/
def reservedBy (imgs : List (List Byte)) : List Nat :=
  let sets := imgs.map (fun b => (manifestOf b).coreSet)
  (List.range 256).filter (fun n => sets.any (fun c => c.contains n))

/-- Reserved cores of one panel. -/
def onPanel (cs : List Nat) (panel : Nat) : List Nat := cs.filter (fun n => n / 32 == panel)

/-- The largest pip_allot that reserves a core: R243. -/
def allotOf (imgs : List (List Byte)) (n : Nat) : Nat :=
  maxN (imgs.map (fun b => match recFor b n with
    | some r => r.pipAllot
    | none => 0))

/-- Oalan ports brought up: R290. -/
def State.portsUp (s : State) : Nat :=
  ((List.range 36).filter (fun p => (s.port p).state == .up || (s.port p).state == .retrain)).length

/-- fit_total of a resident set: R290. -/
def State.fitTotal (s : State) (imgs : List (List Byte)) : Nat :=
  let rs := reservedBy imgs
  let other := ((List.range 288).filter (fun p => s.working p && match s.logicalOf p with
    | some n => !rs.contains n
    | none => true)).length
  let f0 := 1200 + 2400 + 16 * 560 + 120 + 180 * s.portsUp + 16 * rs.length + 2 * other
  let a := sumN (rs.map (allotOf imgs))
  f0 + (f0 + a + 8) / 9 + a

/-- The reserved cores of a resident set that the panels of an image have no working core for: R243. -/
def State.unfitCores (s : State) (imgs : List (List Byte)) (img : List Byte) : List Nat :=
  let rs := reservedBy imgs
  (List.range 8).flatMap (fun p =>
    if (onPanel (manifestOf img).coreSet p).isEmpty then [] else (onPanel rs p).drop (s.workingOn p).length)

/-- FIT_CORES of an image in a resident set: every panel it uses has working cores for all reserved cores (R243). -/
def State.fitCores (s : State) (imgs : List (List Byte)) (img : List Byte) : Bool := (s.unfitCores imgs img).isEmpty

/-- The cores of an image for which a panel has no second working core, beside those that the resident set maps: R243. -/
def State.singleCores (s : State) (imgs : List (List Byte)) (img : List Byte) : List Nat :=
  let rs := reservedBy imgs
  (List.range 8).flatMap (fun p => (onPanel (manifestOf img).coreSet p).drop ((s.workingOn p).length - (onPanel rs p).length))

/-- FIT_DUAL of an image in a resident set: a second working core for each of its cores (R243). -/
def State.fitDual (s : State) (imgs : List (List Byte)) (img : List Byte) : Bool := (s.singleCores imgs img).isEmpty

/-- The images of the resident set. -/
def State.images (s : State) : List (List Byte) := s.patterns.map (fun p => p.image)

/-- The tests of R378 on a resident pattern. -/
def State.fits (s : State) (p : Pattern) : Bool :=
  s.fitCores s.images p.image && (!p.dual || s.fitDual s.images p.image) && decide (s.fitTotal s.images ≤ s.power.cap)

/-- Every resident pattern is tested again against the working hardware; queued tasks of a pattern that does not fit end
with DEGRADED (R378). -/
def State.refit (s : State) : State :=
  let s : State := { s with patterns := s.patterns.map (fun p => { p with unfit := !s.fits p }) }
  { s with tasks := s.tasks.map (fun t =>
      if t.state = .queued ∧ (s.pattern t.handle).any (fun p => p.unfit) then t.finish stDegraded else t) }

/-- A unit changes state, and the resident patterns are tested again: R378, R385. -/
def State.setUnit (s : State) (u : Nat) (st : UState) (cause : Nat) (mgmt : Bool) : State :=
  (s.changeUnit u st cause mgmt).refit

/-! ### Bays and degradation -/

/-- L of a cartridge in per cent: R407. -/
def Cartridge.life (c : Cartridge) : Nat := max c.pctUsed ((c.written * 100 + 14 * 10 ^ 15 - 1) / (14 * 10 ^ 15))

/-- The bay state of GET_HEALTH: 0 empty or not mounted, 1 mounted, 2 warning, 3 read-only, 4 retired: R366, R409. -/
def Bay.health (b : Bay) : Nat :=
  if b.retired then 4
  else match b.cart with
    | none => 0
    | some c => if !b.mounted then 0 else if c.state = 1 then 3 else if 80 ≤ c.life then 2 else 1

/-- Whether a bay can take writes: R387, R405, R407. -/
def Bay.writable (b : Bay) : Bool := b.mounted && !b.draining && !b.drained && b.cart.any (fun c => c.state == 0)

/-- Whether a bay holds a complete mirror and takes new objects: R377, R405, R406. -/
def Bay.mirroring (b : Bay) : Bool := b.writable && !b.target

/-- Whether the module is degraded: R377, R381. -/
def State.degraded (s : State) : Bool :=
  (List.range 8).any (fun p => s.spares p == 0) ||
  (List.range 512).any (fun c => (s.unit (uChannel c)).state == .suspect) ||
  (List.range 36).any (fun p => (s.port p).noSpare || (s.port p).state == .failed) ||
  !s.config.relayed.isEmpty ||
  (List.range 2).any (fun b => !(s.bay b).mirroring) ||
  (s.config.twinLost && s.patterns.any (fun p => p.twin != 0)) || s.config.suspect

/-! ### Detected errors -/

/-- The task a physical core runs rows of, if any. -/
def State.taskOn (s : State) (p : Nat) : Option Nat := (s.logicalOf p).bind (fun n => (s.core n).task)

/-- A detected error stops a task, and what runs in one batch with it, for replay; a ninth ends it with DEGRADED (R324, R369,
R372, R374); the other modules stop it too, as they are told (R325; entry 44). A task that stands stopped already costs no second replay (R388). `cause` and `unit` are those of the REPLAY record. -/
def State.detected (s : State) (t cause unit : Nat) : State :=
  match s.task t with
  | none => s
  | some k =>
    let ts := s.liveOf t
    let cs := ts.flatMap s.coresOf
    if !k.live || (!cs.isEmpty && cs.all (fun n => (s.core n).phase == .stopped)) then s
    else if 8 ≤ k.replays then s.endTask t stDegraded
    else
      let s := s.stopCores cs
      let s := ts.foldl (fun s t => s.modTask t (fun k => { k with state := .replaying, replays := k.replays + 1 })) s
      (s.emit 0x0065 srcCP (leBytes 4 t ++ leBytes 1 (k.replays + 1) ++ leBytes 1 cause ++ leBytes 2 unit)).fwTell 5 t []

/-- GT units in 24 hours: R374, R381. -/
def gtDay : Nat := 172800000000000

/-- A unit starts to drain, a panel with every core of it; what a port carried may go by a relay from now on (R338, R344, R386, R387). A unit that has left service, or drains already, takes the target
that leaves it further out: RETIRED cores never return (R375). -/
def State.startDrain (s : State) (u : Nat) (target : UState) (cause : Nat) : State :=
  let one (s : State) (u : Nat) : State := (s.modUnit u (fun e => { e with target := target, pending := none })).setUnit u .draining cause true
  let s := if 288 ≤ u ∧ u < 296 then
      (((List.range 36).map (fun i => 36 * (u - 288) + i)).filter s.working).foldl one s
    else if 844 ≤ u then s.modBay (u - 844) (fun y => { y with draining := true })
    else s
  let s := one s u
  if 808 ≤ u ∧ u < 844 then s.noteRelays else s

/-- A health detector retires a core: it drains first (R375, R386, R387). -/
def State.retire (s : State) (p cause : Nat) : State :=
  match (s.unit p).state with
  | .retired => s
  | .draining => s.modUnit p (fun e => { e with target := .retired })
  | .inService | .spare | .disabled | .suspect => s.startDrain p .retired cause

/-- A physical core caused a replay; the third within 24 hours retires it (R374). -/
def State.blame (s : State) (p : Nat) : State :=
  let recent := ((s.ph p).caused.filter (fun g => s.clock.gt < g + gtDay)) ++ [s.clock.gt]
  let s := s.modPh p (fun x => { x with caused := recent })
  if 3 ≤ recent.length then s.retire p 0x0C else s

/-- A detected error on a physical core: its task is stopped for replay, and the core is blamed for a replay that it causes (R372,
R374). -/
def State.coreError (s : State) (p cause : Nat) : State :=
  match s.taskOn p with
  | some t =>
    let s' := s.detected t cause p
    if (s'.task t).map (fun k => k.replays) = (s.task t).map (fun k => k.replays) then s' else s'.blame p
  | none => s

/-! ### The ring-order map -/

/-- The physical cores of a panel's logical cores: the working cores in ring order, `shift` positions onward where there
are spares (R43, R375, R382). A core that returned to the spare pool is passed over while 32 others work (R136). With fewer than
32 working cores the reserved logical cores take them in order and the others have none, and where a returned core is needed it stands
last, also in a shifted map (DESIGN CHOICE: entry 19). -/
def State.ringMap (s : State) (panel shift : Nat) : List (Nat × Nat) :=
  let all := s.workingOn panel
  let kept := all.filter (fun p => !(s.ph p).passed)
  let w := if 32 ≤ kept.length then kept ++ all.filter (fun p => (s.ph p).passed) else all
  if 32 ≤ w.length then
    let w := if 33 ≤ w.length then w.drop shift else w
    ((List.range 32).map (fun i => 32 * panel + i)).zip w
  else
    let rs := onPanel (reservedBy s.images) panel
    rs.zip (w ++ List.replicate rs.length noCore) ++
      (((List.range 32).map (fun i => 32 * panel + i)).filter (fun n => !rs.contains n)).map (fun n => (n, noCore))

/-- Give logical cores their physical cores: the entry of every core whose logical core changes changes, between IN_SERVICE and SPARE
where it takes or leaves one, and every pattern's resident contents are to be copied again where the map moved (R235, R375, R385, R386). -/
def State.remap (s : State) (m : List (Nat × Nat)) : State :=
  let moved := m.filter (fun e => s.physOf e.1 != e.2)
  let told := m.filter (fun e => !s.map.contains e)
  if told.isEmpty then s
  else
    let left := moved.map (fun e => s.physOf e.1)
    let s := { s with map := told.foldl (fun x e => mset x e.1 e.2) s.map,
                      patterns := if moved.isEmpty then s.patterns else s.patterns.map (fun p => { p with placed := false }) }
    let s := (left.filter (fun p => p < 288 && !told.any (fun e => e.2 == p))).foldl (fun s p =>
      s.changeUnit p (if (s.unit p).state = .inService then .spare else (s.unit p).state) (s.unit p).cause false) s
    (told.filter (fun e => e.2 < 288)).foldl (fun s e =>
      s.changeUnit e.2 (if (s.unit e.2).state = .spare then .inService else (s.unit e.2).state) (s.unit e.2).cause false) s

/-- The map, panel by panel, of the panels that these logical cores lie on: R43, R375. -/
def State.mapFor (_ : State) (cs : List Nat) (f : Nat → List (Nat × Nat)) : List (Nat × Nat) :=
  (List.range 8).flatMap (fun p => if (onPanel cs p).isEmpty then [] else f p)

/-- Whether a logical core carries a task that is not at a boundary; the cast-on of a replay is one, so a task stopped for its replay pins
nothing (R12, R386). -/
def State.pinned (s : State) (n : Nat) : Bool := (s.core n).phase != .stopped && ((s.core n).task.bind s.task).any Task.live

/-- Whether a map moves no logical core that carries a running task, and takes no physical core from one: R12. -/
def State.mayRemap (s : State) (m : List (Nat × Nat)) : Bool :=
  let moved := m.filter (fun e => s.physOf e.1 != e.2)
  moved.all (fun e => !s.pinned e.1) &&
    (List.range 256).all (fun n => !s.pinned n || moved.all (fun e => e.2 != s.physOf n))

/-- Whether a core of a list stands on a physical core that drains: what needs it waits until its state is settled (R388). -/
def State.unsettled (s : State) (cs : List Nat) : Bool := cs.any (fun n => (s.unit (s.physOf n)).state == .draining)

/-- Whether these logical cores have working physical cores that no other running task uses. -/
def State.ownMap (s : State) (cs : List Nat) : Bool :=
  cs.all (fun n => s.working (s.physOf n) &&
    (List.range 256).all (fun m => cs.contains m || !s.pinned m || s.physOf m != s.physOf n))

/-- Whether every core of a list has a working physical core: R325, R378. -/
def State.mapped (s : State) (cs : List Nat) : Bool := cs.all (fun n => s.working (s.physOf n))

end Sys2Proof.Machine
end

