-- ==== Sys2Proof/Machine/Bays.lean ====
section
/-!
DEFINITION. Cartridge bays (R402 to R409, R441): what a write to a cartridge counts, wear, mounting, failure and removal, resync,
and the objects that the mirrored pair holds (R404, R405).
-/

namespace Sys2Proof.Machine

/-! ### A cartridge -/

/-- Blocks of 4,096 bytes that an object takes: R404. -/
def blocksOf (bytes : Nat) : Nat := (bytes + 4095) / 4096

/-- Bytes held in objects: R404. -/
def Cartridge.used (c : Cartridge) : Nat := sumN (c.objects.map (fun o => o.2.2.length))

/-- An object by its name: R365. -/
def Cartridge.object (c : Cartridge) (h : Hash) : Option (List Byte) := (c.objects.find? (fun o => o.1 == h)).map (fun o => o.2.2)

/-- Whether blocks [a, a + n) are free of every extent: R404. -/
def Cartridge.freeRun (c : Cartridge) (a n : Nat) : Bool :=
  c.objects.all (fun o => decide (a + n ≤ o.2.1 ∨ o.2.1 + blocksOf o.2.2.length ≤ a))

/-- First block of object data: R404. -/
def firstDataBlock : Nat := 32768

/-- The lowest free run of `n` blocks: it begins at the first data block or where an extent ends (R404). -/
def Cartridge.place (c : Cartridge) (n : Nat) : Option Nat :=
  let starts := firstDataBlock :: c.objects.map (fun o => o.2.1 + blocksOf o.2.2.length)
  let fit := starts.filter (fun a => c.freeRun a n && decide ((a + n) * 4096 ≤ c.capacity))
  match fit with
  | [] => none
  | a :: as => some (as.foldl min a)

/-- Entries of a catalogue: R404. -/
def catalogueSize : Nat := 1048576

/-- Whether an object of this length finds a catalogue entry and space: R365, R404. -/
def Cartridge.hasRoom (c : Cartridge) (len : Nat) : Bool :=
  decide (c.objects.length < catalogueSize) && (c.place (blocksOf len)).isSome

/-- Bytes of a header block or a catalogue block: R404. -/
def lbBytes : Nat := 4096

/-- A header or catalogue change with the bytes it writes: the generation rises and the bytes are counted (R404, R407). -/
def Cartridge.change (c : Cartridge) (bytes : Nat) : Cartridge :=
  { c with generation := (c.generation + 1) % 2 ^ 64, written := c.written + bytes }

/-- Bytes 0 to 4,047 of the header of a cartridge: R404. -/
def Cartridge.headerBody (c : Cartridge) : List Byte :=
  [0x50, 0x4C, 0x4F, 0x43, 0x01] ++ leBytes 1 c.state ++ zeros 2 ++ leBytes 16 c.mirrorId ++ leBytes 8 c.generation ++ leBytes 8 c.written ++
    leBytes 8 c.used ++ leBytes 8 c.objects.length ++ zeros 8 ++ padTo 832 (c.staged.flatMap (padTo 52)) ++ zeros 3152

/-- The header of a cartridge with its check value: R404. -/
def Cartridge.header (c : Cartridge) : List Byte := c.headerBody ++ hashBytes (sha384 c.headerBody)

/-- The entry of an object in the catalogue: its hash, first block and length (R404). -/
def catalogueEntry (o : Hash × Nat × List Byte) : List Byte := hashBytes o.1 ++ leBytes 8 o.2.1 ++ leBytes 8 o.2.2.length

/-! ### Wear -/

/-- CART_WRITTEN: R407, R416. -/
def State.noteWritten (s : State) (b : Nat) : State :=
  match (s.bay b).cart with
  | none => s
  | some c => (s.modBay b (fun y => { y with lastWritten := c.written })).emit 0x0081 srcCP
      (leBytes 1 b ++ padTo 16 c.serial ++ leBytes 8 c.written)

/-- L is applied to a mounted bay: warning once from 80, read-only from 100: R407. -/
def State.wear (s : State) (b : Nat) : State :=
  match (s.bay b).cart with
  | none => s
  | some c =>
    if !(s.bay b).mounted then s
    else
      let data := leBytes 1 b ++ padTo 16 c.serial ++ leBytes 1 (min 255 c.life)
      let s := if 80 ≤ c.life ∧ !(s.bay b).warned then (s.modBay b (fun y => { y with warned := true })).emit 0x0082 srcCP data else s
      if 100 ≤ c.life ∧ c.state = 0 then
        (s.modBay b (fun y => { y with cart := some { c.change lbBytes with state := 1 } })).emit 0x0083 srcCP data
      else s

/-- A mounted cartridge changes and is written: R404, R407. CART_WRITTEN is recorded after every 10^12 bytes. -/
def State.cartWrite (s : State) (b bytes : Nat) (f : Cartridge → Cartridge) : State :=
  match (s.bay b).cart with
  | none => s
  | some c =>
    let c := f (c.change bytes)
    let s := s.modBay b (fun y => { y with cart := some c })
    let s := if (s.bay b).lastWritten + 10 ^ 12 ≤ c.written then s.noteWritten b else s
    s.wear b

/-- A write goes to both mounted, writable bays: R405. -/
def State.mirrorWrite (s : State) (bytes : Nat) (f : Cartridge → Cartridge) : State :=
  (List.range 2).foldl (fun s b => if (s.bay b).writable then s.cartWrite b bytes f else s) s

/-! ### Objects -/

/-- The cartridges whose contents the module can read: a resync target only what it has already (R405, R406). A draining bay takes no command (R387). -/
def State.mountedCarts (s : State) : List Cartridge :=
  ((List.range 2).filter (fun b => (s.bay b).mounted && !(s.bay b).draining && !(s.bay b).drained)).filterMap (fun b => (s.bay b).cart)

/-- An object of the module's own cartridges: R365. -/
def State.object (s : State) (h : Hash) : Option (List Byte) := (s.mountedCarts.filterMap (fun c => c.object h)).head?

/-- Whether some bay can take an object of this length: R365, R405, R407. Every writable bay must have the room. -/
def State.objectRoom (s : State) (len : Nat) : Bool :=
  let w := (List.range 2).filter (fun b => (s.bay b).writable)
  !w.isEmpty && w.all (fun b => (s.bay b).cart.any (fun c => c.hasRoom len))

/-- Store an object on the mirrored pair: its data, its catalogue entry and the header: R404, R405. -/
def State.storeObject (s : State) (h : Hash) (data : List Byte) : State :=
  let n := blocksOf data.length
  s.mirrorWrite (4096 * n + 2 * lbBytes) (fun c =>
    if (c.object h).isSome then c
    else { c with objects := c.objects ++ [(h, (c.place n).getD firstDataBlock, data)] })

/-- Remove an object from the mirrored pair: R365, R404. -/
def State.removeObject (s : State) (h : Hash) : State :=
  s.mirrorWrite (2 * lbBytes) (fun c => { c with objects := c.objects.filter (fun o => o.1 != h) })

/-- Whether a bay is kept without power: marked retired, or its unit taken out of service (R386, R408, R441). A resync target's
unit reads DISABLED with cause 0 and keeps its power. -/
def State.bayOff (s : State) (b : Nat) : Bool :=
  let u := s.unit (uBay b)
  (s.bay b).retired || ((u.state == .disabled || u.state == .retired) && u.cause != 0)

/-! ### Mounting -/

/-- A bay cannot mount its cartridge: the detail is kept (R409). -/
def State.refuseMount (s : State) (b detail : Nat) : State :=
  s.modBay b (fun y => { y with mounted := false, target := false, resyncLeft := 0, detail := detail })

/-- A bay is the resync target of its partner: its unit is out of service until the resync completes (R405, R406). -/
def State.makeTarget (s : State) (b bytes : Nat) : State :=
  (s.modBay b (fun y => { y with target := true, resyncLeft := bytes })).changeUnit (uBay b) .disabled 0 false

/-- A cartridge is mounted: its mirror_id is recorded, its unit is in service, CART_WRITTEN is written and its wear is applied
(R405 to R407, R420). -/
def State.mounted (s : State) (b : Nat) (c : Cartridge) : State :=
  let s := s.modBay b (fun y => { y with cart := some c, mounted := true, detail := 0, warned := false, drained := false })
  let s := s.modMgmt (fun m => { m with mirrorId := c.mirrorId })
  let u := s.unit (uBay b)
  let s := if u.state = .disabled ∧ u.cause = 0 then s.changeUnit (uBay b) .inService 0 false else s
  (s.noteWritten b).wear b

/-- A bay's cartridge is authenticated and mounted, or refused: R402, R405, R406, R408. A blank one is adopted: as resync target
of a mounted partner, else under a new mirror_id. -/
def State.mount (s : State) (b : Nat) : State :=
  match (s.bay b).cart with
  | none => s
  | some c =>
    let other := s.bay (1 - b)
    if (s.bay b).mounted then s
    else if !c.authOk then (s.refuseMount b 1).emit 0x0080 srcCP (leBytes 1 b ++ leBytes 1 1)
    else if c.valid ∧ c.state = 2 then s.refuseMount b 4
    else match (if other.mounted then other.cart else none) with
      | some p =>
        if !c.valid then
          let fresh := { c.change lbBytes with valid := true, state := 0, mirrorId := p.mirrorId, objects := [], staged := p.staged }
          (s.mounted b fresh).makeTarget b p.used
        else if c.mirrorId ≠ p.mirrorId then s.refuseMount b 5
        else if c.generation < p.generation then (s.mounted b c).makeTarget b p.used
        else if p.generation < c.generation then (s.mounted b c).makeTarget (1 - b) c.used
        else s.mounted b c
      | none =>
        if c.valid then s.mounted b c
        else
          let (k, s) := s.freeIndex
          s.mounted b { c.change lbBytes with valid := true, state := 0, mirrorId := (Config.freeMirrorId k).toNat, objects := [],
                                                 staged := [] }

/-- Boot step 6: the cartridges present are mounted, the one whose mirror_id was last recorded first, else B0 first (R397,
R405). -/
def State.mountAll (s : State) : State :=
  let known (b : Nat) : Bool := (s.bay b).cart.any (fun c => c.valid && c.mirrorId == s.mgmt.mirrorId)
  if known 1 && !known 0 then (s.mount 1).mount 0 else (s.mount 0).mount 1

/-- A bay's cartridge is unmounted: R405, R408. -/
def State.unmount (s : State) (b detail : Nat) : State :=
  s.modBay b (fun y => { y with mounted := false, target := false, resyncLeft := 0, detail := detail })

/-- A bay fails: it is unmounted, and writes in flight complete on the other bay (R405). -/
def State.bayFails (s : State) (b : Nat) : State := if (s.bay b).mounted then s.unmount b 7 else s

/-- A resync ends: the target holds every catalogued extent of its source and returns to service (R406). -/
def State.resynced (s : State) (b : Nat) : State :=
  match (s.bay (1 - b)).cart with
  | none => s
  | some p =>
    let bytes := sumN (p.objects.map (fun o => 4096 * blocksOf o.2.2.length)) + 2 * lbBytes
    let s := s.cartWrite b bytes (fun c => { c with objects := p.objects, staged := p.staged, mirrorId := p.mirrorId,
                                                    generation := p.generation })
    (s.modBay b (fun y => { y with target := false, resyncLeft := 0 })).changeUnit (uBay b) .inService 0 false

/-- Whether the 12 V of the bays is present: R432, R441. -/
def State.bayPower (s : State) : Bool := 7 ≤ s.boot.rails

/-! ### The events of a bay -/

/-- A cartridge enters a bay. It is mounted once its bay is powered and PERST# is released (R406, R441). -/
def execCartridgeInsert (bay : BayId) (facts : CartFacts) (s : State) : Out :=
  let b := bay.toNat
  if (s.bay b).cart.isSome then done s s
  else
    let c : Cartridge := { serial := facts.serial, fwRev := facts.fwRev, capacity := facts.capacity, authOk := facts.authOk,
                           valid := facts.valid, state := facts.state, mirrorId := facts.mirrorId,
                           generation := facts.generation, written := facts.written, objects := facts.objects,
                           staged := facts.staged, pctUsed := facts.pctUsed, certHash := facts.certHash }
    let s' := s.modBay b (fun y => { y with cart := some c, lastWritten := facts.written })
    if (s'.bay b).powered ∧ !(s'.bay b).perst then done s (s'.mount b) else done s s'

/-- PRSNT# has stood for 500 ms: the bay is powered with PERST# asserted, unless it is DISABLED or retired (R441). -/
def execPrsntDebounce (bay : BayId) (s : State) : Out :=
  let b := bay.toNat
  let y := s.bay b
  if !s.bayPower || y.powered || s.bayOff b then done s s
  else done s (s.modBay b (fun y => { y with powered := true, pwrdis := false, perst := true }))

/-- The bay's 12 V has settled for 100 ms: PERST# is released, and a cartridge present is mounted (R406, R441). -/
def execPerstRelease (bay : BayId) (s : State) : Out :=
  let b := bay.toNat
  if (s.bay b).powered ∧ (s.bay b).perst then done s ((s.modBay b (fun y => { y with perst := false })).mount b) else done s s

/-- The resync of a target ends: R406. -/
def execResyncComplete (bay : BayId) (s : State) : Out :=
  let b := bay.toNat
  if (s.bay b).target ∧ !(s.bay b).draining ∧ (s.bay (1 - b)).mounted then done s (s.resynced b) else done s s

/-- A bay fails an NVMe command: R405. -/
def execBayFailure (bay : BayId) (s : State) : Out := done s (s.bayFails bay.toNat)

/-- The wear of a mounted cartridge is read: R407. -/
def execSmartRead (bay : BayId) (pctUsed : Byte) (s : State) : Out :=
  let b := bay.toNat
  if (s.bay b).mounted ∧ !(s.bay b).draining then
    done s ((s.modBay b (fun y => { y with cart := y.cart.map (fun c => { c with pctUsed := pctUsed.toNat }) })).wear b)
  else done s s

/-- A cartridge is pulled: its bay is empty and PWRDIS asserted. Where it was mounted and not drained, the bay has failed (R405,
R406, R441). A retired cartridge takes its mark with it. -/
def execCartridgeRemove (bay : BayId) (s : State) : Out :=
  let b := bay.toNat
  let y := s.bay b
  if y.cart.isNone then done s s
  else
    let detail := if y.mounted ∧ !y.drained then 7 else 0
    let s' := s.modBay b (fun y => { y with cart := none, mounted := false, target := false, resyncLeft := 0, warned := false,
                                            powered := false, perst := true, pwrdis := true, draining := false, drained := false, retired := false,
                                            detail := detail })
    if y.retired ∨ y.target then done s (s'.changeUnit (uBay b) .inService 0 false) else done s s'

end Sys2Proof.Machine
end

