-- ==== Sys2Proof/Machine/Row.lean ====
section
/-!
DEFINITION. The 512-bit row (R20 to R24): its slots as commands, from the bits and back. A row that sets a bit its
header or a slot reserves, or that holds an encoding WellFormed refuses, is none (R9, R22).
-/

namespace Sys2Proof.Machine

/-- A row: its header (R21) and its valid slots (R22). -/
structure Row where
  pips : BitVec 8 := 0
  tag : BitVec 8 := 0
  c : Option Instr := none
  m : Option Instr := none
  v0 : Option Instr := none
  v1 : Option Instr := none
  b : Option Instr := none
  d : Option Instr := none
  deriving DecidableEq, Repr

/-- The slots of a row in the order of R26: C, M, V0, V1, B, D. -/
def Row.slots (r : Row) : List Instr :=
  r.c.toList ++ r.m.toList ++ r.v0.toList ++ r.v1.toList ++ r.b.toList ++ r.d.toList

/-- The command of an opcode of the C slot: R24. -/
def ofC (op : Nat) (c : CSlot) : Option Instr :=
  match op with
  | 0x01 => some (.sAdd c)
  | 0x02 => some (.sSub c)
  | 0x03 => some (.sAnd c)
  | 0x04 => some (.sOr c)
  | 0x05 => some (.sXor c)
  | 0x06 => some (.sShl c)
  | 0x07 => some (.sShr c)
  | 0x08 => some (.sSra c)
  | 0x09 => some (.sSlt c)
  | 0x0A => some (.sSltu c)
  | 0x0B => some (.sSeq c)
  | 0x10 => some (.sMul c)
  | 0x18 => some (.sLi c)
  | 0x19 => some (.sLui c)
  | 0x20 => some (.sLd c)
  | 0x21 => some (.sSt c)
  | 0x22 => some (.sRdreg c)
  | 0x28 => some (.sbDef c)
  | 0x30 => some (.br c)
  | 0x31 => some (.brZ c)
  | 0x32 => some (.brNz c)
  | 0x33 => some (.brNeg c)
  | 0x38 => some (.loopI c)
  | 0x39 => some (.loopR c)
  | 0x40 => some (.tallySig c)
  | 0x41 => some (.tallyWait c)
  | 0x42 => some (.tallyTake c)
  | 0x48 => some (.bankFlip c)
  | 0x50 => some (.brk c)
  | 0x58 => some (.taskEnd c)
  | _ => none

/-- The opcode and the fields of a command of the C slot: R24. -/
def opC : Instr → Option (BitVec 8 × CSlot)
  | .sAdd c => some (0x01, c)
  | .sSub c => some (0x02, c)
  | .sAnd c => some (0x03, c)
  | .sOr c => some (0x04, c)
  | .sXor c => some (0x05, c)
  | .sShl c => some (0x06, c)
  | .sShr c => some (0x07, c)
  | .sSra c => some (0x08, c)
  | .sSlt c => some (0x09, c)
  | .sSltu c => some (0x0A, c)
  | .sSeq c => some (0x0B, c)
  | .sMul c => some (0x10, c)
  | .sLi c => some (0x18, c)
  | .sLui c => some (0x19, c)
  | .sLd c => some (0x20, c)
  | .sSt c => some (0x21, c)
  | .sRdreg c => some (0x22, c)
  | .sbDef c => some (0x28, c)
  | .br c => some (0x30, c)
  | .brZ c => some (0x31, c)
  | .brNz c => some (0x32, c)
  | .brNeg c => some (0x33, c)
  | .loopI c => some (0x38, c)
  | .loopR c => some (0x39, c)
  | .tallySig c => some (0x40, c)
  | .tallyWait c => some (0x41, c)
  | .tallyTake c => some (0x42, c)
  | .bankFlip c => some (0x48, c)
  | .brk c => some (0x50, c)
  | .taskEnd c => some (0x58, c)
  | _ => none

/-- The command of an opcode of the M slot: R61. -/
def ofM (op : Nat) (m : MSlot) : Option Instr :=
  match op with
  | 0x01 => some (.mmPass m)
  | 0x02 => some (.mmTile m)
  | 0x03 => some (.mmDiag m)
  | 0x04 => some (.mmDrain m)
  | 0x06 => some (.mmMon m)
  | _ => none

/-- The opcode and the fields of a command of the M slot: R61. -/
def opM : Instr → Option (BitVec 8 × MSlot)
  | .mmPass m => some (0x01, m)
  | .mmTile m => some (0x02, m)
  | .mmDiag m => some (0x03, m)
  | .mmDrain m => some (0x04, m)
  | .mmMon m => some (0x06, m)
  | _ => none

/-- The command of an opcode of the V slot: R114. -/
def ofV (op : Nat) (v : VSlot) : Option Instr :=
  match op with
  | 0x01 => some (.vAdd v)
  | 0x02 => some (.vSub v)
  | 0x03 => some (.vMul v)
  | 0x04 => some (.vFma v)
  | 0x05 => some (.vFnma v)
  | 0x06 => some (.vWfma v)
  | 0x08 => some (.vMin v)
  | 0x09 => some (.vMax v)
  | 0x0A => some (.vAbs v)
  | 0x0B => some (.vNeg v)
  | 0x10 => some (.vAnd v)
  | 0x11 => some (.vOr v)
  | 0x12 => some (.vXor v)
  | 0x13 => some (.vShl v)
  | 0x14 => some (.vShr v)
  | 0x15 => some (.vSra v)
  | 0x16 => some (.vPopc v)
  | 0x17 => some (.vIota v)
  | 0x18 => some (.vSel v)
  | 0x20 => some (.vCeq v)
  | 0x21 => some (.vClt v)
  | 0x22 => some (.vCle v)
  | 0x28 => some (.mAnd v)
  | 0x29 => some (.mOr v)
  | 0x2A => some (.mXor v)
  | 0x2B => some (.mAndn v)
  | 0x30 => some (.vCvt v)
  | 0x31 => some (.vCvtbs v)
  | 0x38 => some (.vExp v)
  | 0x39 => some (.vLog v)
  | 0x3A => some (.vRcp v)
  | 0x3B => some (.vRsqrt v)
  | 0x3C => some (.vTanh v)
  | 0x3D => some (.vErf v)
  | 0x40 => some (.vCompress v)
  | 0x41 => some (.vExpand v)
  | 0x48 => some (.vRedsum v)
  | 0x49 => some (.vRedmax v)
  | 0x4A => some (.vRedmin v)
  | 0x50 => some (.vSieve v)
  | 0x51 => some (.vSinit v)
  | 0x60 => some (.vSetvl v)
  | 0x61 => some (.vGetvl v)
  | 0x70 => some (.vLd v)
  | 0x71 => some (.vSt v)
  | _ => none

/-- The opcode and the fields of a command of the V slot: R114. -/
def opV : Instr → Option (BitVec 8 × VSlot)
  | .vAdd v => some (0x01, v)
  | .vSub v => some (0x02, v)
  | .vMul v => some (0x03, v)
  | .vFma v => some (0x04, v)
  | .vFnma v => some (0x05, v)
  | .vWfma v => some (0x06, v)
  | .vMin v => some (0x08, v)
  | .vMax v => some (0x09, v)
  | .vAbs v => some (0x0A, v)
  | .vNeg v => some (0x0B, v)
  | .vAnd v => some (0x10, v)
  | .vOr v => some (0x11, v)
  | .vXor v => some (0x12, v)
  | .vShl v => some (0x13, v)
  | .vShr v => some (0x14, v)
  | .vSra v => some (0x15, v)
  | .vPopc v => some (0x16, v)
  | .vIota v => some (0x17, v)
  | .vSel v => some (0x18, v)
  | .vCeq v => some (0x20, v)
  | .vClt v => some (0x21, v)
  | .vCle v => some (0x22, v)
  | .mAnd v => some (0x28, v)
  | .mOr v => some (0x29, v)
  | .mXor v => some (0x2A, v)
  | .mAndn v => some (0x2B, v)
  | .vCvt v => some (0x30, v)
  | .vCvtbs v => some (0x31, v)
  | .vExp v => some (0x38, v)
  | .vLog v => some (0x39, v)
  | .vRcp v => some (0x3A, v)
  | .vRsqrt v => some (0x3B, v)
  | .vTanh v => some (0x3C, v)
  | .vErf v => some (0x3D, v)
  | .vCompress v => some (0x40, v)
  | .vExpand v => some (0x41, v)
  | .vRedsum v => some (0x48, v)
  | .vRedmax v => some (0x49, v)
  | .vRedmin v => some (0x4A, v)
  | .vSieve v => some (0x50, v)
  | .vSinit v => some (0x51, v)
  | .vSetvl v => some (0x60, v)
  | .vGetvl v => some (0x61, v)
  | .vLd v => some (0x70, v)
  | .vSt v => some (0x71, v)
  | _ => none

/-- The command of an opcode of the B slot: R46, R156, R212. -/
def ofB (op : Nat) (b : BSlot) : Option Instr :=
  match op with
  | 0x01 => some (.bMove b)
  | 0x08 => some (.spPut b)
  | 0x09 => some (.spGet b)
  | 0x0A => some (.spSig b)
  | 0x0B => some (.spWord b)
  | 0x40 => some (.ribPut b)
  | 0x48 => some (.fifoPush b)
  | 0x49 => some (.fifoPop b true)
  | 0x4A => some (.fifoStat b)
  | _ => none

/-- The opcode and the fields of a command of the B slot: R46, R156, R212. -/
def opB : Instr → Option (BitVec 8 × BSlot)
  | .bMove b => some (0x01, b)
  | .spPut b => some (0x08, b)
  | .spGet b => some (0x09, b)
  | .spSig b => some (0x0A, b)
  | .spWord b => some (0x0B, b)
  | .ribPut b => some (0x40, b)
  | .fifoPush b => some (0x48, b)
  | .fifoPop b _ => some (0x49, b)
  | .fifoStat b => some (0x4A, b)
  | _ => none

/-- The command of an opcode of the D slot: R143. -/
def ofD (op : Nat) (d : DSlot) : Option Instr :=
  match op with
  | 0x01 => some (.dmaGet d)
  | 0x02 => some (.dmaPut d)
  | 0x10 => some (.strandSend d)
  | 0x20 => some (.cableRun d)
  | _ => none

/-- The opcode and the fields of a command of the D slot: R143. -/
def opD : Instr → Option (BitVec 8 × DSlot)
  | .dmaGet d => some (0x01, d)
  | .dmaPut d => some (0x02, d)
  | .strandSend d => some (0x10, d)
  | .cableRun d => some (0x20, d)
  | _ => none

/-- A command if it is well formed. -/
def checkWf (i : Option Instr) : Option Instr :=
  match i with
  | some i => if i.wf then some i else none
  | none => none

/-- The C slot's opcode and fields: R23. -/
def rawC (core : CoreId) (w : BitVec 64) : Option Instr :=
  ofC (w.extractLsb' 0 8).toNat
    { core := core, sd := w.extractLsb' 8 5, sa := w.extractLsb' 13 5, sb := w.extractLsb' 18 5,
      x := w.extractLsb' 23 6, imm := w.extractLsb' 32 32 }

/-- The M slot's opcode and fields: R23. -/
def rawM (core : CoreId) (w : BitVec 96) : Option Instr :=
  ofM (w.extractLsb' 0 8).toNat
    { core := core, xa := w.extractLsb' 8 5, wa := w.extractLsb' 13 5, pa := w.extractLsb' 18 5,
      ta := w.extractLsb' 23 5, f := w.extractLsb' 32 64 }

/-- A V slot's opcode and fields: R23. -/
def rawV (core : CoreId) (pipe : Bool) (w : BitVec 80) : Option Instr :=
  ofV (w.extractLsb' 0 8).toNat
    { core := core, pipe := pipe, vd := w.extractLsb' 8 5, va := w.extractLsb' 13 5, vb := w.extractLsb' 18 5,
      vc := w.extractLsb' 23 5, mask := w.extractLsb' 28 3, maskEn := w.getLsbD 31, ab := w.extractLsb' 32 5,
      st := w.extractLsb' 37 5, f := w.extractLsb' 42 38 }

/-- The B slot's opcode and fields: R23. -/
def rawB (core : CoreId) (w : BitVec 64) : Option Instr :=
  ofB (w.extractLsb' 0 8).toNat
    { core := core, src := w.extractLsb' 8 5, dst := w.extractLsb' 13 5, cnt := w.extractLsb' 18 5,
      f := w.extractLsb' 32 32 }

/-- The D slot's opcode and fields: R23. -/
def rawD (core : CoreId) (w : BitVec 96) : Option Instr :=
  ofD (w.extractLsb' 0 8).toNat
    { core := core, q := w.extractLsb' 8 2, desc := w.extractLsb' 10 5, src := w.extractLsb' 15 5,
      dst := w.extractLsb' 20 5, f := w.extractLsb' 32 64 }

/-- The C slot's command, none where the frame's reserved bits are set or the encoding is not admitted: R23. -/
def decodeC (core : CoreId) (w : BitVec 64) : Option Instr :=
  if w.extractLsb' 29 3 == 0 then checkWf (rawC core w) else none

/-- The M slot's command: R23. -/
def decodeM (core : CoreId) (w : BitVec 96) : Option Instr :=
  if w.extractLsb' 28 4 == 0 then checkWf (rawM core w) else none

/-- A V slot's command: R23. -/
def decodeV (core : CoreId) (pipe : Bool) (w : BitVec 80) : Option Instr := checkWf (rawV core pipe w)

/-- The B slot's command: R23. -/
def decodeB (core : CoreId) (w : BitVec 64) : Option Instr :=
  if w.extractLsb' 23 9 == 0 then checkWf (rawB core w) else none

/-- The D slot's command: R23. -/
def decodeD (core : CoreId) (w : BitVec 96) : Option Instr :=
  if w.extractLsb' 25 7 == 0 then checkWf (rawD core w) else none

/-- A slot under its valid bit: `none` where the row is refused, `some none` where the slot is empty (R22). -/
def slotOf (valid : Bool) (empty : Bool) (i : Option Instr) : Option (Option Instr) :=
  if valid then i.map some else if empty then some none else none

end Sys2Proof.Machine

namespace Sys2Proof

/-- The scalar register a slot of a row writes, if it writes one: R26. -/
def Instr.scalarDest : Instr → Option (BitVec 5)
  | .sAdd c | .sSub c | .sAnd c | .sOr c | .sXor c | .sShl c | .sShr c | .sSra c | .sSlt c | .sSltu c | .sSeq c
  | .sMul c | .sLi c | .sLui c | .sLd c | .sRdreg c => some c.sd
  | .vSetvl v | .vGetvl v => some v.rd
  | .fifoPop b _ | .fifoStat b => some b.dst
  | _ => none

/-- The vector registers a slot of a row writes: R26, R114. -/
def Instr.vectorDests : Instr → List (BitVec 5)
  | .vAdd v | .vSub v | .vMul v | .vFma v | .vFnma v | .vWfma v | .vMin v | .vMax v | .vAbs v | .vNeg v | .vAnd v
  | .vOr v | .vXor v | .vShl v | .vShr v | .vSra v | .vPopc v | .vIota v | .vSel v | .vCvt v | .vExp v | .vLog v
  | .vRcp v | .vRsqrt v | .vTanh v | .vErf v | .vCompress v | .vExpand v | .vRedsum v | .vRedmax v | .vRedmin v
  | .vLd v => [v.vd]
  | .vCvtbs v => [v.vd, v.vc]
  | .vSinit v => [v.vd, v.vd + 1]
  | .vSieve v => if v.fl then [v.vd, v.vd + 1, v.vc, v.vc + 1] else [v.vd, v.vd + 1]
  | _ => []

/-- The mask register a slot of a row writes: R114. -/
def Instr.maskDest : Instr → Option (BitVec 5)
  | .vCeq v | .vClt v | .vCle v | .mAnd v | .mOr v | .mXor v | .mAndn v => some v.vd
  | _ => none

/-- Whether a slot writes VL: R109. -/
def Instr.writesVl : Instr → Bool
  | .vSetvl _ | .vCompress _ => true
  | _ => false

end Sys2Proof

namespace Sys2Proof.Machine

/-- No name twice. -/
def distinct [DecidableEq α] (l : List α) : Bool := decide l.Nodup

/-- No two slots of the row name one destination register, s0 among them: R26. -/
def slotsDistinct (is : List Instr) : Bool :=
  distinct (is.filterMap Instr.scalarDest) &&
  distinct (is.flatMap Instr.vectorDests) && distinct (is.filterMap Instr.maskDest) &&
  decide ((is.filter Instr.writesVl).length ≤ 1)

/-- The row of 512 bits, none where it is refused: R20 to R24. -/
def decodeRow (core : CoreId) (w : BitVec 512) : Option Row :=
  if w.extractLsb' 22 10 != 0 then none else
  match slotOf (w.getLsbD 16) (w.extractLsb' 32 64 == 0) (decodeC core (w.extractLsb' 32 64)),
        slotOf (w.getLsbD 17) (w.extractLsb' 96 96 == 0) (decodeM core (w.extractLsb' 96 96)),
        slotOf (w.getLsbD 18) (w.extractLsb' 192 80 == 0) (decodeV core false (w.extractLsb' 192 80)),
        slotOf (w.getLsbD 19) (w.extractLsb' 272 80 == 0) (decodeV core true (w.extractLsb' 272 80)),
        slotOf (w.getLsbD 20) (w.extractLsb' 352 64 == 0) (decodeB core (w.extractLsb' 352 64)),
        slotOf (w.getLsbD 21) (w.extractLsb' 416 96 == 0) (decodeD core (w.extractLsb' 416 96)) with
  | some c, some m, some v0, some v1, some b, some d =>
    some { pips := w.extractLsb' 0 8, tag := w.extractLsb' 8 8, c := c, m := m, v0 := v0, v1 := v1, b := b, d := d }
  | _, _, _, _, _, _ => none

/-- The bits of a C slot: R23. -/
def encC (op : BitVec 8) (c : CSlot) : BitVec 64 := c.imm ++ (0 : BitVec 3) ++ c.x ++ c.sb ++ c.sa ++ c.sd ++ op
/-- The bits of an M slot: R23. -/
def encM (op : BitVec 8) (m : MSlot) : BitVec 96 := m.f ++ (0 : BitVec 4) ++ m.ta ++ m.pa ++ m.wa ++ m.xa ++ op
/-- The bits of a V slot: R23. -/
def encV (op : BitVec 8) (v : VSlot) : BitVec 80 :=
  v.f ++ v.st ++ v.ab ++ BitVec.ofBool v.maskEn ++ v.mask ++ v.vc ++ v.vb ++ v.va ++ v.vd ++ op
/-- The bits of a B slot: R23. -/
def encB (op : BitVec 8) (b : BSlot) : BitVec 64 := b.f ++ (0 : BitVec 9) ++ b.cnt ++ b.dst ++ b.src ++ op
/-- The bits of a D slot: R23. -/
def encD (op : BitVec 8) (d : DSlot) : BitVec 96 := d.f ++ (0 : BitVec 7) ++ d.dst ++ d.src ++ d.desc ++ d.q ++ op

/-- The bits of a slot of the row, 0 for an empty one: R22. -/
def slotBits (w : Nat) (enc : BitVec 8 → α → BitVec w) (i : Option (BitVec 8 × α)) : BitVec w :=
  match i with
  | some (op, x) => enc op x
  | none => 0

/-- The 512 bits of a row: R20 to R23. -/
def encodeRow (r : Row) : BitVec 512 :=
  slotBits 96 encD (r.d.bind opD) ++ slotBits 64 encB (r.b.bind opB) ++ slotBits 80 encV (r.v1.bind opV) ++
  slotBits 80 encV (r.v0.bind opV) ++ slotBits 96 encM (r.m.bind opM) ++ slotBits 64 encC (r.c.bind opC) ++
  (0 : BitVec 10) ++ BitVec.ofBool r.d.isSome ++ BitVec.ofBool r.b.isSome ++ BitVec.ofBool r.v1.isSome ++
  BitVec.ofBool r.v0.isSome ++ BitVec.ofBool r.m.isSome ++ BitVec.ofBool r.c.isSome ++ r.tag ++ r.pips

end Sys2Proof.Machine
end

