-- ==== Sys2Proof/Machine/Tile.lean ====
section
/-!
DEFINITION. The operands of the matrix engine: format codes (R57), the spans of `mm.pass`, `mm.diag`, `mm.drain` and
`mm.mon` (R61, R133), and the `mm.tile` descriptor with its checks (R68 to R74, R446).
-/

namespace Sys2Proof

open Machine

/-! ### Formats -/

/-- b, the bit-planes of a streaming format: R57. -/
def Machine.xBits (code : Nat) : Nat :=
  match code with
  | 1 | 2 => 1
  | 3 => 2
  | 4 | 8 => 4
  | 5 | 6 | 0xA => 8
  | 7 | 0xC => 16
  | 9 => 6
  | 0xB => 12
  | _ => 1

/-- The container width of an element of a streaming format: R57. -/
def Machine.xContainer (code : Nat) : Nat :=
  match code with
  | 1 | 2 => 1
  | 3 => 2
  | 4 | 8 => 4
  | 5 | 6 | 9 | 0xA => 8
  | _ => 16

/-- Whether a format is block-scaled: R57. -/
def Machine.isBS (code : Nat) : Bool := 8 ≤ code && code ≤ 0xC

/-- Row bytes of a streaming format: R57. -/
def Machine.xRowBytes (code : Nat) : Nat := 16 * xContainer code + (if isBS code then 16 else 0)

/-- The width of a stationary element (of each half of a 16-bit one): R57. -/
def Machine.sBits (code : Nat) : Nat :=
  match code with
  | 1 | 2 => 1
  | 3 => 2
  | 4 => 4
  | _ => 8

/-- Tile bytes of a stationary format (of each half of a 16-bit one): R57. -/
def Machine.sTileBytes (code : Nat) : Nat := 8192 * sBits code

/-- The magnitude width w: R57 (a 16-bit S takes 9: R74). -/
def Machine.magWidth (code : Nat) : Nat :=
  match code with
  | 1 | 2 => 1
  | 3 => 2
  | 4 | 8 => 4
  | 5 | 0xA => 8
  | 6 => 9
  | 9 => 6
  | 0xB => 12
  | _ => 16

/-- g of a g code: R61. -/
def Machine.gOf (code : Nat) : Nat := 4 * 2 ^ code

/-- Pip cost of the matrix engine at a g code: R289. -/
def Machine.gPips (code : Nat) : Nat := 52 + 4 * code

/-- L_pass: R59. -/
def Machine.lPass (b gcode : Nat) : Nat := 8 + b + (gcode + 2) + 128 / gOf gcode + 4

/-! ### mm.pass and mm.diag -/

/-- M: R61. -/
def MSlot.rows (m : MSlot) : Nat := m.bits 7 0 + 1
/-- The g code: R61. -/
def MSlot.g (m : MSlot) : Nat := m.bits 9 8
/-- x_fmt: R61. -/
def MSlot.xFmt (m : MSlot) : Nat := m.bits 13 10
/-- s_fmt: R61. -/
def MSlot.sFmt (m : MSlot) : Nat := m.bits 17 14
/-- keep_s: R61. -/
def MSlot.keepS (m : MSlot) : Bool := m.bits 18 18 == 1
/-- acc: R61. -/
def MSlot.acc (m : MSlot) : Bool := m.bits 19 19 == 1
/-- s_shift8: R61. -/
def MSlot.sShift8 (m : MSlot) : Bool := m.bits 20 20 == 1
/-- x_cb: R61. -/
def MSlot.xCb (m : MSlot) : Bool := m.bits 21 21 == 1
/-- e0 of `mm.pass` and `mm.diag`: R61. -/
def MSlot.e0 (m : MSlot) : Nat := m.bits 31 24
/-- The X base, xa + 64 x_off: R61. -/
def MSlot.xBase (m : MSlot) (c : Core) : Nat := c.chkOff m.xa (64 * m.bits 47 32)
/-- The S base, wa + 256 w_off: R61. -/
def MSlot.sBase (m : MSlot) (c : Core) : Nat := c.chkOff m.wa (256 * m.bits 62 48)

/-- The X span: R61, R133. -/
def MSlot.xSpan (m : MSlot) (c : Core) : Nat × Nat :=
  if m.xCb then (m.xBase c, (m.rows + 127) / 128 * blockBytes (xContainer m.xFmt))
  else (m.xBase c, m.rows * xRowBytes m.xFmt)

/-- The S span of a pass, or the vector's of a diagonal, empty when the active plane is kept: R61, R77. -/
def MSlot.sSpan (m : MSlot) (c : Core) (diag : Bool) : Nat × Nat :=
  (m.sBase c, if m.keepS then 0 else if diag then 16 * sBits m.sFmt else sTileBytes m.sFmt)

/-- The breach of the X operand of `mm.pass` or `mm.diag`: R61, R133. DESIGN CHOICE: a column read of more than 128 columns needs a block
start of such a region for each of its blocks, not for the first alone (entry 53). -/
def MSlot.xBreach (m : MSlot) (c : Core) : Option (Nat × Nat) :=
  let x := m.xSpan c
  if m.xCb && isBS m.xFmt then some (133, x.1)
  else if m.xCb && !((List.range ((m.rows + 127) / 128)).all (fun i =>
      c.blockStart (xContainer m.xFmt) (x.1 + i * blockBytes (xContainer m.xFmt)))) then some (133, x.1)
  else if !inAB x.1 x.2 then some (61, x.1)
  else none

/-- The breach of the S operand: R61. -/
def MSlot.sBreach (m : MSlot) (c : Core) (diag : Bool) : Option (Nat × Nat) :=
  let sp := m.sSpan c diag
  if !m.keepS && !inWB sp.1 sp.2 then some (61, sp.1) else none

/-- The breach of `mm.pass` or `mm.diag`: R61, R133. -/
def MSlot.passBreach (m : MSlot) (c : Core) (diag : Bool) : Option (Nat × Nat) := (m.xBreach c).or (m.sBreach c diag)

/-! ### mm.drain and mm.mon -/

/-- Entries of a drain: R61. -/
def MSlot.drainCount (m : MSlot) : Nat := m.bits 7 0 + 1
/-- The first entry of a drain: R61. -/
def MSlot.drainE0 (m : MSlot) : Nat := m.bits 15 8
/-- The output mode: R61, R65. -/
def MSlot.out (m : MSlot) : Nat := m.bits 17 16
/-- Bytes of an output element: R65. -/
def Machine.outBytes (mode : Nat) : Nat :=
  match mode with
  | 0 | 1 => 8
  | 2 => 4
  | _ => 2
/-- c_o of a mode: R65. -/
def Machine.outRate (mode : Nat) : Nat := if mode = 2 then 2 else 1
/-- Whether bytes lie where a mode writes: PB for the PB64 modes, AB for the AB modes: R65. -/
def Machine.outWithin (mode off n : Nat) : Bool := if mode ≤ 1 then inPB off n else inAB off n
/-- The output base of a drain: R61. -/
def MSlot.oBase (m : MSlot) (c : Core) : Nat := c.chkOff m.pa (64 * m.bits 47 32)
/-- The row stride of a drain: R61, R65. -/
def MSlot.oStride (m : MSlot) : Nat := if m.bits 63 48 = 0 then 512 * outBytes m.out else 64 * m.bits 63 48
/-- The output span of a drain: R65. -/
def MSlot.drainSpan (m : MSlot) (c : Core) : Nat × Nat :=
  (m.oBase c, (m.drainCount - 1) * m.oStride + 512 * outBytes m.out)
/-- The breach of `mm.drain`: every output byte lies in the mode's buffer: R65. -/
def MSlot.drainBreach (m : MSlot) (c : Core) : Option (Nat × Nat) :=
  if (List.range m.drainCount).all (fun j => outWithin m.out (m.oBase c + j * m.oStride) (512 * outBytes m.out))
  then none else some (65, m.oBase c)

/-- Where `mm.mon` stores the monitor block: R61. -/
def MSlot.monAddr (m : MSlot) (c : Core) : Nat := c.chkOff m.xa (64 * m.bits 15 0)
/-- The breach of `mm.mon`: R61. -/
def MSlot.monBreach (m : MSlot) (c : Core) : Option (Nat × Nat) :=
  if inAB (m.monAddr c) 128 then none else some (61, m.monAddr c)

/-! ### The mm.tile descriptor -/

/-- The descriptor of `mm.tile`: R68. -/
structure Machine.TileDesc where
  m : Nat
  k : Nat
  n : Nat
  xFmt : Nat
  sFmt : Nat
  g : Nat
  out : Nat
  optimistic : Bool
  mon : Bool
  xCb : Bool
  pbAdd : Bool
  p : Nat
  sh : Nat
  xBase : Nat
  xStride : Nat
  sBase : Nat
  oBase : Nat
  oStride : Nat
  /-- a reserved bit or byte is set -/
  reserved : Bool
  deriving DecidableEq, Repr

/-- The descriptor in 64 bytes: R68. Mode 0b01 is mode 0b00 with pb_add = 1 (R70). -/
def Machine.parseTile (b : List Byte) : TileDesc :=
  let fl := leAt b 15 1
  let out := field (leAt b 14 1) 3 2
  { m := leAt b 0 4, k := leAt b 4 4, n := leAt b 8 4, xFmt := field (leAt b 12 1) 3 0,
    sFmt := field (leAt b 13 1) 3 0, g := field (leAt b 14 1) 1 0, out := if out = 1 then 0 else out,
    optimistic := bitOf fl 0, mon := bitOf fl 1, xCb := bitOf fl 2, pbAdd := bitOf fl 3 || out == 1,
    p := leAt b 16 2, sh := field (leAt b 18 1) 3 0, xBase := leAt b 20 4, xStride := leAt b 24 4,
    sBase := leAt b 28 4, oBase := leAt b 32 4, oStride := leAt b 36 4,
    reserved := field (leAt b 12 1) 7 4 != 0 || field (leAt b 13 1) 7 4 != 0 || field (leAt b 14 1) 7 4 != 0 ||
      field fl 7 4 != 0 || field (leAt b 18 1) 7 4 != 0 || leAt b 19 1 != 0 || leAt b 40 24 != 0 }

/-- Kc: R69. -/
def Machine.TileDesc.kc (t : TileDesc) : Nat := (t.k + 127) / 128
/-- Nc: R69. -/
def Machine.TileDesc.nc (t : TileDesc) : Nat := (t.n + 511) / 512
/-- W: R69. -/
def Machine.TileDesc.w (t : TileDesc) : Nat := (t.m + 255) / 256
/-- A 16-bit S runs as two passes a chunk: R69. -/
def Machine.TileDesc.split (t : TileDesc) : Bool := t.sFmt == 7
/-- Rows of window `w`: R69. -/
def Machine.TileDesc.winRows (t : TileDesc) (w : Nat) : Nat := min 256 (t.m - 256 * w)
/-- Passes of an output block: R69. -/
def Machine.TileDesc.blockPasses (t : TileDesc) : Nat := t.kc * (if t.split then 2 else 1)
/-- Passes between spills: R70. -/
def Machine.TileDesc.spill (t : TileDesc) : Nat :=
  if t.split then 1 else if t.p = 0 then t.blockPasses else min t.p t.blockPasses
/-- The output row stride S_o: R446. -/
def Machine.TileDesc.so (t : TileDesc) : Nat := if t.oStride = 0 then t.nc * 512 * outBytes t.out else t.oStride

/-- Whether the spill interval is safe: R74. -/
def Machine.TileDesc.safe (t : TileDesc) : Bool :=
  let p := if t.split then 1 else if t.p = 0 then t.kc else t.p
  let ws := if t.split then 9 else magWidth t.sFmt
  !isBS t.xFmt && decide (p < 2 ^ (26 - ws - magWidth t.xFmt))

/-- The tile descriptor's address: R61. -/
def MSlot.tileAddr (m : MSlot) (c : Core) : Nat := c.chkOff m.ta (64 * m.bits 15 0)

/-- The three bases of a tile: X, S and the output: R68. -/
structure Machine.TileBase where
  x : Nat
  s : Nat
  o : Nat
  deriving DecidableEq, Repr

/-- The bases, the deltas added to the registers the slot names: R68. -/
def MSlot.tileBase (m : MSlot) (c : Core) (t : TileDesc) : TileBase :=
  { x := c.chkOff m.xa t.xBase, s := c.chkOff m.wa t.sBase, o := c.chkOff m.pa t.oBase }

/-- The bytes of K-row `k` of a checkerboard column `m` of width `w`: R131, R133. -/
def Machine.columnByte (w base m k : Nat) : Nat × Nat :=
  (base + blockBytes w * (m / 128) + 16 * w * k + m % 128 * w / 8, max 1 (w / 8))

/-- The base of the checkerboard blocks that hold K chunk `kc`: R133. -/
def Machine.TileDesc.blocks (t : TileDesc) (b : TileBase) (kc : Nat) : Nat :=
  b.x + blockBytes (xContainer t.xFmt) * (kc * ((t.m + 127) / 128))

/-- Where the stationary tile of N chunk `nc` and K chunk `kc` lies, its high half apart in a split: R69. -/
def Machine.TileDesc.planeAddr (t : TileDesc) (b : TileBase) (nc kc : Nat) (hi : Bool) : Nat :=
  b.s + (nc * t.kc + kc) * (if t.split then 2 * sTileBytes 7 else sTileBytes t.sFmt) + (if hi then sTileBytes 7 else 0)

/-- The cycles in which an S operand is transferred, and the bytes of each: R60, R77. -/
def Machine.planeSteps (fmt : Nat) (diag : Bool) : Nat × Nat :=
  let cycles := if diag then 16 else 16 * sBits fmt
  (cycles, (if diag then 16 * sBits fmt else sTileBytes fmt) / cycles)

/-- The X span of a tile: R133, R446. -/
def Machine.TileDesc.xSpan (t : TileDesc) (b : TileBase) : Nat × Nat :=
  if t.xCb then (b.x, t.kc * ((t.m + 127) / 128) * blockBytes (xContainer t.xFmt))
  else (b.x, (t.m - 1) * t.xStride + t.kc * xRowBytes t.xFmt)
/-- The S span of a tile: R69. -/
def Machine.TileDesc.sSpan (t : TileDesc) (b : TileBase) : Nat × Nat :=
  (b.s, t.blockPasses * t.nc * sTileBytes t.sFmt)
/-- The output span of a tile, padding columns included: R446. -/
def Machine.TileDesc.oSpan (t : TileDesc) (b : TileBase) : Nat × Nat :=
  (b.o, (t.m - 1) * t.so + t.nc * 512 * outBytes t.out)

/-- The breach of a descriptor by its values alone: R68, R70, R74; `declared` tells whether the manifest declares
optimistic spill. -/
def Machine.TileDesc.breach (t : TileDesc) (declared : Bool) : Option Nat :=
  let bad (v : Nat) : Bool := v == 0 || decide (v > 2 ^ 20)
  if bad t.m || bad t.k || bad t.n || t.reserved || t.g == 3 || !xFmtOk t.xFmt || !(1 ≤ t.sFmt && t.sFmt ≤ 7) ||
     t.xBase % 64 != 0 || t.sBase % 256 != 0 ||
     (!t.xCb && (t.xStride % 16 != 0 || decide (t.xStride < xRowBytes t.xFmt))) then some 68
  else if t.xCb && isBS t.xFmt then some 133
  else if t.out ≥ 2 && (t.split || decide (t.spill < t.blockPasses)) then some 70
  else if (t.optimistic && !declared) || (!t.optimistic && !t.safe) then some 74
  else none

/-- The breach of the X span of a tile. DESIGN CHOICE: under x_cb every block is to be one of a matching region (R61, R133; entry 53). -/
def MSlot.tileX (m : MSlot) (c : Core) (t : TileDesc) : Option (Nat × Nat) :=
  let x := t.xSpan (m.tileBase c t)
  if t.xCb && !((List.range (t.kc * ((t.m + 127) / 128))).all (fun i =>
      c.blockStart (xContainer t.xFmt) (x.1 + i * blockBytes (xContainer t.xFmt)))) then some (133, x.1)
  else if !inAB x.1 x.2 then some (61, x.1)
  else none

/-- The breach of the S span of a tile: R61. -/
def MSlot.tileS (m : MSlot) (c : Core) (t : TileDesc) : Option (Nat × Nat) :=
  let w := t.sSpan (m.tileBase c t)
  if !inWB w.1 w.2 then some (61, w.1) else none

/-- The breach of the output span of a tile: R65. -/
def MSlot.tileO (m : MSlot) (c : Core) (t : TileDesc) : Option (Nat × Nat) :=
  let o := t.oSpan (m.tileBase c t)
  if !outWithin t.out o.1 o.2 then some (65, o.1) else none

/-- The breach of `mm.tile`: its descriptor lies in AB, its values stand, and every span lies in its buffer: R61, R68. -/
def MSlot.tileBreach (m : MSlot) (c : Core) (declared : Bool) (bytes : List Byte) : Option (Nat × Nat) :=
  if !inAB (m.tileAddr c) 64 then some (61, m.tileAddr c)
  else
    let t := parseTile bytes
    match t.breach declared with
    | some r => some (r, m.tileAddr c)
    | none => ((m.tileX c t).or (m.tileS c t)).or (m.tileO c t)

/-- The first field of a tile descriptor that breaks R68 or R70, as its byte: R240. -/
def Machine.tileFault (b : List Byte) : Nat :=
  let t := parseTile b
  let bad (v : Nat) : Bool := v == 0 || decide (v > 2 ^ 20)
  let zero (o : Nat) : Nat × Bool := (o, leAt b o 1 != 0)
  let all : List (Nat × Bool) :=
    [(0, bad t.m), (4, bad t.k), (8, bad t.n), (12, 16 ≤ leAt b 12 1 || !xFmtOk t.xFmt), (13, 16 ≤ leAt b 13 1 || !(1 ≤ t.sFmt && t.sFmt ≤ 7)),
     (14, 16 ≤ leAt b 14 1 || t.g == 3 || (2 ≤ t.out && t.split)), (15, 16 ≤ leAt b 15 1),
     (16, decide (2 ≤ t.out ∧ t.spill < t.blockPasses)), (18, 16 ≤ leAt b 18 1), zero 19, (20, t.xBase % 64 != 0),
     (24, !t.xCb && (t.xStride % 16 != 0 || decide (t.xStride < xRowBytes t.xFmt))), (28, t.sBase % 256 != 0)] ++
    (List.range 24).map (fun i => zero (40 + i))
  ((all.find? (fun f => f.2)).map (fun f => f.1)).getD 0

end Sys2Proof
end

