-- ==== Sys2Proof/Machine/CableHdr.lean ====
section
/-!
DEFINITION. The cable header (R159) with its stage descriptors, rings and epilogue program, and what makes a cable
inconsistent (R159 to R162).
-/

namespace Sys2Proof

open Machine

/-! ### Registers a V slot names -/

/-- Whether a V-slot operation works on register pairs at `vd` and, when it evicts, at `vc`: R121, R122. -/
def Instr.vPair : Instr → Bool
  | .vSieve _ | .vSinit _ => true
  | _ => false

/-- Whether a V-slot operation names mask registers in its register fields: R114. -/
def Instr.vMaskOp : Instr → Bool
  | .mAnd _ | .mOr _ | .mXor _ | .mAndn _ => true
  | _ => false

/-- Whether the destination of a V-slot operation is a mask register: R114. -/
def Instr.vMaskDest : Instr → Bool
  | .vCeq _ | .vClt _ | .vCle _ | .mAnd _ | .mOr _ | .mXor _ | .mAndn _ => true
  | _ => false

/-- Whether a V slot names an owned register of a cable with an epilogue from `lo` up: R163. Unused fields are 0. -/
def Instr.vNamesOwned (i : Instr) (v : VSlot) (lo : Nat) : Bool :=
  let m7 := (v.maskEn && v.mask == 7) || (i.vMaskDest && v.vd == 7) || (i.vMaskOp && (v.va == 7 || v.vb == 7))
  let regs := (if i.vMaskDest then [] else [v.vd]) ++ (if i.vMaskOp then [] else [v.va, v.vb, v.vc]) ++
    (if i.vPair then [v.vd + 1, v.vc + 1] else [])
  m7 || regs.any (fun r => lo ≤ r.toNat)

/-- The fields of a V slot, for a command of a V slot. -/
def Instr.vslot (i : Instr) : Option VSlot := (opV i).map (fun p => p.2)

/-! ### Rings -/

/-- A ring word: R159. -/
def Machine.parseRing (w : Nat) : Ring := { base := field w 23 0, slot := 256 * field w 39 24, slots := field w 43 40 }

/-- A declared ring is well placed: R159. -/
def Machine.Ring.ok (r : Ring) : Bool :=
  r.base % 256 == 0 && 0 < r.slot && 2 ≤ r.slots && inAB r.base (r.slot * r.slots)

/-- The window offset of slot number `q` of a ring: R160. -/
def Machine.Ring.at (r : Ring) (q : Nat) : Nat := r.base + q % r.slots * r.slot

/-! ### Stages -/

/-- Whether a stage is present: R159. -/
def Machine.Cable.has (k : Cable) (stage : Nat) : Bool := k.stages.testBit stage

/-- The tile descriptor of the array stage: R161. -/
def Machine.Cable.tileDesc (k : Cable) : TileDesc := parseTile k.tile

/-- Iterations (i2, i3) of a stage descriptor: R160. -/
def Machine.Desc.iterations (d : Desc) : Nat := d.n2 * d.n3

/-- Passes of the array stage: R161. -/
def Machine.Cable.passes (k : Cable) : Nat := let t := k.tileDesc; t.kc * t.nc * t.w

/-- Output blocks of the array stage. -/
def Machine.Cable.blocks (k : Cable) : Nat := let t := k.tileDesc; t.nc * t.w

/-- The ring the epilogue reads: B after an array stage, else A: R160. -/
def Machine.Cable.epiRing (k : Cable) : Ring := if k.has 1 then k.ringB else k.ringA

/-- The last ring of the chain: R159, R160. -/
def Machine.Cable.lastRing (k : Cable) : Ring := if k.has 2 then k.ringC else if k.has 1 then k.ringB else k.ringA

/-- Slots that the stage before the epilogue fills. -/
def Machine.Cable.epiSlots (k : Cable) : Nat := if k.has 1 then k.blocks else k.load.iterations

/-- Chunks of the epilogue: every slot it reads is taken whole (entry 11). -/
def Machine.Cable.chunks (k : Cable) : Nat := k.epiSlots * (k.epiRing.slot / k.epiIn)

/-- Slots the store stage drains. -/
def Machine.Cable.storeSlots (k : Cable) : Nat :=
  if k.has 2 then k.chunks / (k.ringC.slot / k.epiOut) else k.epiSlots

/-- The pieces of iteration `u` of a stage descriptor, remote address and ring-side address: R160. The ring side keeps
only the stride of dimension 1. -/
def Machine.Cable.unitPieces (d : Desc) (ringSrc : Bool) (slot u : Nat) : List (Nat × Nat) :=
  let i2 := u % d.n2
  let i3 := u / d.n2
  (List.range d.n1).map (fun i1 =>
    if ringSrc then ((d.piece d.dstS d.dst i1 i2 i3).toNat, (slot + d.src + i1 * d.srcS.getD 0 0).toNat)
    else ((d.piece d.srcS d.src i1 i2 i3).toNat, (slot + d.dst + i1 * d.dstS.getD 0 0).toNat))

/-- The bursts of iteration `u` of a stage descriptor, in order, cut at the 256-byte boundaries of their destinations: R147, R160. -/
def Machine.Cable.unitBursts (d : Desc) (ringSrc : Bool) (slot u : Nat) : List CBurst :=
  let bs := (Cable.unitPieces d ringSrc slot u).flatMap (fun p =>
    if ringSrc then cutPiece p.2 p.1 (d.len0 / 64 + 1) d.len0 else cutPiece p.1 p.2 (d.len0 / 64 + 1) d.len0)
  bs.zipIdx.map (fun b =>
    { unit := u, src := b.1.src, dst := b.1.dst, len := b.1.len, off := sumN ((bs.take b.2).map (fun x => x.len)),
      last := b.2 + 1 == bs.length })

/-- A stage descriptor's unit lies in the slot of its ring: R161. -/
def Machine.Desc.unitFits (d : Desc) (ringSrc : Bool) (slot : Nat) : Bool :=
  let s1 := (if ringSrc then d.srcS else d.dstS).getD 0 0
  let a := if ringSrc then d.src else d.dst
  let r := strideReach d.n1 s1
  decide ((a : Int) + r.1 ≥ 0 ∧ (a : Int) + r.2 + d.len0 ≤ slot)

/-! ### The epilogue program -/

/-- An operation the epilogue may hold: R162. -/
def Machine.Cable.epiOpOk (lo : Nat) (i : Instr) : Bool :=
  match i, i.vslot with
  | .vSetvl _, _ | .vGetvl _, _ | .vCompress _, _ | .vExpand _, _ => false
  | i, some v =>
    let masks := (!v.maskEn || v.mask == 7) && (!i.vMaskDest || v.vd == 7) && (!i.vMaskOp || (v.va == 7 && v.vb == 7))
    let named (used : Bool) (r : BitVec 5) : Bool := !used || lo ≤ r.toNat
    let w := Instr.vectorDests i
    let srcs := match i with
      | .vIota _ | .vSinit _ | .vLd _ => (false, false, false)
      | .vAbs _ | .vNeg _ | .vPopc _ | .vExp _ | .vLog _ | .vRcp _ | .vRsqrt _ | .vTanh _ | .vErf _ | .vRedsum _
      | .vRedmax _ | .vRedmin _ | .vSt _ => (true, false, false)
      | .vFma _ | .vFnma _ | .vWfma _ => (true, true, true)
      | .vShl v | .vShr v | .vSra v => (true, v.fl, false)
      | .vCvt v => (true, cvtHasF v.ty v.dty && !v.fl, false)
      | .vCvtbs _ => (true, false, false)
      | .vSieve v => (true, true, v.fl)
      | .mAnd _ | .mOr _ | .mXor _ | .mAndn _ => (false, false, false)
      | _ => (true, true, false)
    let mem := match i with
      | .vLd v => v.am != 1 && v.am != 2 && v.ab.toNat ≤ 2 && v.st == 0
      | .vSt v => v.am != 1 && v.am != 2 && v.ab == 1 && v.st == 0
      | _ => true
    masks && mem && w.all (fun r => lo ≤ r.toNat) && named srcs.1 v.va && named srcs.2.1 v.vb && named srcs.2.2 v.vc
  | _, none => false

/-- The program of `len` containers of 16 bytes for pipe `pipe`, none where one is refused: R162. -/
def Machine.parseEpi (core : CoreId) (pipe : Bool) (lo : Nat) : Nat → List Byte → Option (List Instr)
  | 0, _ => some []
  | n + 1, bs =>
    if (slice bs 10 6).any (fun b => b != 0) then none
    else match decodeV core pipe (BitVec.ofNat 80 (leAt bs 0 10)) with
      | some i => if Cable.epiOpOk lo i then (parseEpi core pipe lo n (bs.drop 16)).map (fun is => i :: is) else none
      | none => none

/-! ### The header -/

/-- The bytes of header, descriptors and program that a `cable.run` reads at its check stage: R36, R144, R161. -/
def Machine.State.cableReads (s : State) (n off : Nat) : List (Nat × Nat) :=
  let h := s.chkRead n off 64
  let stages := leAt h 0 1
  let d (bit o : Nat) : List (Nat × Nat) := if stages.testBit bit then [(off + 64 * leAt h o 2, 64)] else []
  [(off, 64)] ++ d 0 4 ++ d 1 6 ++ d 3 12 ++
    (if stages.testBit 2 then [(off + 64 * leAt h 8 2, 16 * leAt h 10 1)] else [])

/-- The header at a window offset as the check stage reads it, with everything it names: R159, R161. None where the
header's own fields are out of range. -/
def Machine.State.parseCable (s : State) (n off : Nat) : Option Cable :=
  let h := s.chkRead n off 64
  let stages := leAt h 0 1
  let queues := leAt h 1 1
  let pipe := leAt h 2 1
  let lo := leAt h 3 1
  let desc (o : Nat) : List Byte := s.chkRead n (off + 64 * leAt h o 2) 64
  let len := leAt h 10 1
  let sm := (s.core n).sigmode
  let ring (o : Nat) : Nat := leAt h o 8
  let has (i : Nat) : Bool := stages.testBit i
  let declared (present : Bool) (w : Nat) : Bool :=
    if present then w < 2 ^ 44 && (parseRing w).ok else w == 0
  let prog := if has 2 then parseEpi (BitVec.ofNat 8 n) (pipe == 1) lo len
      (s.chkRead n (off + 64 * leAt h 8 2) (16 * len)) else some []
  let loadB := desc 4
  let storeB := desc 12
  if stages ≥ 16 ∨ ((List.range 4).countP has) < 2 ∨ queues ≥ 16 ∨ pipe ≥ 2 ∨ leAt h 14 1 ≥ 63 ∨ leAt h 15 1 ≠ 0 ∨
     leAt h 56 8 ≠ 0 ∨ (has 2 ∧ !has 0 ∧ !has 1) then none
  else if has 2 ∧ (lo < 8 ∨ 31 < lo ∨ len = 0 ∨ 64 < len ∨ leAt h 20 2 = 0 ∨ leAt h 22 2 = 0 ∨
      leAt h 48 4 % 64 ≠ 0 ∨ (leAt h 52 4 ≠ 0 ∧ !inAB (leAt h 48 4) (leAt h 52 4))) then none
  else if !declared (has 0) (ring 24) || !declared (has 1) (ring 32) || !declared (has 2) (ring 40) then none
  else if (has 0 && descReserved loadB) || (has 3 && descReserved storeB) then none
  else match prog with
    | none => none
    | some is =>
      some { stages := stages, pipe1 := pipe == 1, vregLo := lo, epiVl := if leAt h 11 1 = 0 then 256 else leAt h 11 1,
             epiIn := 256 * leAt h 20 2, epiOut := 256 * leAt h 22 2, constBase := leAt h 48 4,
             constLen := leAt h 52 4, prog := is,
             load := parseDesc loadB (sm.getLsbD (field queues 1 0)),
             store := parseDesc storeB (sm.getLsbD (field queues 3 2)), tile := desc 6, ringA := parseRing (ring 24),
             ringB := parseRing (ring 32), ringC := parseRing (ring 40), queues := queues,
             doneTally := leAt h 14 1, doneVal := BitVec.ofNat 32 (leAt h 16 4),
             area := s.cableReads n off ++ (if has 2 then [(leAt h 48 4, leAt h 52 4)] else []) }

/-- The queue entries that a cable takes, one of the load queue and one of the store queue: R159, R163. -/
def Machine.cableQueues (h : List Byte) : List Nat :=
  (if bitOf (leAt h 0 1) 0 then [field (leAt h 1 1) 1 0] else []) ++ (if bitOf (leAt h 0 1) 3 then [field (leAt h 1 1) 3 2] else [])

/-- The spans of the loads and stores of the program lie in the chunk or constant area they name: R162. -/
def Machine.Cable.epiSpansOk (k : Cable) : Bool :=
  k.prog.all (fun i =>
    let inside (v : VSlot) : Bool :=
      let e := 2048 / tyWidth v.ty
      let n := if v.am = 3 then 1 else min k.epiVl e
      let size := match v.ab.toNat with
        | 0 => k.epiIn
        | 1 => k.epiOut
        | _ => k.constLen
      64 * v.off + n * (tyWidth v.ty / 8) ≤ size
    match i with
    | .vLd v | .vSt v => inside v
    | _ => true)

/-- The alignment of a stage descriptor's ring side, whose slots begin at multiples of 256 bytes and which keeps the stride of dimension 1 alone:
R147, R149, R160. -/
def Machine.Desc.ringAligned (d : Desc) (st : List Int) (base : Nat) : Bool := ({ d with n2 := 1, n3 := 1 } : Desc).aligned st base

/-- The rule that a misaligned side of a descriptor breaks. -/
def Machine.Desc.alignRule (d : Desc) : Nat := if d.transpose then 149 else 147

/-- The breach of a cable of core `c` whose header parsed, by rule: R74, R133, R142, R147, R149, R161. -/
def Machine.Cable.breach (k : Cable) (c : Core) : Option Nat :=
  let x := k.tileDesc.xSpan ⟨k.tileDesc.xBase, 0, 0⟩
  let block := blockBytes (xContainer k.tileDesc.xFmt)
  let t := k.tileDesc
  let d := k.load
  let e := k.store
  let lastCode := if k.has 2 then 3 else if k.has 1 then 2 else 1
  let rowsOk := k.ringA.slot ≥ t.xBase + (t.winRows 0 - 1) * t.xStride + xRowBytes t.xFmt
  let cIn := k.epiRing.slot / k.epiIn
  let cOut := k.ringC.slot / k.epiOut
  if k.has 0 && (d.valueBreach true).isSome then d.valueBreach true
  else if k.has 3 && (e.valueBreach false).isSome then e.valueBreach false
  else if k.has 0 && queueClass d.src true != some (field k.queues 1 0) then some 142
  else if k.has 3 && queueClass e.dst false != some (field k.queues 3 2) then some 142
  else if k.has 0 && (!d.aligned d.srcS d.src || !d.ringAligned d.dstS d.dst) then some d.alignRule
  else if k.has 3 && (!e.aligned e.dstS e.dst || !e.ringAligned e.srcS e.src) then some e.alignRule
  else if k.has 0 && (d.cable != 1 || !d.unitFits false k.ringA.slot) then some 161
  else if k.has 3 && (e.cable != lastCode + 4 || !e.unitFits true k.lastRing.slot) then some 161
  else if k.has 1 && ((t.breach c.optimistic).isSome || t.reserved || t.out < 2 || t.p != 0 || t.pbAdd || t.split ||
      (t.oStride != 0 && t.oStride != 512 * outBytes t.out)) then some 161
  else if k.has 1 && !inWB t.sBase (t.blockPasses * t.nc * sTileBytes t.sFmt) then some 161
  else if k.has 1 && !k.has 0 && !inAB x.1 x.2 then some 161
  else if k.has 1 && !k.has 0 && t.xCb && !((List.range (t.kc * ((t.m + 127) / 128))).all (fun i => c.blockStart (xContainer t.xFmt)
      (x.1 + i * block))) then some 133
  else if k.has 1 && k.has 0 && (d.iterations != k.passes || t.xCb || !rowsOk) then some 161
  else if k.has 1 && k.ringB.slot < t.oBase + t.winRows 0 * 512 * outBytes t.out then some 161
  else if k.has 2 && (k.epiRing.slot % k.epiIn != 0 || k.ringC.slot % k.epiOut != 0 || cIn == 0 || cOut == 0 ||
      k.chunks % cOut != 0 || !k.epiSpansOk) then some 161
  else if k.has 3 && e.iterations != k.storeSlots then some 161
  else none

end Sys2Proof
end

