-- ==== Sys2Proof/Machine/Check.lean ====
section
/-!
DEFINITION. The check stage (R29): the bytes a slot touches (R36) and the deliveries it starts (R35), the conditions
that hold a row (R38), and the breaches a slot runs into (R24, R32, R34, R46, R61, R62, R113, R142 to R150, R156,
R161, R163, R167, R200). A row is checked with the registers and bytes of four issue cycles before it issues
(`State.checkView`).
-/

namespace Sys2Proof

open Machine

/-! ### D-slot operands -/

/-- The window offset of a D slot's descriptor or cable header: R143. -/
def DSlot.descAddr (d : DSlot) (c : Core) : Nat := c.chkOff d.desc (64 * d.bits 15 0)
/-- rr: R143. -/
def DSlot.rr (d : DSlot) : BitVec 5 := BitVec.ofNat 5 (d.bits 20 16)

/-- The descriptor of `dma.get` and `dma.put` as copied into the queue: registers added, sv in place of sig_val under
sig_ovr (R143, R144, R146). -/
def Machine.State.dmaDesc (s : State) (n : Nat) (d : DSlot) (isGet : Bool) : Desc :=
  let c := s.core n
  let e := parseDesc (s.chkRead n (d.descAddr c) 64) (c.sigmode.getLsbD d.q.toNat)
  let add (a : Nat) (r : BitVec 64) : Nat := (BitVec.ofNat 64 a + r).toNat
  let rr := c.readS d.rr
  { e with
    src := if isGet then add e.src rr else add e.src (c.readChk d.src)
    dst := if isGet then add e.dst (c.readChk d.dst) else add e.dst rr
    sigVal := if d.bits 21 21 = 1 then BitVec.ofNat 32 (d.bits 47 32) else e.sigVal }

/-- The local interval of a descriptor, as offset and length: R148. -/
def Machine.Desc.localSpan (e : Desc) (isGet : Bool) : Nat × Nat :=
  let x := if isGet then e.interval e.dstS e.dst else e.interval e.srcS e.src
  (x.1.toNat, x.2)

/-- The tally a descriptor signals: R146, R150. -/
def Machine.Desc.signalAddr (e : Desc) (n : Nat) (isGet : Bool) : Nat :=
  if e.sigTo = 0 ∨ isGet then tallyAddr n e.tally else e.dst / 0x1000000 * 0x1000000 + 0xF00000 + 8 * e.tally

/-- An address as one of this module, none where it lies elsewhere: R140, R339. -/
def Machine.State.here (s : State) (n a : Nat) : Option Nat :=
  match s.place n a with
  | .hbm x => some x
  | .win c off => some (winBase + c * 0x1000000 + off)
  | .remote | .bad => none

/-- Whether an address that core `n` issues lies in HBM, here or at another module: R147, R339. -/
def Machine.State.inHbm (s : State) (n a : Nat) : Bool :=
  match s.place n a, localPlace (a % 2 ^ 56) with
  | .hbm _, _ | .remote, .hbm _ => true
  | _, _ => false

/-- Whether ORDERED is legal for the signal of a descriptor: R150. -/
def Machine.State.orderedPath (s : State) (n : Nat) (e : Desc) (isGet : Bool) : Bool :=
  let span := e.interval e.dstS e.dst
  if isGet then orderedOk n (winBase + n * 0x1000000 + span.1) span.2
  else match s.here n e.dst with
    | some a => orderedOk (if e.sigTo = 0 then n else (a - winBase) / 0x1000000) (a + (span.1 - e.dst)) span.2
    | none => false

/-- The breach of the local side of a descriptor, to which an ORDERED signal of a get belongs: R147, R149, R150. -/
def Machine.State.dmaNear (s : State) (n : Nat) (e : Desc) (isGet : Bool) : Option (Nat × Nat) :=
  let locS := if isGet then e.dstS else e.srcS
  let loc := if isGet then e.dst else e.src
  if !e.aligned locS loc || !e.localOk locS loc then some (if e.transpose then 149 else 147, loc)
  else if isGet && e.ordered && e.sigEn && !s.orderedPath n e true then some (150, e.dst)
  else none

/-- The breach of the remote side of a descriptor in queue `q`: R142, R147, R149, R150. -/
def Machine.State.dmaFar (s : State) (n q : Nat) (e : Desc) (isGet : Bool) : Option (Nat × Nat) :=
  let far := if isGet then e.src else e.dst
  let farS := if isGet then e.srcS else e.dstS
  if queueClass far isGet ≠ some q then some (142, far)
  else if !e.aligned farS far then some (if e.transpose then 149 else 147, far)
  else if e.sigTo = 1 ∧ !isGet ∧ s.inHbm n far then some (147, far)
  else if !isGet && e.ordered && e.sigEn && !s.orderedPath n e false then some (150, far)
  else none

/-- The breach of `dma.get` or `dma.put`: R142, R143, R146, R147, R149, R150. -/
def Machine.State.dmaBreach (s : State) (n : Nat) (d : DSlot) (isGet : Bool) : Option (Nat × Nat) :=
  let c := s.core n
  let a := d.descAddr c
  if !inAB a 64 then some (143, a)
  else if a % 64 ≠ 0 then some (146, a)
  else if descReserved (s.chkRead n a 64) then some (147, a)
  else
    let e := s.dmaDesc n d isGet
    match e.valueBreach isGet with
    | some r => some (r, a)
    | none => (s.dmaNear n e isGet).or (s.dmaFar n d.q.toNat e isGet)

/-- Payload address of `strand.send`: R200. -/
def DSlot.payload (d : DSlot) (c : Core) : Nat := c.chkOff d.src (64 * d.bits 15 0)
/-- Sending endpoint: R200. -/
def DSlot.ep (d : DSlot) : Nat := d.bits 19 16
/-- G: R200. -/
def DSlot.granules (d : DSlot) : Nat := d.bits 25 20 + 1

/-- The breach of `strand.send`: R200. -/
def Machine.State.strandBreach (s : State) (n : Nat) (d : DSlot) : Option (Nat × Nat) :=
  let c := s.core n
  let a := d.payload c
  let len := 64 * d.granules - 16
  if !(mget {} c.sends d.ep : SendEp).enable || d.bits 37 32 == 63 || a % 16 != 0 || !(inAB a len || inPB a len) then some (200, a) else none

/-! ### B-slot operands -/

/-- The remote address of a short-path slot: R156. -/
def BSlot.remote (b : BSlot) (i : Instr) (c : Core) : Nat :=
  match i with
  | .spGet _ => c.chk b.src
  | .spWord _ => c.chkOff b.dst (8 * b.off)
  | _ => c.chk b.dst

/-- An `n`-byte access is 8-byte aligned and does not cross a 64-byte boundary: R156. -/
def Machine.shortFits (a n : Nat) : Bool := a % 8 == 0 && a % 64 + n ≤ 64

/-- Whether a remote address is that of a tally other than `TALLY_63`: R156, R174. -/
def Machine.State.sigTarget (s : State) (n a : Nat) : Bool :=
  let t := match s.place n a with
    | .remote => tallyAt (localPlace (a % 2 ^ 56))
    | p => tallyAt p
  match t with
  | some (_, k) => k != 63
  | none => false

/-- Whether the access rules of windows and ranges admit a remote address: R140, R141, R156, R197. -/
def Machine.State.admitted (s : State) (n a len : Nat) (write : Bool) : Bool :=
  match (if s.place n a = .remote then localPlace (a % 2 ^ 56) else s.place n a) with
  | .bad | .remote => false
  | .hbm x => x + len ≤ hbmEnd
  | .win c off =>
    if write then
      (winWriteBreach off len).isNone || (s.place n a != .remote && c == n && (readIndexOff off).isSome) else (winReadBreach off len).isNone

/-- The breach of a B slot in the bytes of its own core: the source, or L of a short-path read (R46, R156). -/
def BSlot.near (b : BSlot) (i : Instr) (c : Core) : Option (Nat × Nat) :=
  let m := b.bytes
  match i with
  | .ribPut _ => if b.ribSrc c % 64 = 0 ∧ inAB (b.ribSrc c) 64 then none else some (46, b.ribSrc c)
  | .bMove _ => if b.localSrc c % 64 = 0 ∧ inBuf (b.localSrc c) b.moveBytes then none else some (156, b.localSrc c)
  | .spPut _ => if shortFits (b.localSrc c) m && (inAB (b.localSrc c) m || inPB (b.localSrc c) m) then none else some (156, b.localSrc c)
  | .spGet _ => if shortFits (b.localDst c) m && (inAB (b.localDst c) m || inPB (b.localDst c) m) then none else some (156, b.localDst c)
  | _ => none

/-- The breach of a B slot at its other end: the destination, or R of a short-path operation (R46, R156). -/
def Machine.State.shortFar (s : State) (n : Nat) (i : Instr) (b : BSlot) : Option (Nat × Nat) :=
  let c := s.core n
  let r := b.remote i c
  match i with
  | .ribPut _ => if b.ribDst c % 64 = 0 ∧ inAB (b.ribDst c) 64 then none else some (46, b.ribDst c)
  | .bMove _ => if r % 64 = 0 ∧ inBuf r b.moveBytes then none else some (156, r)
  | .spPut _ => if shortFits r b.bytes && s.admitted n r b.bytes true then none else some (156, r)
  | .spGet _ => if shortFits r b.bytes && s.admitted n r b.bytes false then none else some (156, r)
  | .spSig _ => if s.sigTarget n r then none else some (156, r)
  | .spWord _ => if r % 8 = 0 ∧ s.admitted n r 8 true then none else some (156, r)
  | _ => none

/-- The breach of a short-path slot, a rib write or a buffer move: R46, R156. -/
def Machine.State.shortBreach (s : State) (n : Nat) (i : Instr) (b : BSlot) : Option (Nat × Nat) :=
  (b.near i (s.core n)).or (s.shortFar n i b)

/-! ### Spans -/

/-- The bytes of the core's own buffers that a slot reads or writes: R36, R144, R148, R201. -/
def Machine.State.touches (s : State) (n : Nat) (i : Instr) : List (Nat × Nat) :=
  let c := s.core n
  let tile (m : MSlot) : List (Nat × Nat) :=
    let t := parseTile (s.chkRead n (m.tileAddr c) 64)
    let b := m.tileBase c t
    [(m.tileAddr c, 64), t.xSpan b, t.sSpan b, t.oSpan b]
  match i with
  | .sLd x | .sSt x => [(x.addr c, 8)]
  | .mmPass m => [m.xSpan c, m.sSpan c false]
  | .mmDiag m => [m.xSpan c, m.sSpan c true]
  | .mmTile m => tile m
  | .mmDrain m => [m.drainSpan c]
  | .mmMon m => [(m.monAddr c, 128)]
  | .vLd v | .vSt v => v.memSpan c
  | .ribPut b => [(b.ribSrc c, 64)]
  | .bMove b => [(b.localSrc c, b.moveBytes)]
  | .spPut b => [(b.localSrc c, b.bytes)]
  | .dmaGet d => [(d.descAddr c, 64)]
  | .dmaPut d => [(d.descAddr c, 64), (s.dmaDesc n d false).localSpan false]
  | .strandSend d => [(d.payload c, 64 * d.granules - 16)]
  | .cableRun d => s.cableReads n (d.descAddr c)
  | _ => []

/-- The bytes of its own window that a put writes: a delivery that the core's own row starts (R35). The check stage reads rr, which
the descriptor takes at issue, as a check operand (entry 4). -/
def Machine.State.ownWrites (s : State) (n : Nat) (e : Desc) : List (Nat × Nat) :=
  e.bursts.filterMap (fun u => match s.place n u.dst with
    | .win c off => if c = n then some (off, u.len) else none
    | _ => none)

/-- The spans into which a slot starts a delivery: R35, R72, R148, R156. -/
def Machine.State.delivers (s : State) (n : Nat) (i : Instr) : List (Nat × Nat) :=
  let c := s.core n
  match i with
  | .dmaGet d => [(s.dmaDesc n d true).localSpan true]
  | .dmaPut d => s.ownWrites n (s.dmaDesc n d false)
  | .bMove b => [(c.chk b.dst, b.moveBytes)]
  | .spGet b => [(b.localDst c, b.bytes)]
  | .mmTile m =>
    let t := parseTile (s.chkRead n (m.tileAddr c) 64)
    [t.oSpan (m.tileBase c t)]
  | .mmDrain m => [m.drainSpan c]
  | _ => []

/-- The enabled ranges that a slot's deliveries fall into, each once: R35. -/
def Machine.State.deliverRanges (s : State) (n : Nat) (i : Instr) : List Nat :=
  ((s.delivers n i).flatMap (fun x => (s.core n).rangesOf x.1 x.2)).eraseDups

/-! ### Holds -/

/-- The owner of the tally a tally row names: R175. -/
def CSlot.owner (x : CSlot) : Nat := 32 * (x.core.toNat / 32) + x.sd.toNat
/-- The scope of a tally row: R175. -/
def CSlot.scope (x : CSlot) : Nat := (x.imm.extractLsb' 30 2).toNat
/-- The addend of a tally row: R175. -/
def CSlot.addend (x : CSlot) : BitVec 32 := (x.imm.extractLsb' 0 30).signExtend 32
/-- The target of `tally.wait`: R175. -/
def CSlot.target (x : CSlot) (c : Core) : BitVec 32 := (c.readChk x.sa).setWidth 32 + x.addend

/-- The request of a row at a tally unit, with its owner: R51, R175. -/
def Machine.Core.tallyReq (c : Core) (i : Instr) : Option (Nat × TallyReq) :=
  match i with
  | .tallyWait x => some (x.owner, ⟨x.core.toNat, x.x.toNat, some (x.target c), x.scope⟩)
  | .tallyTake x => some (x.owner, ⟨x.core.toNat, x.x.toNat, none, x.scope⟩)
  | .bankFlip x => some (x.core.toNat, ⟨x.core.toNat, 63, none, 0⟩)
  | _ => none

/-- Whether a tally row finds its condition: an own tally that is met or can be taken, or a release or grant that has
arrived (R177). -/
def Machine.State.tallyClear (s : State) (n : Nat) (i : Instr) : Bool :=
  let h := (s.core n).held
  let arrived := match h with
    | some h => h.arrived
    | none => false
  match (s.core n).tallyReq i with
  | some (o, r) =>
    arrived || (h.all (fun h => !h.asked) && o == n &&
      (match r.target with
       | some x => waitMet (s.tally o r.tally) x
       | none => takeOk (s.tally o r.tally)))
  | none => true

/-- The queue entries a slot takes when its row passes the check stage: R145, R163. -/
def Machine.State.takesQueues (s : State) (n : Nat) (i : Instr) : List Nat :=
  match i with
  | .dmaGet d | .dmaPut d => [d.q.toNat]
  | .cableRun d => cableQueues (s.chkRead n (d.descAddr (s.core n)) 64)
  | _ => []

/-- The conditions a slot holds on, each with its detail: R34, R38, R145, R157, R176, R201, R213. -/
def Machine.State.slotHolds (s : State) (n : Nat) (i : Instr) : List (Nat × Nat) :=
  let c := s.core n
  let resumed := match c.held with
    | some h => h.resumed
    | none => false
  let touched := (((s.touches n i).flatMap (fun x => c.rangesOf x.1 x.2)).filter (fun r =>
    0 < (mget {} c.ranges r : Range).outstanding)).map (fun r => (1, r))
  let own : List (Nat × Nat) := match i with
    | .sbDef x => if 0 < (mget {} c.ranges x.x.toNat : Range).outstanding then [(1, x.x.toNat)] else []
    | .dmaGet _ | .dmaPut _ | .cableRun _ =>
      let qs := s.takesQueues n i
      (qs.eraseDups.filter (fun q => decide (64 < c.qLen q + c.pastQueue q + qs.count q))).map (fun q => (3, q))
    | .bMove _ | .spPut _ | .spGet _ | .spSig _ | .spWord _ => if 16 ≤ c.short.length + c.pastSlots isShort then [(4, 0)] else []
    | .strandSend d => if 4 ≤ (mget {} c.sends d.ep : SendEp).queue.length + c.pastSends d.ep then [(5, d.ep)] else []
    | .fifoPush b =>
      let f : Fifo := mget {} (s.core (32 * (n / 32) + b.bits 7 3)).fifos (b.bits 2 0)
      if f.writer = some n ∧ 0 < f.credits then [] else [(6, b.bits 2 0)]
    | .tallyWait x => if s.tallyClear n i then [] else [(7, x.x.toNat)]
    | .tallyTake x => if s.tallyClear n i then [] else [(8, x.x.toNat)]
    | .bankFlip _ => if s.tallyClear n i then [] else [(9, 63)]
    | .brk _ => if resumed then [] else [(0xE, 0)]
    | _ => []
  touched ++ own

/-- The ranges that a row's deliveries together would raise above 255: R35, R38. -/
def Machine.State.rowFull (s : State) (n : Nat) (row : List Instr) : List (Nat × Nat) :=
  let rs := row.flatMap (s.deliverRanges n)
  (rs.eraseDups.filter (fun r => decide (255 < (mget {} (s.core n).ranges r : Range).outstanding + rs.count r))).map
    (fun r => (2, r))

/-- A row at a core's check stage: its slots, its declared pips, its tag, whether it was fetched, the count of rows issued before
it, its row index and its bank: R20, R21, R29, R53. -/
structure Machine.Issue where
  row : List Instr := []
  pips : Nat := 0
  tag : Nat := 0
  fetched : Bool := false
  due : Nat := 0
  pc : Nat := 0
  bank : Nat := 0
  deriving DecidableEq, Repr

/-- The debug state of the load whose task a core carries: R247, R248. -/
def Machine.State.debugOf (s : State) (n : Nat) : Option Debug :=
  match s.taskOf n with
  | some t => (s.debug).find? (fun d => d.handle == t.handle && (d.task == 0 || (s.batchOf t.num).contains d.task))
  | none => none

/-- Whether a breakpoint matches a row at its check stage: R248. -/
def Machine.State.breakMatches (s : State) (n : Nat) (x : Issue) (b : Break) : Bool :=
  let c := s.core n
  let p := s.pcore n
  let tag (t : Nat) : Bool := t &&& b.sel == b.value &&& b.sel
  (b.core == 0xFF || b.core == n) && x.fetched &&
  match b.kind with
  | 1 => x.due - p.rowBase == b.value
  | 2 =>
    let before := mget 0 c.dmaDone b.sel + c.qLen b.sel + c.pastQueue b.sel
    decide (before ≤ b.value) && decide (b.value < before + (x.row.flatMap (s.takesQueues n)).count b.sel)
  | 3 => tag x.tag
  | 4 => x.row.any (fun i => match i with
      | .dmaGet d => tag (s.dmaDesc n d true).tag
      | .dmaPut d => tag (s.dmaDesc n d false).tag
      | _ => false)
  | _ => false

/-- The breakpoints that match a row. -/
def Machine.State.breaksHit (s : State) (n : Nat) (x : Issue) : List Break :=
  match s.debugOf n with
  | some d => d.breaks.filter (s.breakMatches n x)
  | none => []

/-- Whether the physical core or its panel is draining: R387. -/
def Machine.State.draining (s : State) (n : Nat) : Bool :=
  (s.unit (s.physOf n)).state == .draining || (s.unit (288 + s.physOf n / 36)).state == .draining

/-- Every condition a row holds on: R38, R248, R249, R292, R387. -/
def Machine.State.rowHolds (s : State) (n : Nat) (x : Issue) : List (Nat × Nat) :=
  let c := s.core n
  let (broke, resumed) := match c.held with
    | some h => (h.broke, h.resumed)
    | none => (false, false)
  let breaks := !resumed && (broke || c.stepLeft == some 0 || !(s.breaksHit n x).isEmpty)
  x.row.flatMap (s.slotHolds n) ++ s.rowFull n x.row ++ (if c.avail < x.pips then [(0xA, 0)] else []) ++
    (if breaks then [(0xE, 0)] else []) ++ (if s.draining n then [(0xF, 0)] else [])

/-! ### Breaches -/

/-- Matrix rows outstanding in the open issue cycle: R62. -/
def Machine.State.outstanding (s : State) (n : Nat) : Nat :=
  (s.core n).mx.work.countP (fun w => s.cycle n < w.doneAt)

/-- A slot meets resources a cable owns: R163. -/
def Machine.Core.cableBreach (c : Core) (i : Instr) : Bool :=
  match c.cable with
  | none => false
  | some k =>
    (k.has 1 && (opM i).isSome) ||
    (match i.vslot with
     | some v => k.has 2 && (v.pipe == k.pipe1 || i.vNamesOwned v k.vregLo)
     | none => false) ||
    (match i with
     | .cableRun _ => true
     | _ => false)

/-- The breach of a slot that only its check stage sees: R34, R163. -/
def Machine.State.checkBreach (s : State) (n : Nat) (i : Instr) : Option (Nat × Nat) :=
  let c := s.core n
  if c.cableBreach i then some (163, 0)
  else match i with
  | .sbDef x =>
    let lo := c.chk x.sa
    let hi := c.chk x.sb
    let others := c.ranges.filter (fun r => r.1 != x.x.toNat && r.2.enable)
    if lo % 256 = 0 ∧ hi % 256 = 0 ∧ lo ≤ hi ∧ hi ≤ bufEnd ∧
       others.all (fun r => !overlaps r.2.base (r.2.fin - r.2.base) lo (hi - lo)) then none else some (34, lo)
  | _ => none

/-- The breach of a cable by what lies outside its header: a descriptor or a program beyond AB, an ORDERED signal whose path is not
single, or one that names the core of a destination in HBM (R147, R150, R159). -/
def Machine.State.cableFar (s : State) (n a : Nat) (k : Cable) : Option (Nat × Nat) :=
  match (s.cableReads n a).find? (fun x => !inAB x.1 x.2) with
  | some x => some (159, x.1)
  | none =>
    if k.has 3 && k.store.sigTo == 1 && s.inHbm n k.store.dst then some (147, k.store.dst)
    else if k.has 3 && k.store.ordered && k.store.sigEn && !s.orderedPath n k.store false then some (150, k.store.dst)
    else none

/-- The breach of a slot as its row issues: its rule, and a window offset or an address (R167). -/
def Machine.State.issueBreach (s : State) (n : Nat) (i : Instr) : Option (Nat × Nat) :=
  let c := s.core n
  let fifth (b : Option (Nat × Nat)) : Option (Nat × Nat) :=
    if b.isNone ∧ 4 ≤ s.outstanding n then some (62, 0) else b
  if c.cableBreach i then some (163, 0)
  else match i with
  | .sLd x | .sSt x => if x.addr c % 8 = 0 ∧ inBuf (x.addr c) 8 then none else some (24, x.addr c)
  | .loopR x => if c.chk x.sa < 2 ^ 32 then none else some (32, 0)
  | .mmPass m => fifth (m.passBreach c false)
  | .mmDiag m => fifth (m.passBreach c true)
  | .mmTile m => fifth (m.tileBreach c c.optimistic (s.chkRead n (m.tileAddr c) 64))
  | .mmDrain m => fifth (m.drainBreach c)
  | .mmMon m => fifth (m.monBreach c)
  | .vLd v | .vSt v => v.memBreach c
  | .ribPut b | .bMove b | .spPut b | .spGet b | .spSig b | .spWord b => s.shortBreach n i b
  | .dmaGet d => s.dmaBreach n d true
  | .dmaPut d => s.dmaBreach n d false
  | .strandSend d => s.strandBreach n d
  | .cableRun d =>
    let a := d.descAddr c
    if !inAB a 64 || a % 64 != 0 then some (143, a)
    else match s.parseCable n a with
      | none => some (161, a)
      | some k => (k.breach c).map (fun r => (r, a)) |>.or (s.cableFar n a k)
  | _ => none

/-- The run-time breach of a slot that is checked and issues at once: R167. -/
def Machine.State.slotBreach (s : State) (n : Nat) (i : Instr) : Option (Nat × Nat) :=
  (s.checkBreach n i).or (s.issueBreach n i)

/-! ### What the check stage reads and copies -/

/-- The spans of descriptors and headers that a slot's row copies at its check stage: R144, R161. -/
def Machine.State.copySpans (s : State) (n : Nat) (i : Instr) : List (Nat × Nat) :=
  let c := s.core n
  match i with
  | .mmTile m => [(m.tileAddr c, 64)]
  | .dmaGet d | .dmaPut d => [(d.descAddr c, 64)]
  | .cableRun d => s.cableReads n (d.descAddr c)
  | _ => []

/-- The bytes of the core's own buffers that a row writes: R163, R201, R247. -/
def Machine.State.writesTo (s : State) (n : Nat) (i : Instr) : List (Nat × Nat) :=
  let c := s.core n
  match i with
  | .sSt x => [(x.addr c, 8)]
  | .vSt v => v.memSpan c
  | .mmDrain m => [m.drainSpan c]
  | .mmMon m => [(m.monAddr c, 128)]
  | .mmTile m =>
    let t := parseTile (s.chkRead n (m.tileAddr c) 64)
    [t.oSpan (m.tileBase c t)]
  | .bMove b => [(c.chk b.dst, b.moveBytes)]
  | _ => []

/-- The bytes of the core's own buffers that a row reads: the others it touches (R36). -/
def Machine.State.readsFrom (s : State) (n : Nat) (i : Instr) : List (Nat × Nat) :=
  (s.touches n i).filter (fun t => !(s.writesTo n i).contains t)

/-- Whether a slot reads the core's own buffers through an engine port, or is an `s.ld`: R247. -/
def Instr.readsAtPort : Instr → Bool
  | .sLd _ | .ribPut _ | .vLd _ => true
  | i => (opM i).isSome

/-- The bytes that a slot reads through the engine ports as its row issues, descriptors apart: R135. -/
def Machine.State.portSpans (s : State) (n : Nat) (i : Instr) : List (Nat × Nat) :=
  if i.readsAtPort then (s.readsFrom n i).filter (fun x => !(s.copySpans n i).contains x) else []

/-- A core as the check stage of the row of issue count `r` finds it: register writes and stores that rows see `r - 4`
rows after the module's reset, and no later ones (R27, R30, R109, R144). -/
def Machine.Core.viewAt (c : Core) (r : Nat) : Core :=
  { c with
    sChk := c.pipe.foldl (fun m p => match p.dst with
      | .sview k v => if p.due ≤ r then mset m k.toNat v else m
      | _ => m) c.sChk
    vlChk := c.pipe.foldl (fun m p => match p.dst with
      | .vlview v => if p.due ≤ r then some v else m
      | _ => m) c.vlChk
    chkOld := c.chkOld.filter (fun e => decide (r < e.1)) }

/-- The state as the check stage of a core's row of issue count `r` finds it. -/
def Machine.State.checkView (s : State) (n r : Nat) : State := s.modCore n (fun c => c.viewAt r)

end Sys2Proof
end

