-- ==== Sys2Proof/Machine/Engine.lean ====
section
/-!
DEFINITION. The matrix engine: operands as read (R57, R62, R84, R131, R133), exact pass results (R58), ACC (R63, R64), outputs (R65, R66),
the range monitor (R78, R79), timing (R59, R60, R62, R71), the folder (R69, R70, R446), the rescale (R75, R76), and reads that find other
bytes than the engine expected (R62). A row settles its values when it issues, with the bytes that its reads are going to find as things
stand; a write that comes before a read settles the rows anew (entry 12).
-/

namespace Sys2Proof.Machine

/-! ### Operands -/
/-- The value of a stored element of `w` bits: R57, R84. -/
def elemValue (fmt w raw : Nat) : Int :=
  match fmt with
  | 1 | 6 => raw
  | 2 => 2 * raw - 1
  | 9 => sextN 6 raw
  | 0xB => sextN 12 raw
  | _ => sextN w raw

/-- `count` elements of `w` bits, packed from the least significant bit upward: R81. -/
def unpackElems (fmt w count : Nat) (bs : List Byte) : List Int :=
  let v := leNat bs
  (List.range count).map (fun i => elemValue fmt w ((v >>> (w * i)) % 2 ^ w))

/-- Replace the bytes of `bs`, which begin at `off`, that a write at `o` covers. -/
def patchBytes (bs : List Byte) (off o : Nat) (new : List Byte) : List Byte :=
  bs.mapIdx (fun i b => if o ≤ off + i ∧ off + i < o + new.length then new.getD (off + i - o) b else b)

/-- A write on its way to a core's buffers: the cycle in which it lands, whether a neighbour sends it, and its bytes. -/
structure Landing where
  due : Nat
  rib : Bool
  off : Nat
  bytes : List Byte

/-- Writes land in the order of their cycles, and in one cycle those of a neighbour last: R27, R47. -/
def insertLanding (w : Landing) : List Landing → List Landing
  | [] => [w]
  | x :: xs => if x.due < w.due ∨ x.due = w.due ∧ (w.rib || !x.rib) then x :: insertLanding w xs else w :: x :: xs

/-- The writes already issued that have landed in a core's buffers by cycle `due`, in the order in which they land. What the output of row
`into` is added to in that cycle precedes it and the outputs of later rows: R27, R47, R62, R65, R66. -/
def State.landings (s : State) (n due : Nat) (into : Option Nat) : List Landing :=
  ((s.gang n).flatMap (fun m => (s.core m).pipe.filterMap (fun p =>
    match p.dst with
    | .bytes c o bs =>
      if c = n ∧ p.due + s.cycle n ≤ due + s.cycle m then some ⟨p.due + s.cycle n - s.cycle m, m != n, o, bs⟩ else none
    | .mout k o bs => if m = n ∧ p.due ≤ due ∧ !(p.due == due && into.any (fun i => i ≤ k)) then some ⟨p.due, false, o, bs⟩ else none
    | _ => none))).foldl (fun ls w => insertLanding w ls) []

/-- Bytes of a core's buffers as its engine ports find them in cycle `due`, once the writes already issued have become
visible: R27, R47, R65. -/
def State.viewRead (s : State) (n off len due : Nat) (into : Option Nat := none) : List Byte :=
  (s.landings n due into).foldl (fun acc w => patchBytes acc off w.off w.bytes) (s.bufRead n off len)

/-- A read that has been made before the engine stands at cycle `lim`. DESIGN CHOICE: an output is added to what stands just before it lands
(entry 12). -/
def EngineRead.past (r : EngineRead) (lim : Nat) : Bool := if r.into.isSome then decide (r.due ≤ lim) else decide (r.due < lim)

/-- The bytes of a read: as they were found, where it has been made before cycle `lim`, else as they are going to stand in its cycle (R62). -/
def State.engineRead (s : State) (n lim : Nat) (r : EngineRead) : List Byte :=
  match if r.past lim then (s.core n).mx.seen.find? (fun x => x.1 == r) else none with
  | some x => x.2
  | none => s.viewRead n r.off r.len r.due r.into

/-- The reads that the engine has still to make are kept with what they are going to find: R62. -/
def State.see (s : State) (n lim : Nat) (rs : List EngineRead) : State :=
  s.modCore n (fun c => { c with mx := { c.mx with
    seen := c.mx.seen ++ (rs.filter (fun r => !r.past lim)).map (fun r => (r, s.engineRead n lim r)) } })

/-- An X row: its 128 stored values, and the four block exponents of a block-scaled format: R57. -/
abbrev XRow := List Int × List Int

/-- The read of the X row whose bytes begin at `addr`, in cycle `due`: R57, R59. -/
def xRead (fmt addr due : Nat) : EngineRead := { due := due, off := addr, len := xRowBytes fmt }

/-- The reads of column `m` of the checkerboard blocks from `base` up, in cycle `due`: R131, R133. -/
def columnReads (fmt base m due : Nat) : List EngineRead :=
  (List.range 128).map (fun k =>
    let a := columnByte (xContainer fmt) base m k
    { due := due, off := a.1, len := a.2 })

/-- The reads of an S operand, a slice in each of its transfer cycles from `start` on: R60, R77. -/
def planeReads (addr fmt start : Nat) (diag : Bool) : List EngineRead :=
  let (cycles, step) := planeSteps fmt diag
  (List.range cycles).map (fun k => { due := start + k, off := addr + k * step, len := step })

/-- The X row whose bytes begin at `addr`, read in cycle `due`: R57. -/
def State.xRow (s : State) (n lim fmt addr due : Nat) : XRow :=
  let w := xContainer fmt
  let d := s.engineRead n lim (xRead fmt addr due)
  (unpackElems fmt w 128 d, if isBS fmt then (List.range 4).map (fun i => sextN 8 (leAt d (16 * w + i) 1)) else [])

/-- The X row that is column `m` of the checkerboard blocks from `base` up: R131, R133. -/
def State.xColumn (s : State) (n lim fmt base m due : Nat) : XRow :=
  let w := xContainer fmt
  ((columnReads fmt base m due).map (fun r => elemValue fmt w ((leNat (s.engineRead n lim r) >>> (m % 128 * w % 8)) % 2 ^ w)), [])

/-- The S operand that is transferred from cycle `start` on: R60, R77. -/
def State.readPlane (s : State) (n lim addr fmt start : Nat) (diag : Bool) : Plane :=
  { fmt := fmt, diag := diag, bytes := (planeReads addr fmt start diag).flatMap (s.engineRead n lim) }

/-- K-row `k` of an S tile: R57. -/
def Plane.row (p : Plane) (k : Nat) : List Int :=
  let w := sBits p.fmt
  unpackElems p.fmt w 512 (slice p.bytes (64 * w * k) (64 * w))

/-! ### Pass results -/

/-- The X elements that enter the array under rescale count `r`, and E_p before s_shift8: R58. -/
def xShifted (fmt r : Nat) (x : XRow) : List Int × Int :=
  if isBS fmt then
    let eMax := x.2.foldl max (x.2.headD 0)
    (x.1.mapIdx (fun k m => rheInt m (x.2.getD (k / 32) 0 - eMax - r)), eMax + r)
  else (x.1.map (fun m => rheInt m (-(r : Int))), r)

/-- The 512 column sums of a row of X elements against a plane: R58, R77. An array never loaded holds zeros (R56). -/
def columnSums (p : Option Plane) (x : List Int) : List Int :=
  match p with
  | none => List.replicate 512 0
  | some p =>
    if p.diag then
      let sv := unpackElems p.fmt (sBits p.fmt) 128 p.bytes
      List.zipWith (fun a b => a * b) (x.take 128) sv ++ List.replicate 384 0
    else
      (List.range 128).foldl (fun acc k =>
        let xk := x.getD k 0
        if xk = 0 then acc else List.zipWith (fun a b => a + xk * b) acc (p.row k)) (List.replicate 512 0)

/-- The result of row `m` of a pass for an entry of rescale count `r`: p and E_p (R58). -/
def PassIn.result (q : PassIn) (m r : Nat) : List Int × Int :=
  let x := xShifted q.xFmt r (q.rows.getD m ([], []))
  let p := columnSums q.plane x.1
  (p.take q.cols ++ List.replicate (512 - q.cols) 0, x.2 + (if q.shift8 then 8 else 0))

/-! ### ACC -/

/-- An exponent as its 8-bit field keeps it; beyond the field's range it is a free value (entry 13). -/
def fitExp (e : Int) : Int := if -128 ≤ e ∧ e ≤ 127 then e else (Config.wideExponent e).toInt

/-- The 512 values of an entry: R63. -/
def Phys.entry (p : Phys) (e : Nat) : List Int :=
  let own := p.acc.filter (fun c => 512 * e ≤ c.1 && c.1 < 512 * (e + 1))
  (List.range 512).map (fun n => (mget (0 : BitVec 32) own (512 * e + n)).toInt)

/-- Put the values and the exponent of an entry, whose words are encoded anew: R63, R135. -/
def Phys.setEntry (p : Phys) (e : Nat) (v : List Int) (exp : Int) : Phys :=
  let cells := ((v.take 512).mapIdx (fun n x => (512 * e + n, BitVec.ofInt 32 x))).filter (fun c => c.2 != 0)
  { p with acc := p.acc.filter (fun c => c.1 < 512 * e) ++ cells ++ p.acc.filter (fun c => 512 * (e + 1) ≤ c.1),
           eTag := mset p.eTag e (fitExp exp), weak := p.weak.filter (fun w => w.buffer != .acc || w.line != e) }

/-- The exponent of an entry. -/
def Phys.exp (p : Phys) (e : Nat) : Int := mget 0 p.eTag e
/-- The rescale count of an entry. -/
def Phys.rOf (p : Phys) (e : Nat) : Nat := mget 0 p.rTag e

/-- The exact sum of a result and an entry, aligned to the larger exponent with RHE: R64. -/
def alignAdd (a : List Int) (ea : Int) (p : List Int) (ep : Int) : List Int × Int :=
  let t := max ea ep
  (List.zipWith (fun x y => rheInt x (ea - t) + rheInt y (ep - t)) a p, t)

/-- Whether a value lies in the signed 32-bit range. -/
def fits32 (v : Int) : Bool := decide (-2147483648 ≤ v ∧ v ≤ 2147483647)

/-- The tag word of an entry is read: R63, R135. -/
def State.tagRead (s : State) (n e : Nat) : State := s.readWeak n [(tagBase + 4 * e, 4)]

/-- The values and the tag word of an entry are read: R63, R135. -/
def State.entryRead (s : State) (n e : Nat) : State := s.readWeak n [(bufEnd + 2048 * e, 2048), (tagBase + 4 * e, 4)]

/-- An entry is written: it becomes (p, E_p), r stays, sat clears: R63, R64. -/
def State.accWrite (s : State) (n e : Nat) (p : List Int × Int) : State :=
  ((s.tagRead n e).modP n (fun x => { x.setEntry e p.1 p.2 with sat := x.sat.filter (fun i => i != e) })).modCore n (fun c =>
    { c with mx := { c.mx with satN := mdel c.mx.satN e } })

/-- A result is added to an entry by `mm.pass` or `mm.diag`, saturating: R64, R80. -/
def State.accAdd (s : State) (n e : Nat) (p : List Int × Int) : State :=
  let x := s.pcore n
  let (v, t) := alignAdd (x.entry e) (x.exp e) p.1 p.2
  let hits := v.countP (fun y => !fits32 y)
  let s := (s.entryRead n e).modP n (fun x => x.setEntry e (v.map (fun y => (satInt (-2147483648) 2147483647 y).1)) t)
  if hits = 0 then s
  else
    (s.modP n (fun x => { x with sat := if x.sat.contains e then x.sat else x.sat ++ [e] })).modCore n (fun c =>
      { c with mx := { c.mx.count 0 hits 0 0 with satN := mset c.mx.satN e (mget 0 c.mx.satN e + hits) } })

/-- The entry is zeroed with its tag word: R61. -/
def State.accClear (s : State) (n e : Nat) : State :=
  (s.modP n (fun x => { x.setEntry e [] 0 with rTag := mset x.rTag e 0, sat := x.sat.filter (fun i => i != e),
                                               ovf := x.ovf.filter (fun i => i != e) })).modCore n (fun c =>
    { c with mx := { c.mx with satN := mdel c.mx.satN e } })

/-- The sum of an entry over the passes since the block's last spill, none where an add leaves the 32-bit range:
R64, R75. -/
def foldEntry : List (List Int × Int) → Option (List Int × Int)
  | [] => none
  | p :: ps => ps.foldl (fun a q =>
      match a with
      | none => none
      | some a =>
        let b := alignAdd a.1 a.2 q.1 q.2
        if b.1.all fits32 then some b else none) (some p)

/-- The entry repeated with its rescale count raised until the sum fits, at most to `b`: R75, R76. At `b` every
shifted element is 0. -/
def repeatEntry (contribs : Nat → List (List Int × Int)) (b : Nat) : Nat → Nat → Nat × (List Int × Int)
  | 0, r => (r, (foldEntry (contribs r)).getD (List.replicate 512 0, r))
  | k + 1, r =>
    match foldEntry (contribs (min (r + 1) b)) with
    | some v => (min (r + 1) b, v)
    | none => repeatEntry contribs b k (r + 1)

/-! ### Outputs -/

/-- A PB64 element: R66. -/
def pbWord (v e : Int) : Nat := wrapN 56 v + wrapN 8 (fitExp e) * 2 ^ 56

/-- The PB64 sum of (v, e) and (a, ea), and whether it was realigned: R66. -/
def pbAdd (v e a ea : Int) : Int × Int × Bool :=
  let t := max e (ea - 24)
  let x := rheInt v (e - t) + rheInt a (ea - t)
  if -(2 ^ 55) ≤ x ∧ x < 2 ^ 55 then (x, t, false) else (rheInt x (-8), t + 8, true)

/-- The largest value of the signed output element of an AB mode. -/
def outTop (mode : Nat) : Int := 2 ^ (8 * outBytes mode - 1) - 1

/-- An output element: its bits, whether it was clamped, whether it was realigned, and the value written as v × 2^E:
R65, R66. -/
def outElem (mode sh : Nat) (add : Bool) (v ea : Int) (old : Nat) : Nat × Bool × Bool × Int × Int :=
  if mode ≤ 1 then
    let (x, e, moved) := if add then pbAdd (sextN 56 old) (sextN 8 (old / 2 ^ 56)) v ea else (v, ea, false)
    (pbWord x e, false, moved, x, e)
  else
    let y := satInt (-(outTop mode) - 1) (outTop mode) (rheInt v (ea - sh))
    (wrapN (8 * outBytes mode) y.1, y.2, false, v, ea)

/-- The monitor observes v × 2^e and `sats` saturations of it: R78. -/
def Monitor.observe (m : Monitor) (v e : Int) (sats : Nat) : Monitor :=
  let m := { m with count := satAdd (top 32) m.count 1, satCount := satAdd (top 32) m.satCount sats }
  if v = 0 then { m with zeroCount := satAdd (top 32) m.zeroCount 1 }
  else
    let l := v.natAbs.log2
    let x : Int := l + e
    let lead := if l ≥ 16 then v.natAbs >>> (l - 15) else v.natAbs <<< (15 - l)
    let m := match m.maxExp with
      | some y => if x > y then { m with maxExp := some x, maxMant := lead }
                  else if x = y then { m with maxMant := max m.maxMant lead } else m
      | none => { m with maxExp := some x, maxMant := lead }
    { m with hist := mcount (top 32) m.hist (min 15 (x - m.histBase).toNat) 1,
             satCount := satAdd (top 32) m.satCount (b2n (decide (x ≥ m.satExp))) }

/-- Where and how an ACC entry goes out. -/
structure OutRow where
  /-- the matrix row it belongs to -/
  work : Nat
  mode : Nat
  sh : Nat
  /-- it adds to the PB64 elements there: R66 -/
  add : Bool
  addr : Nat
  /-- cycle in which the entry is read; the output is visible 8 cycles later: R65 -/
  readAt : Nat
  /-- columns the monitor observes, 0 for none: R78 -/
  mon : Nat
  /-- the monitor observes the PB64 element written, else the value moved -/
  monFinal : Bool := false

/-- The bytes an entry goes out as, with what that counts and what the monitor observes: R65, R66, R78. `old` is what an
adding output finds. DESIGN CHOICE: of an AB-mode output the monitor observes the value moved out of ACC with E_a, not the rounded and clamped
element, and a second monitored drain of an entry counts its ACC saturations again (entry 52). -/
def State.outData (s : State) (n e : Nat) (o : OutRow) (old : List Byte) : State × List Byte :=
  let x := s.pcore n
  let ea := x.exp e
  let es := (x.entry e).mapIdx (fun i v => (v, outElem o.mode o.sh o.add v ea (leAt old (8 * i) 8)))
  let accSats := if o.mon = 0 ∨ o.monFinal then 0 else mget 0 (s.core n).mx.satN e
  let s := s.modCore n (fun c =>
    let m := { c.mx.mon with satCount := satAdd (top 32) c.mx.mon.satCount accSats }
    let m := (es.take o.mon).foldl (fun m y =>
      if o.monFinal then m.observe y.2.2.2.2.1 y.2.2.2.2.2 (b2n y.2.2.1) else m.observe y.1 ea (b2n y.2.2.1)) m
    { c with mx := { c.mx.count 0 0 (es.countP (fun y => y.2.2.2.1)) (es.countP (fun y => y.2.2.1)) with mon := m } })
  (s.entryRead n e, es.flatMap (fun y => leBytes (outBytes o.mode) y.2.1))

/-- Entry `e` goes out, visible 8 cycles after it is read, to what stands there just before where the output adds: R65, R66. An output
that has landed by cycle `lim` does not land again. -/
def State.outRow (s : State) (n lim e : Nat) (o : OutRow) : State :=
  let r : EngineRead := { due := o.readAt + 8, off := o.addr, len := 512 * outBytes o.mode, into := some o.work }
  let old := if o.add then s.engineRead n lim r else []
  let s := if o.add then s.see n lim [r] else s
  let (s, bs) := s.outData n e o old
  if o.readAt + 8 ≤ lim then s else s.pend n [⟨o.readAt + 8, .mout o.work o.addr bs⟩]

/-! ### Timing and outstanding rows -/

/-- The first cycle in which an entry may be touched again: R62, R65. -/
def Matrix.entryFree (x : Matrix) (e : Nat) : Nat :=
  match mfind x.entLast e with
  | some t => t + 1
  | none => 0

/-- Entry `e` is read or written in cycle `t`. -/
def Matrix.touch (x : Matrix) (e t : Nat) : Matrix :=
  { x with entLast := mset x.entLast e (max t (mget 0 x.entLast e)) }

/-- The cycle in which a transfer of `len` cycles begins for a row issued in cycle `t`, and the engine with the WB port
taken until it ends: R60. -/
def Matrix.transfer (x : Matrix) (t len : Nat) : Nat × Matrix :=
  let b := max t (max x.xferEnd (x.start - 6))
  (b, { x with xferEnd := b + len })

/-- The start cycle of a pass of `m` rows into the entries from `e0` up, no earlier than `t`: R60, R62. -/
def Matrix.passStart (x : Matrix) (t e0 m b l : Nat) : Nat :=
  (List.range m).foldl (fun st i => max st (x.entryFree (e0 + i) - l - i * b)) (max t x.streamEnd)

/-- Cycle of the ACC write of row `i` of a pass: R59. -/
def PassAt.write (p : PassAt) (i : Nat) : Nat := p.start + p.lat + i * p.b

/-- A pass starts; the timing of passes complete more than 8 cycles before `now` is forgotten: R56, R60, R62. -/
def Matrix.beginPass (x : Matrix) (now : Nat) (plane : Option Plane) (keep : Bool) (e0 : Nat) (p : PassAt) : Matrix :=
  let x := { x with start := p.start, streamEnd := p.start + p.rows * p.b, active := plane,
                    back := if keep then x.back else x.active,
                    log := x.log.filter (fun q => decide (now < q.write q.rows + 8)) ++ [p] }
  (List.range p.rows).foldl (fun x i => x.touch (e0 + i) (p.write i)) x

/-- A row issued in cycle `t` joins the outstanding ones; rows that are complete and owe nothing leave: R62, R72. -/
def State.addWork (s : State) (n t : Nat) (w : MWork) : State :=
  s.modCore n (fun c =>
    { c with mx := { c.mx with work := c.mx.work.filter (fun x => t < x.doneAt || x.output || !x.rescales.isEmpty) ++ [w] } })

/-! ### mm.pass and mm.diag -/

/-- One pass, its rows against one S tile, or element-wise with S on the diagonal: R58 to R64, R77. DESIGN CHOICE: an `mm.diag` that keeps a
plane which an `mm.pass` loaded computes with that dense plane, as R61 has it (entry 52). -/
def State.enginePass (s : State) (n lim id t : Nat) (m : MSlot) (diag : Bool) (x w : Nat) : State :=
  let b := xBits m.xFmt
  let l := lPass b m.g
  let len := if diag then 16 else 16 * sBits m.sFmt
  let mx := (s.core n).mx
  let (begin_, mx) := if m.keepS then (t, mx) else mx.transfer t len
  let start := mx.passStart (if m.keepS then t else begin_ + len + 6) m.e0 m.rows b l
  let plane := if m.keepS then mx.active else some (s.readPlane n lim w m.sFmt begin_ diag)
  let row (i : Nat) : Nat := x + i * xRowBytes m.xFmt
  let rows := (List.range m.rows).map (fun i =>
    if m.xCb then s.xColumn n lim m.xFmt x i (start + i * b) else s.xRow n lim m.xFmt (row i) (start + i * b))
  let reads := (if m.keepS then [] else planeReads w m.sFmt begin_ diag) ++ (List.range m.rows).flatMap (fun i =>
    if m.xCb then columnReads m.xFmt x i (start + i * b) else [xRead m.xFmt (row i) (start + i * b)])
  let q : PassIn := { plane := plane, xFmt := m.xFmt, shift8 := m.sShift8, rows := rows, cols := 512 }
  let at_ : PassAt := { begin_ := begin_, xfer := if m.keepS then 0 else len, start := start, b := b, lat := l, rows := m.rows }
  let s := s.modCore n (fun c => { c with mx := mx.beginPass t plane m.keepS m.e0 at_ })
  let s := s.see n lim reads
  let s := (List.range m.rows).foldl (fun s i =>
    let e := m.e0 + i
    let p := q.result i ((s.pcore n).rOf e)
    if m.acc then s.accAdd n e p else s.accWrite n e p) s
  s.addWork n t { id := id, doneAt := start + l + (m.rows - 1) * b, output := false }

/-! ### mm.drain and mm.mon -/

/-- The cycles in which `k` entries from number `j` on are read, no earlier than `free` lets each, at a rate: R65. -/
def readTimes (free : Nat → Nat) (rate : Nat) : Nat → Nat → Option Nat → List Nat
  | 0, _, _ => []
  | k + 1, j, prev =>
    let r := max (free j) (match prev with
      | some p => p + rate
      | none => 0)
    r :: readTimes free rate k (j + 1) (some r)

/-- The cycles in which a drain reads its entries: R65. -/
def Matrix.drainReads (x : Matrix) (t e0 rate k : Nat) : List Nat :=
  readTimes (fun j => max t (x.entryFree (e0 + j))) rate k 0 none

/-- The cycles in which a spill reads its entries: a read that meets an overflow is made in the cycle after its rescale ends, e + 1 of R75,
three before issue resumes, and the later ones follow (R65, R70). -/
def Matrix.spillReads (x : Matrix) (seqs : List Rescale) (rate k : Nat) : List Nat :=
  readTimes (fun j => max (x.entryFree j) (maxN ((seqs.filter (fun r => r.entries.contains j)).map (fun r => r.due - 3)))) rate k 0 none

/-- ACC entries move to PB or AB, counted into `ranges` at the check stage: R65, R66, R72, R78. -/
def State.engineDrain (s : State) (n lim id t : Nat) (m : MSlot) (o : Nat) (ranges : List Nat) : State :=
  let reads := (s.core n).mx.drainReads t m.drainE0 (outRate m.out) m.drainCount
  let mon := if m.bits 18 18 = 1 then 512 else 0
  let s := s.addWork n t { id := id, doneAt := maxN reads + 8, output := true, ranges := ranges }
  (List.range m.drainCount).foldl (fun s j =>
    let e := m.drainE0 + j
    let at_ := reads.getD j 0
    let s := s.outRow n lim e { work := id, mode := m.out, sh := m.bits 23 20, add := m.out == 1,
                                addr := o + j * m.oStride, readAt := at_, mon := mon }
    let s := s.modCore n (fun c => { c with mx := c.mx.touch e at_ })
    if m.bits 19 19 = 1 then s.accClear n e else s) s

/-- The monitor block is stored, visible 4 cycles after the preceding matrix work completes, then cleared with new
bases: R79. -/
def State.engineMon (s : State) (n lim id t : Nat) (m : MSlot) (a : Nat) : State :=
  let mx := (s.core n).mx
  let comp := (mx.work.map (fun w => w.doneAt)).foldl max t
  let s := if comp + 4 ≤ lim then s else s.pend n [⟨comp + 4, .mout id a mx.mon.block⟩]
  (s.modCore n (fun c =>
    { c with mx := { c.mx with mon := { histBase := sextN 8 (m.bits 23 16), satExp := sextN 8 (m.bits 31 24) } } })).addWork n t
      { id := id, doneAt := comp + 4, output := false }

/-! ### mm.tile -/

/-- One more entry in each of the first `k` rounds. -/
def addRounds : List Nat → Nat → List Nat
  | xs, 0 => xs
  | [], k + 1 => 1 :: addRounds [] k
  | x :: xs, k + 1 => (x + 1) :: addRounds xs k

/-- Entry `e` overflows in cycle `t` and is repeated in `k` rounds of `passes` passes. A sequence takes in every entry that overflows
within three cycles of its first; issue stops four cycles after the first (R75, R76). -/
def joinRescale (seqs : List Rescale) (t e k passes : Nat) : List Rescale :=
  let new : Rescale := { due := t + 4, entries := [e], rounds := addRounds [] k, passes := passes }
  match seqs.reverse with
  | u :: rest =>
    if t + 1 ≤ u.due then
      rest.reverse ++ [{ u with entries := u.entries ++ [e], rounds := addRounds u.rounds k, passes := max u.passes passes }]
    else seqs ++ [new]
  | [] => [new]

/-- Where the engine stands in a rescale sequence: the first cycle in which the WB port is free, the start of the last pass and the
first cycle after its streaming. -/
structure Redo where
  port : Nat
  start : Nat := 0
  stream : Nat := 0
  deriving DecidableEq, Repr

/-- A tile is reloaded under R60, and its rows stream for some cycles: R75. -/
def Redo.pass (x : Redo) (len cycles : Nat) : Redo :=
  let b := max x.port (x.start - 6)
  let start := max (b + len + 6) x.stream
  { port := b + len, start := start, stream := start + cycles }

/-- Cycles of streaming of a pass that are in flight at the end of cycle `snap`: those of rows that have started and whose ACC write is
still to come (R75). -/
def PassAt.inFlight (p : PassAt) (snap : Nat) : Nat :=
  let first := if snap < p.write 0 then 0 else (snap - p.write 0) / p.b + 1
  min (p.start + p.rows * p.b) (snap + 1) - (p.start + first * p.b)

/-- The length e - t of a rescale sequence: the passes since the spill are repeated for the affected entries in each round, the streaming
in flight at the snapshot is replayed, and the tile of the other plane is reloaded as far as it had come (R60, R75, R76; entry 12). -/
def Matrix.rescaleLength (x : Matrix) (u : Rescale) : Nat :=
  let t := u.due - 4
  let snap := u.due - 1
  match x.log.find? (fun p => decide (p.write 0 ≤ t ∧ t < p.write p.rows)) with
  | none => 4
  | some q =>
    let redo := (u.rounds.flatMap (fun k => List.replicate u.passes (k * q.b))).foldl (fun z c => z.pass q.xfer c) { port := u.due : Redo }
    let live := x.log.filter (fun p => decide (p.start ≤ snap) && decide (0 < p.inFlight snap))
    let redo := live.foldl (fun z p =>
      if p = q ∨ p.xfer = 0 then { z with stream := z.stream + p.inFlight snap } else z.pass p.xfer (p.inFlight snap)) redo
    let back := match x.log.find? (fun p => decide (snap < p.start) && p.xfer != 0) with
      | some p => if p.begin_ ≤ snap then max redo.port (redo.start - 6) + min (p.xfer + 6) (snap + 1 - p.begin_) else 0
      | none => 0
    max redo.stream back - t

/-- The folder between two passes of a tile. -/
structure Fold where
  s : State
  /-- passes of the block since its last spill, oldest first: R75 -/
  since : List PassIn := []
  /-- spills of the block so far -/
  spills : Nat := 0
  /-- start and row count of the block before: R71 -/
  before : Option (Nat × Nat) := none
  /-- rescale sequences so far -/
  seqs : List Rescale := []
  /-- last cycle of output so far -/
  last : Nat := 0
  /-- the cycle at which the engine stands: reads before it have been made -/
  lim : Nat := 0

/-- A row of a tile's pass reaches its entry in cycle `t`: the first pass since a spill writes, the others add, and an
overflow is repeated at a higher rescale count (R64, R75, R76). -/
def Fold.row (f : Fold) (n b m t : Nat) : Fold :=
  let r := (f.s.pcore n).rOf m
  match f.since.reverse with
  | [] => f
  | q :: _ =>
    let p := q.result m r
    let v := if f.since.length = 1 then some p
      else
        let x := f.s.pcore n
        let y := alignAdd (x.entry m) (x.exp m) p.1 p.2
        if y.1.all fits32 then some y else none
    match v with
    | some v =>
      let s := f.s.modP n (fun x => { x.setEntry m v.1 v.2 with
        sat := if f.since.length = 1 then x.sat.filter (fun i => i != m) else x.sat })
      if f.since.length = 1 then
        { f with s := s.modCore n (fun c => { c with mx := { c.mx with satN := c.mx.satN.filter (fun e => e.1 != m) } }) }
      else { f with s := s }
    | none =>
      let (r', v) := repeatEntry (fun r => f.since.map (fun q => q.result m r)) b (b - r) r
      { f with s := f.s.modP n (fun x => { x.setEntry m v.1 v.2 with
                 rTag := mset x.rTag m r', ovf := if x.ovf.contains m then x.ovf else x.ovf ++ [m] }),
               seqs := joinRescale f.seqs t m (r' - r) f.since.length }

/-- The X row of a tile's pass, its padding elements 0: R69, R133, R446. -/
def State.tileRow (s : State) (n lim : Nat) (t : TileDesc) (b : TileBase) (kc m due : Nat) : XRow :=
  let x := if t.xCb then
      s.xColumn n lim t.xFmt (t.blocks b kc) m due
    else s.xRow n lim t.xFmt (b.x + m * t.xStride + kc * xRowBytes t.xFmt) due
  (x.1.take (t.k - 128 * kc) ++ List.replicate (128 - (t.k - 128 * kc)) 0, x.2)

/-- The reads of such a row. -/
def TileDesc.rowReads (t : TileDesc) (b : TileBase) (kc m due : Nat) : List EngineRead :=
  if t.xCb then columnReads t.xFmt (t.blocks b kc) m due else [xRead t.xFmt (b.x + m * t.xStride + kc * xRowBytes t.xFmt) due]

/-- Pass `j` of the output block of window `w` and N chunk `nc`, issued in cycle `t0`: R60, R69 to R71. DESIGN CHOICE: the monitor observes the
N columns of a partial last chunk and not the zeros that R446 writes behind them (entry 52). -/
def Fold.pass (f : Fold) (n id t0 : Nat) (t : TileDesc) (b : TileBase) (nc w j : Nat) : Fold :=
  let m := t.winRows w
  let kc := if t.split then j / 2 else j
  let hi := t.split && j % 2 == 1
  let fmt := if t.split then (if hi then 5 else 6) else t.sFmt
  let bits := xBits t.xFmt
  let l := lPass bits t.g
  let co := outRate t.out
  let len := 16 * sBits fmt
  let mx := (f.s.core n).mx
  let (begin_, mx) := mx.transfer t0 len
  let plane := some (f.s.readPlane n f.lim (t.planeAddr b nc kc hi) fmt begin_ false)
  let after := match f.before with
    | some (st, rows) => if j = 0 then st + 2 + (co - bits) * (rows - 1) else 0
    | none => 0
  let start := mx.passStart (max (begin_ + len + 6) after) 0 m bits l
  let q : PassIn := { plane := plane, xFmt := t.xFmt, shift8 := hi, cols := min 512 (t.n - 512 * nc),
                      rows := (List.range m).map (fun i => f.s.tileRow n f.lim t b kc (256 * w + i) (start + i * bits)) }
  let at_ : PassAt := { begin_ := begin_, xfer := len, start := start, b := bits, lat := l, rows := m }
  let reads := planeReads (t.planeAddr b nc kc hi) fmt begin_ false ++
    (List.range m).flatMap (fun i => t.rowReads b kc (256 * w + i) (start + i * bits))
  let f := { f with s := (f.s.modCore n (fun c => { c with mx := mx.beginPass t0 plane false 0 at_ })).see n f.lim reads,
                    since := f.since ++ [q] }
  let f := (List.range m).foldl (fun f i => f.row n bits i (start + l + i * bits)) f
  let lastPass := j + 1 = t.blockPasses
  if (j + 1) % t.spill = 0 ∨ lastPass then
    let x := (f.s.core n).mx
    let reads := x.spillReads f.seqs co m
    let s := (List.range m).foldl (fun s i =>
      let at_ := reads.getD i 0
      (s.outRow n f.lim i { work := id, mode := t.out, sh := t.sh,
                            add := decide (t.out ≤ 1) && (t.pbAdd || decide (0 < f.spills)),
                            addr := b.o + (256 * w + i) * t.so + 512 * nc * outBytes t.out, readAt := at_,
                            mon := if t.mon ∧ lastPass then q.cols else 0, monFinal := decide (t.out ≤ 1) }).modCore n
        (fun c => { c with mx := c.mx.touch i at_ })) f.s
    { f with s := s, since := [], spills := f.spills + 1, last := max f.last (maxN reads + 8),
             before := if lastPass then some (start, m) else f.before }
  else f

/-- An output block, all its passes in order: R69, R70. -/
def Fold.block (f : Fold) (n id t0 : Nat) (t : TileDesc) (b : TileBase) (nc w : Nat) : Fold :=
  (List.range t.blockPasses).foldl (fun f j => f.pass n id t0 t b nc w j) { f with since := [], spills := 0 }

/-- A whole tile: N chunk outermost, then window, then K chunk (R69). -/
def Fold.tile (f : Fold) (n id t0 : Nat) (t : TileDesc) (b : TileBase) : Fold :=
  (List.range t.nc).foldl (fun f nc => (List.range t.w).foldl (fun f w => f.block n id t0 t b nc w) f) f

/-- The overflows that the range monitor counts in sat_count: R221. DESIGN CHOICE: one for each entry of a sequence (entry 52). -/
def overflows (seqs : List Rescale) : Nat := sumN (seqs.map (fun r => r.entries.length))

/-- The folder runs the logical tile that the descriptor `d` gives, counted into `ranges` at the check stage; its rescale sequences and,
under mon, their overflows count in the range monitor in matrix order: R68 to R76, R79, R221, R446. -/
def State.engineTile (s : State) (n lim id t : Nat) (d : List Byte) (b : TileBase) (ranges : List Nat) : State :=
  let td := parseTile d
  let f := Fold.tile { s := s, lim := lim } n id t td b
  (f.s.modCore n (fun c => { c with mx := { c.mx with mon := { c.mx.mon with
      rescales := satAdd (top 16) c.mx.mon.rescales f.seqs.length,
      satCount := satAdd (top 32) c.mx.mon.satCount (if td.mon then overflows f.seqs else 0) } } })).addWork n t
    { id := id, doneAt := f.last, output := true, ranges := ranges, rescales := f.seqs }

/-! ### What the engine does, and does again -/

/-- A rescale sequence of row `id` begins: it is counted, and its entries no longer await it (R75, R76). -/
def State.engineRescaled (s : State) (n id : Nat) (entries : List Nat) : State :=
  (s.modCore n (fun c => { c with mx := { c.mx.count 1 0 0 0 with
    work := c.mx.work.map (fun y => if y.id = id then { y with rescales := y.rescales.drop 1 } else y) } })).modP n (fun p =>
      { p with ovf := p.ovf.filter (fun e => !entries.contains e) })

/-- The last output of row `id` is written by cycle `t`: R72. -/
def State.engineOutput (s : State) (n id t : Nat) : State :=
  s.modCore n (fun c => { c with mx := { c.mx with
    work := (c.mx.work.map (fun x => if x.id = id then { x with output := false } else x)).filter
      (fun x => t < x.doneAt || x.output || !x.rescales.isEmpty) } })

/-- What the engine does, standing at cycle `lim`: R61, R62. -/
def State.engineOp (s : State) (n lim : Nat) : EngineOp → State
  | .pass id t m diag x w => s.enginePass n lim id t m diag x w
  | .drain id t m o ranges => s.engineDrain n lim id t m o ranges
  | .mon id t m a => s.engineMon n lim id t m a
  | .tile id t d x w o ranges => s.engineTile n lim id t d { x := x, s := w, o := o } ranges
  | .rescaled id entries => s.engineRescaled n id entries
  | .output id t => s.engineOutput n id t

/-- The row whose outputs an operation puts on their way. -/
def EngineOp.row? : EngineOp → Option Nat
  | .pass id _ _ _ _ _ | .drain id _ _ _ _ | .mon id _ _ _ | .tile id _ _ _ _ _ _ => some id
  | .rescaled _ _ | .output _ _ => none

/-- The script with one operation more, while rows still read: R62. -/
def Matrix.noted (x : Matrix) (op : EngineOp) : List EngineOp := if x.base.isSome then x.script ++ [op] else x.script

/-- The engine does something that reads nothing. -/
def State.engineEvent (s : State) (n : Nat) (op : EngineOp) : State :=
  (s.engineOp n (s.cycle n) op).modCore n (fun c => { c with mx := { c.mx with script := c.mx.noted op } })

/-- The engine takes up a row that issues: R62. -/
def State.engineIssue (s : State) (n : Nat) (op : EngineOp) : State :=
  let p := s.pcore n
  let x := (s.core n).mx
  let b := x.base.getD { engine := x.toEngine, acc := p.acc, eTag := p.eTag, rTag := p.rTag, ovf := p.ovf, sat := p.sat }
  (s.engineOp n (s.cycle n) op).modCore n (fun c => { c with mx := { c.mx with base := some b, script := c.mx.script ++ [op] } })

/-- Whether a write on its way is an output of a row for which `f` holds. -/
def Pend.outOf (q : Pend) (f : Nat → Bool) : Bool :=
  match q.dst with
  | .mout k _ _ => f k
  | _ => false

/-- Two outputs of one row that land at one place in one cycle. -/
def Pend.sameOut (q w : Pend) : Bool :=
  match q.dst, w.dst with
  | .mout k o _, .mout j p _ => k == j && o == p && q.due == w.due
  | _, _ => false

/-- An operation is done again: its outputs still on their way give way to the new ones. -/
def State.again (s : State) (n lim : Nat) (op : EngineOp) : State :=
  (s.modCore n (fun c => { c with pipe := c.pipe.filter (fun q => !q.outOf (fun k => op.row? == some k)) })).engineOp n lim op

/-- The rows since `b` settle anew, the reads made before cycle `lim` as they were found: ACC, its tag words, the engine and the outputs on
their way become what these rows make of them (R62). -/
def State.settleAnew (s : State) (n lim : Nat) (b : EngineBase) : State :=
  let c := s.core n
  let own (q : Pend) : Bool := q.outOf (fun k => c.mx.script.any (fun op => op.row? == some k))
  let z := (s.modCore n (fun c => { c with mx := { toEngine := b.engine, seen := c.mx.seen.filter (fun r => r.1.past lim) } })).modP n (fun p =>
    { p with acc := b.acc, eTag := b.eTag, rTag := b.rTag, ovf := b.ovf, sat := b.sat })
  let z := c.mx.script.foldl (fun z op => z.again n lim op) z
  let y := z.pcore n
  let new := (z.core n).pipe.filter own
  (s.modCore n (fun c => { c with
      pipe := c.pipe.filterMap (fun q => if own q then new.find? q.sameOut else some q) ++ new.filter (fun w => !c.pipe.any w.sameOut)
      mx := { (z.core n).mx with base := some b, script := c.mx.script } })).modP n (fun p =>
    { p with acc := y.acc, eTag := y.eTag, rTag := y.rTag, ovf := y.ovf, sat := y.sat })

/-- The engine reads in cycle `t`, which ends: where a read, this one or one to come, finds other bytes than the row that makes it
settled with, the rows settle anew (R62). Nothing is kept once every read has been made. -/
def State.resettle (s : State) (n t : Nat) : State :=
  let x := (s.core n).mx
  match x.base with
  | none => s
  | some b =>
    let s := if x.seen.all (fun r => r.1.past t || s.viewRead n r.1.off r.1.len r.1.due r.1.into == r.2) then s else s.settleAnew n t b
    s.modCore n (fun c => if c.mx.seen.all (fun r => decide (r.1.due ≤ t)) then { c with mx := c.mx.close } else c)

end Sys2Proof.Machine
end

