-- ==== Sys2Proof/Machine/Turn.lean ====
section
/-!
DEFINITION. Issue cycles and held turns: the gang (R44, R45), the writes that become visible (R27, R47), the move to
the next row (R29, R32), the start of a held turn (R39, R54, R177), and what a slot command does as a whole (entry 5).
-/

namespace Sys2Proof.Machine

/-! ### Gangs -/

/-- Whether a core issues no row of a slot command now: held, before its start time, past `task.end`, or stopped. -/
def Core.frozen (c : Core) : Bool :=
  c.held.isSome || (match c.phase with
    | .idle | .running => false
    | .ready | .ended | .castOff | .stopped => true)

/-- The members of a gang whose rows issue: their start time has come and their `task.end` has not issued (R44, R189, R190). -/
def State.issuing (s : State) (n : Nat) : List Nat := (s.gang n).filter (fun m => (s.core m).phase == .running)

/-- The members whose check stage goes on to new rows: it has not passed their `task.end` (R29). -/
def State.checking (s : State) (n : Nat) : List Nat := (s.issuing n).filter (fun m => !(s.core m).fetchEnd)

/-! ### Writes become visible -/

/-- Write bytes of a core's buffers through an engine or rib port; a check-stage read finds the old bytes for four
more issue cycles (R144). -/
def State.portWrite (s : State) (n off : Nat) (bs : List Byte) : State :=
  let t := s.cycle n
  let old := s.bufRead n off bs.length
  (s.modCore n (fun c => { c with chkOld := c.chkOld ++ [(t + 4, off, old)] })).bufWrite n off bs

/-- A write lands: R27, R47, R213. DESIGN CHOICE: two writes of one cycle to different elements of a vector register both stay, as R26 keeps the
later only where they meet (entry 53). -/
def State.land (s : State) (n : Nat) (d : Dest) : State :=
  match d with
  | .sreg r v => s.modCore n (fun c => { c with s := mset c.s r.toNat v })
  | .sview r v => s.modCore n (fun c => { c with sChk := mset c.sChk r.toNat v })
  | .vreg r m v => s.modCore n (fun c => { c with v := mset c.v r.toNat ((c.readV r &&& ~~~ m) ||| v) })
  | .mreg r m v => s.modCore n (fun c => { c with m := mset c.m r.toNat ((c.readM r &&& ~~~ m) ||| v) })
  | .vl v => s.modCore n (fun c => { c with vl := some v })
  | .vlview v => s.modCore n (fun c => { c with vlChk := some v })
  | .bytes core off bs => s.portWrite core off bs
  | .mout _ off bs => s.portWrite n off bs
  | .fifoWord core f w => s.modCore core (fun c =>
      let q : Fifo := mget {} c.fifos f
      { c with fifos := mset c.fifos f { q with words := q.words ++ [w], parity := q.parity ++ [wordParity w] } })
  | .credit core f => s.modCore core (fun c =>
      { c with fifos := mset c.fifos f { (mget {} c.fifos f : Fifo) with credits := (mget {} c.fifos f : Fifo).credits + 1 } })

/-- Whether a write is a rib write into a neighbour: it is applied after the neighbour's own (R47). -/
def Dest.isRib (n : Nat) : Dest → Bool
  | .bytes core _ _ => core != n
  | _ => false

/-- Land the writes of a core that are due by cycle `t` and pass `p`, in issue order. -/
def State.landDue (s : State) (n t : Nat) (p : Pend → Bool) : State :=
  let ps := (s.core n).pipe
  let s := s.modCore n (fun c => { c with pipe := ps.filter (fun x => !(decide (x.due ≤ t) && p x)) })
  (ps.filter (fun x => decide (x.due ≤ t) && p x)).foldl (fun s x => s.land n x.dst) s

/-- Words and credits of the tally network travel on while a core is held: R41, R213. -/
def Dest.isNetwork : Dest → Bool
  | .fifoWord _ _ _ | .credit _ _ => true
  | _ => false

/-! ### The next row -/

/-- What follows row `row` of a body: the loops still active and the next row (R32). -/
def afterRow (row : Nat) : List Loop → List Loop × Nat
  | [] => ([], row + 1)
  | l :: ls =>
    if l.last = row then
      if l.idx + 1 < l.count then ({ l with idx := l.idx + 1 } :: ls, l.first) else afterRow row ls
    else (l :: ls, row + 1)

/-- The row pointer and the loops after a fetched row: R29, R31, R32. -/
def Core.nextRow (c : Core) : Core :=
  match c.next with
  | some r => { c with pc := r, next := none }
  | none =>
    let (ls, r) := afterRow c.pc c.loops
    { c with pc := r, loops := ls }

/-! ### Holds -/

/-- The conditions that a core's check stage finds for a row, a slot command's as its issue cycle stands: R29, R38. -/
def State.checkHolds (s : State) (m : Nat) (x : Issue) : List (Nat × Nat) :=
  if x.fetched then (s.checkView m x.due).rowHolds m x else s.rowHolds m x

/-- The row of a core is held: its own lowest condition, or GANG (R39, R45, R54). -/
def Issue.held (x : Issue) (hs : List (Nat × Nat)) : Held :=
  let c := (lowest hs).getD (0xD, 0)
  { cause := c.1, detail := c.2, tag := x.tag, row := x.row, pips := x.pips, fetched := x.fetched,
    broke := hs.any (fun h => h.1 == 0xE) }

/-- A held row is checked again: a lower code, or the first of its own, becomes its cause (R39, R54). -/
def Held.again (h : Held) (hs : List (Nat × Nat)) : Held :=
  match lowest hs with
  | some x => { (if x.1 < h.cause ∨ h.cause = 0xD then { h with cause := x.1, detail := x.2 } else h) with
                broke := h.broke || hs.any (fun z => z.1 == 0xE) }
  | none => h

/-- One-shot breakpoints that matched are disarmed: R248. -/
def State.disarm (s : State) (n : Nat) (x : Issue) : State :=
  match s.debugOf n with
  | some d =>
    let hit := ((if x.fetched then s.checkView n x.due else s).breaksHit n x).filter (fun b => b.oneShot)
    if hit.isEmpty then s
    else { s with debug := (s.debug).map (fun e => if e = d then { e with breaks := e.breaks.filter (fun b => !hit.contains b) } else e) }
  | none => s

/-- Tally requests of held rows reach their units: those to own tallies first, the others together later (R177, R178). -/
def State.askTallies (s : State) (rows : List (Nat × Issue)) : State :=
  let reqs := rows.flatMap (fun r =>
    r.2.row.filterMap (if r.2.fetched then (s.core r.1).viewAt r.2.due else s.core r.1).tallyReq)
  let own := reqs.filter (fun r => r.1 == r.2.core)
  let far := reqs.filter (fun r => r.1 != r.2.core)
  let s := rows.foldl (fun s r => s.modCore r.1 (fun c =>
    { c with held := c.held.map (fun h => { h with asked := (r.2.row.filterMap c.tallyReq) != [] }) })) s
  let s := own.foldl (fun s r => s.request r.1 r.2) s
  let s := far.foldl (fun s r => s.modCore r.1 (fun c =>
    { c with reqs := insertReq r.2 (c.reqs.filter (fun x => x.core != r.2.core)) })) s
  far.foldl (fun s r => s.serviceTally r.1 r.2.tally) s

/-- Rows are held for the first time at every member of a gang, each with the conditions its own check stage finds: R39, R45. -/
def State.beginHold (s : State) (rows : List (Nat × Issue)) : State :=
  let s' := rows.foldl (fun s' r =>
    (s'.modCore r.1 (fun c => { c with held := some (r.2.held (s.checkHolds r.1 r.2)) })).disarm r.1 r.2) s
  s'.askTallies rows

/-! ### The end of a cycle -/

/-- The first place of a core's rows past the check stage is used up: R29. -/
def Core.popSkid (c : Core) : Core := { c with skid := c.skid.drop 1 }

/-- A cycle brings late holds that are not in force nearer: R40. -/
def Core.lateNearer (c : Core) : Core := { c with late := c.late.map (fun l => { l with after := l.after - 1 }) }

/-- The earliest cycle in which a write of a core becomes visible. -/
def Core.firstDue (c : Core) : Option Nat :=
  c.pipe.foldl (fun a p => match a with
    | some d => some (min d p.due)
    | none => some p.due) none

/-- Writes that a core's rows issued become visible up to cycle `t`, in the order of their cycles: R27, R190. -/
def State.landTo (s : State) (n t : Nat) : Nat → State
  | 0 => s
  | f + 1 => match (s.core n).firstDue with
    | none => s
    | some d => if d ≤ t then State.landTo (s.landDue n d (fun _ => true)) n t f else s

/-- Of `cycles` cycles, those that pass before a late hold or a rescale sequence of the core stops its pipelines: R40, R75. -/
def State.unhindered (s : State) (m cycles : Nat) : Nat :=
  (((s.core m).mx.work.filterMap (fun w => w.rescales.head?)).map (fun r => r.due - s.cycle m) ++
    (s.core m).late.map (fun l => l.after)).foldl min cycles

/-- Cycles are counted at a core that issues no row. -/
def State.countDrained (s : State) (m cycles : Nat) : State :=
  s.modCore m (fun c => { c with drained := c.drained + cycles, late := c.late.map (fun l => { l with after := l.after - cycles }) })

/-- The first cycle by which everything that a core's rows have put on its way has landed, and the engine has read what it has to. -/
def State.pipesDone (s : State) (m : Nat) : Nat :=
  maxN ((s.core m).pipe.map (fun p => p.due) ++ (s.core m).mx.seen.map (fun r => r.1.due + 1))

/-- One cycle passes at a core that issues no row: its engine reads, and what is due lands (R27, R62, R190). -/
def State.drainCycle (s : State) (m : Nat) : State :=
  let s := (s.resettle m (s.cycle m)).countDrained m 1
  s.landTo m (s.cycle m) (s.core m).pipe.length

/-- Cycles pass at a core that issues no row and is not held, past its `task.end`: what it has issued goes on to its end (R190). -/
def State.drainPass (s : State) (m cycles : Nat) : State :=
  let k := s.unhindered m cycles
  let j := min k (s.pipesDone m - s.cycle m)
  ((List.range j).foldl (fun s _ => s.drainCycle m) s).countDrained m (k - j)

/-- The members of a gang that have issued their `task.end`. -/
def State.endedIn (s : State) (n : Nat) : List Nat :=
  (s.gang n).filter (fun m => (s.core m).phase == .ended || (s.core m).phase == .castOff)

/-- The end of an issue cycle at the gang members: their engines have read (R62), `ROW_COUNT` counts it at those that issued, and writes due become visible, rib writes
last, also those that members past their `task.end` have issued (R27, R47, R53, R190, R294). -/
def State.advance (s : State) (n : Nat) (ms : List Nat) : State :=
  let es := (s.endedIn n).filter (fun m => !ms.contains m)
  let s := (ms ++ es).foldl (fun s m => s.resettle m (s.cycle m)) s
  let s := ms.foldl (fun s m =>
    (s.modP m (fun p => { p with rowCount := p.rowCount + 1 })).modCore m (fun c =>
      { c.lateNearer with wait := 0, quiet := 0, chkOld := c.chkOld.filter (fun e => (s.cycle m + 1) < e.1) })) s
  let s := es.foldl (fun s m => s.countDrained m 1) s
  let s := (ms ++ es).foldl (fun s m => s.landDue m (s.cycle m) (fun p => !p.dst.isRib m)) s
  (ms ++ es).foldl (fun s m => s.landDue m (s.cycle m) (fun p => p.dst.isRib m)) s

/-! ### Held turns -/

/-- Whether a cause is one of those R192 lists as quiet. -/
def quietCause (c : Nat) : Bool := 1 ≤ c && c ≤ 9

/-- Whether a core of a running task is quiet in the cycle now open: R192. -/
def State.quiet (s : State) (n : Nat) : Bool :=
  (s.core n).phase == .castOff || quietCause (s.curCause n).1 ||
  ((s.curCause n).1 == 0xD && (s.members n).any (fun m => quietCause (s.curCause m).1))

/-- Whether a core's wait count rises: held quietly, at cast-off, or without a running task: R192, R294. -/
def State.waits (s : State) (n : Nat) : Bool := !((s.core n).task.bind s.task).any Task.live || s.quiet n

/-- Held or idle cycles in the counts of quiet and waiting cycles: R192, R294. -/
def State.countQuiet (s : State) (m cycles : Nat) : State :=
  let q := s.quiet m
  let w := s.waits m
  s.modCore m (fun c => { c with quiet := if q then min (2 ^ 20) (c.quiet + cycles) else 0, wait := if w then min 4096 (c.wait + cycles) else 0 })

/-- Words and credits of the tally network travel on through a held cycle: R41, R213. -/
def State.networkPass (s : State) (n : Nat) : State :=
  let s := s.landDue n (s.cycle n + 1) (fun p => p.dst.isNetwork)
  s.modCore n (fun c => { c with pipe := c.pipe.map (fun p => if p.dst.isNetwork then { p with due := p.due - 1 } else p) })

/-- A held cycle at a core: it counts, in a new turn where none is in progress (R41, R53, R54). -/
def State.countHeld (s : State) (m : Nat) : State :=
  let cause := s.curCause m
  let new := (s.core m).turn.isNone
  ((s.countQuiet m 1).modP m (fun p =>
      { p with holdCount := if new then p.holdCount + 1 else p.holdCount, holdCycles := p.holdCycles + 1 })).modCore m (fun c =>
    { c with turn := some { cause := cause.1, detail := cause.2, len := (c.turn.elim 0 (fun t => t.len)) + 1 } })

/-- A held cycle of a late hold: one of its cycles is over, and with the last it ends (R40, R75). -/
def Core.lateCycle (c : Core) : Core :=
  { c with late := (c.late.map (fun l => if l.after = 0 then { l with left := l.left - 1 } else l)).filter (fun l =>
      l.after != 0 || l.left != 0 || !l.clear) }

/-- A held cycle can pass: no rescale sequence is due, and none is to be cleared now (R75). -/
def State.mayPass (s : State) (n : Nat) : Bool :=
  (s.members n).all (fun m => (s.rescaleDue m).isNone && (s.core m).late.all (fun l => l.after != 0 || l.left != 0))

/-- A held cycle of a gang is counted at every member, and the tally network goes on: R41, R53, R178. -/
def State.heldStep (s : State) (n : Nat) : State := (s.members n).foldl (fun s m => (s.countHeld m).networkPass m) s

/-- The late holds of a gang are one cycle nearer to their ends: R40, R45. -/
def State.lateStep (s : State) (n : Nat) : State :=
  (s.members n).foldl (fun s m => s.modCore m (fun c => c.lateCycle.lateNearer)) s

/-- A late hold is in force in a gang: R40, R45. -/
def State.lateIn (s : State) (n : Nat) : Bool := (s.members n).any (fun m => (s.core m).lateNow.isSome)

/-- A held turn ends at every member: its cause becomes the last one, with the row held, and the row that is due next meets no hold any
more (R53, R54). -/
def State.closeTurn (s : State) (n : Nat) : State :=
  let ms := (s.members n).filter (fun m => (s.core m).turn.isSome)
  let causes := ms.map (fun m => ((s.core m).turn.elim 0xD (fun t => t.cause), (s.core m).gangPos))
  let member := ((lowest (causes.filter (fun c => c.1 != 0xD))).getD (0, 0)).2
  ms.foldl (fun s m => s.modCore m (fun c =>
    match c.turn with
    | some t =>
      { c with turn := none, lastCause := t.cause, lastDetail := t.detail, lastMember := member, lastLen := min (2 ^ 24 - 1) t.len,
               lastTag := (match c.skid with
                 | some k :: _ => k.tag
                 | _ => c.held.elim 0 (fun h => h.tag)),
               skid := (match c.skid with
                 | some k :: ks => some { k with hold := none } :: ks
                 | ks => ks) }
    | none => c)) s

/-! ### Late holds -/

/-- A late hold is detected at a core that issues rows, or that is past its `task.end` with its pipelines still running: R40, R190. -/
def State.lateHold (s : State) (n : Nat) (l : Late) : State :=
  if (s.core n).phase = .running ∨ (s.core n).phase = .ended then s.modCore n (fun c => { c with late := c.late ++ [l] }) else s

/-! ### A slot command -/

/-- The deliveries that a slot starts are counted: R35. -/
def State.count (s : State) (n : Nat) (i : Instr) : State :=
  let rs := s.deliverRanges n i
  s.modCore n (fun c => c.countUp rs)

/-- What a slot does in the open issue cycle of core `n`: nothing while the core issues no rows; a held turn where the
check stage finds a condition; the end of the task where it breaches a rule; else its action (R29, R39, R167). -/
def State.issueSlot (s : State) (n : Nat) (i : Instr) (act : State → State) : State :=
  if (s.core n).frozen || s.stalled n then s
  else if (s.rowHolds n { row := [i] }).isEmpty then
    match s.slotBreach n i with
    | some (r, d) => s.programFault n r d
    | none => act (s.readWeak n (s.portSpans n i))
  else s.beginHold ((s.rowMembers n).map (fun m => (m, if m = n then { row := [i] } else {})))

/-- A short-path command as a whole: one with a reserved bit ends its task when it issues (R9). Its f field is the detail. -/
def State.shortExec (s : State) (b : BSlot) (i : Instr) (act : State → State) : Out :=
  let n := b.core.toNat
  if i.wf then done s (s.issueSlot n i act)
  else if (s.core n).frozen || s.stalled n then done s s
  else done s (s.programFault n 9 b.f.toNat)

/-- A slot command as a whole: refused by name where its slot is a reserved encoding (R9, R22). -/
def State.slotExec (s : State) (core : CoreId) (i : Instr) (name : String) (act : State → State) : Out :=
  if i.wf then done s (s.issueSlot core.toNat i act) else .refused (.reservedEncoding name)

end Sys2Proof.Machine
end

