-- ==== Sys2Proof/Machine/Buffer.lean ====
section
/-!
DEFINITION. The B slot's moves and the short path (R46, R47, R152, R156, R157, R177, R183): each operation sets out at
issue; READ_REQ, WRITE, TALLY_ADD and their answers carry it on.
-/

namespace Sys2Proof.Machine

/-! ### Rib paths -/

/-- The gang neighbours a `rib.put` goes to: prev, then next. Only a gang of 32 closes into a ring (R46). -/
def State.ribTargets (s : State) (n : Nat) (b : BSlot) : List Nat :=
  let c := s.core n
  let size := c.gangLast + 1
  let base := n - c.gangPos
  let prev := if c.gangPos ≠ 0 then [n - 1] else if size = 32 then [base + 31] else []
  let next := if c.gangPos + 1 < size then [n + 1] else if size = 32 then [base] else []
  if !c.inGang then []
  else (if b.cnt.getLsbD 0 then prev else []) ++ (if b.cnt.getLsbD 1 then next else [])

/-- 64 bytes go over rib paths, visible to the neighbour's rows three issue cycles later: R46, R47. -/
def actRibPut (b : BSlot) (s : State) : State :=
  let n := b.core.toNat
  let c := s.core n
  let d := s.bufRead n (b.ribSrc c) 64
  (s.ribTargets n b).foldl (fun s m => s.pend n [⟨s.cycle n + 3, .bytes m (b.ribDst c) d⟩]) s

/-- `RIB_PUT` as a command: R46. -/
def execRibPut (b : BSlot) (s : State) : Out := s.slotExec b.core (.ribPut b) "RIB_PUT" (actRibPut b)

/-! ### Short-path operations -/

/-- Whether a short-path operation has yet to take effect at its home: R157. -/
def State.shortPending (s : State) (n : Nat) (o : ShortOp) : Bool :=
  !o.done && (
    (s.core n).rels.any (fun r => r.origin == .short n o.id) ||
    s.flight.any (fun x => x.origin == .short n o.id && match x.kind with
      | .readReq | .write | .tallyAdd => true
      | .landing => o.kind == 1
      | _ => false))

/-- Whether operation `id` must let an earlier one to the same window or burst go first: R157. -/
def State.shortBlocked (s : State) (n id : Nat) : Bool :=
  let ops := (s.core n).short
  match ops.find? (fun o => o.id == id) with
  | none => false
  | some o => (ops.takeWhile (fun x => x.id != id)).any (fun x =>
      s.shortHome n x.remote == s.shortHome n o.remote && s.shortPending n x)

/-- An operation is outstanding from here: R157. -/
def Core.addShort (c : Core) (o : ShortOp) : Core := { c with short := c.short ++ [o] }

/-- 64 to 512 bytes set out to another place of the core's own buffers, in bursts of the external port: R128, R156. `ranges` are those its
check stage has counted it into (R35). -/
def actBMove (b : BSlot) (ranges : List Nat) (s : State) : State :=
  let n := b.core.toNat
  let c := s.core n
  let dst := c.chk b.dst
  let data := s.bufRead n (b.localSrc c) b.moveBytes
  let (id, s) := (s.readWeak n [(b.localSrc c, b.moveBytes)]).fresh
  let s := s.modCore n (fun c => c.addShort
    { id := id, kind := 1, remote := winBase + n * 0x1000000 + dst, loc := dst, len := b.moveBytes, ranges := ranges })
  (cutPiece 0 dst (b.moveBytes / 64 + 1) b.moveBytes).foldl (fun s p =>
    s.send { id := 0, kind := .landing, core := n, dst := winBase + n * 0x1000000 + p.dst, data := slice data p.src p.len,
             loc := p.dst, origin := .short n id }) s

/-- `B_MOVE` as a command: R156. -/
def execBMove (b : BSlot) (s : State) : Out := s.slotExec b.core (.bMove b) "B_MOVE" (fun s =>
  actBMove b (s.deliverRanges b.core.toNat (.bMove b)) (s.count b.core.toNat (.bMove b)))

/-- A short-path write sets out: R156. -/
def State.shortWrite (s : State) (n kind addr loc : Nat) (data : List Byte) : State :=
  let (id, s) := s.fresh
  (s.modCore n (fun c => c.addShort { id := id, kind := kind, remote := addr, loc := loc, len := data.length })).launch n
    { id := 0, kind := .write, core := n, dst := addr, data := data, origin := .short n id }

/-- A short-path write of up to 64 bytes: R156. -/
def actSpPut (b : BSlot) (s : State) : State :=
  let n := b.core.toNat
  let c := s.core n
  (s.readWeak n [(b.localSrc c, b.bytes)]).shortWrite n 8 (c.chk b.dst) (b.localSrc c) (s.bufRead n (b.localSrc c) b.bytes)

/-- `SP_PUT` as a command: R156. -/
def execSpPut (b : BSlot) (s : State) : Out := s.shortExec b (.spPut b) (actSpPut b)

/-- The 8 bytes of a scalar register set out: R156. -/
def actSpWord (b : BSlot) (s : State) : State :=
  let n := b.core.toNat
  let c := s.core n
  s.shortWrite n 11 (b.remote (.spWord b) c) 0 (leBytes 8 (c.readS b.cnt).toNat)

/-- `SP_WORD` as a command: R156. -/
def execSpWord (b : BSlot) (s : State) : Out := s.shortExec b (.spWord b) (actSpWord b)

/-- Tokens that a burst of `len` bytes spends: R154. -/
def burstTokens (len : Nat) : Nat := (len + 63) / 64

/-- A burst is green and spends its tokens, or yellow and spends none: R154, R155. -/
def Core.colour (c : Core) (tokens : Nat) : Core :=
  if 1024 * tokens ≤ c.tokens then { c with tokens := c.tokens - 1024 * tokens }
  else { c with yellow := satAdd (top 32) c.yellow 1 }

/-- A burst sets out in its colour, which goes before it on a link: R154, R333. -/
def State.launchBurst (s : State) (n : Nat) (x : Txn) : State :=
  let yellow := decide ((s.core n).tokens < 1024 * burstTokens x.len)
  (s.modCore n (fun c => c.colour (burstTokens x.len))).launch n x yellow

/-- Whether reads of an address may combine: those of the strand and FIFO registers never do (R197); nor do reads of
other registers and tallies here (entry 15). -/
def State.combinable (s : State) (n a : Nat) : Bool :=
  match s.place n a with
  | .hbm _ => true
  | .win _ off => decide (off < bufEnd)
  | .remote => match localPlace (a % 2 ^ 56) with
    | .hbm _ => true
    | .win _ off => decide (off < bufEnd)
    | _ => false
  | .bad => false

/-- The outstanding read of the same bytes that a read may combine with: R152, R184. -/
def State.combineWith (s : State) (n a len : Nat) (line : Bool) : Option Txn :=
  ((s.core n).combine.filter (fun e => e.addr == a && e.line == line && !e.marked)).findSome? (fun e =>
    s.flight.find? (fun x => x.id == e.txn && x.len == len))

/-- A read sets out, or combines with an outstanding read of the same bytes: R152, R173. `line` tells a short-path read
from a DMA burst, which spends its tokens once it is sent (R154); the buffers hold 16 lines and 32 bursts. -/
def State.sendRead (s : State) (n : Nat) (x : Txn) (line : Bool) : State :=
  let may := !x.vol && s.combinable n x.dst
  match if may then s.combineWith n x.dst x.len line else none with
  | some l =>
    let s := if line then s.modCore n (fun c => { c with combined := satAdd (top 16) c.combined 1 }) else s
    s.send (if l.kind = .readResp then { x with kind := .readResp, data := l.data } else { x with follows := some l.id })
  | none =>
    let id := s.nextId
    let room := decide (((s.core n).combine.countP (fun e => e.line == line)) < (if line then 16 else 32))
    let s := if may && room then
        s.modCore n (fun c => { c with combine := c.combine ++ [{ addr := x.dst, txn := id, line := line }] })
      else s
    if line then s.launch n x else s.launchBurst n x

/-- A short-path read of up to 64 bytes into AB or PB, counted into `ranges` at its check stage: R35, R156. -/
def actSpGet (b : BSlot) (ranges : List Nat) (s : State) : State :=
  let n := b.core.toNat
  let c := s.core n
  let addr := c.chk b.src
  let (id, s) := s.fresh
  (s.modCore n (fun c => c.addShort
    { id := id, kind := 9, remote := addr, loc := b.localDst c, len := b.bytes, ranges := ranges })).sendRead n
    { id := 0, kind := .readReq, core := n, vol := b.bits 3 3 == 1, dst := addr, len := b.bytes,
      origin := .short n id, loc := b.localDst c } true

/-- `SP_GET` as a command: R156. -/
def execSpGet (b : BSlot) (s : State) : Out := s.shortExec b (.spGet b) (fun s =>
  actSpGet b (s.deliverRanges b.core.toNat (.spGet b)) (s.count b.core.toNat (.spGet b)))

/-- A short-path add to a tally, an ACKED release of its scope: R156, R183. -/
def actSpSig (b : BSlot) (s : State) : State :=
  let n := b.core.toNat
  let c := s.core n
  let addr := c.chk b.dst
  let waits := s.outbound n (b.bits 5 4)
  let (id, s) := s.fresh
  (s.modCore n (fun c => c.addShort { id := id, kind := 10, remote := addr, loc := 0, len := 8 })).release n addr
    ((c.readS b.cnt).setWidth 32) waits (.short n id)

/-- `SP_SIG` as a command: R156. -/
def execSpSig (b : BSlot) (s : State) : Out := s.shortExec b (.spSig b) (actSpSig b)

/-! ### Completion -/

/-- The scoreboard counts of a delivery whose last burst is written are removed: R35, R37, R150. -/
def execDeliveryLastBurst (core : CoreId) (id : Nat) (s : State) : Out :=
  let n := core.toNat
  let c := s.core n
  match c.short.find? (fun o => o.id == id), (c.queues.flatMap (fun q => q.2)).find? (fun e => e.id == id) with
  | some o, _ =>
    if o.done ∧ !o.counted then
      done s (s.modCore n (fun c => { c.countDown o.ranges with
        short := c.short.map (fun x => if x.id = id then { x with counted := true } else x) }))
    else done s s
  | none, some e =>
    if e.isGet ∧ e.landed = e.desc.bursts.length ∧ !e.counted then
      done s (s.modCore n (fun c => { c.countDown e.ranges with
        queues := c.queues.map (fun q => (q.1, q.2.map (fun x => if x.id = id then { x with counted := true } else x))) }))
    else done s s
  | none, none => .fault .noSuchTransaction

/-- A short-path operation is acknowledged, or its data is written: the outstanding count falls (R157, R158). Its
scoreboard counts go with it, if they have not gone before (R35). -/
def execShortPathComplete (core : CoreId) (id : Nat) (s : State) : Out :=
  let n := core.toNat
  match (s.core n).short.find? (fun o => o.id == id) with
  | none => .fault .noSuchTransaction
  | some o =>
    if o.done then
      done s (s.modCore n (fun c => { (if o.counted then c else c.countDown o.ranges) with
        short := c.short.filter (fun x => x.id != id), shortDone := wrap 32 (c.shortDone + 1) }))
    else done s s

end Sys2Proof.Machine
end

