-- ==== Sys2Proof/Machine/Dma.lean ====
section
/-!
DEFINITION. The DMA queues (R142 to R155), and the transactions that carry them and the short path: requests, responses,
writes, acknowledgements and tally adds at their homes and back (R35, R37, R128, R151 to R153, R167 to R170, R177,
R183, R184, R330, R341).
-/

namespace Sys2Proof.Machine

/-! ### Queue entries -/

/-- A DMA queue of a core. -/
def Core.queue (c : Core) (q : Nat) : List DEntry := mget [] c.queues q
/-- Change an entry of a queue. -/
def Core.modEntry (c : Core) (q id : Nat) (f : DEntry → DEntry) : Core :=
  { c with queues := mset c.queues q ((c.queue q).map (fun e => if e.id = id then f e else e)) }

/-- A descriptor takes its queue entry, counted into `ranges` at its check stage; an ACKED signal will also cover the writes
outstanding now: R35, R145, R448. -/
def State.enqueue (s : State) (d : DSlot) (isGet : Bool) (ranges : List Nat) : State :=
  let n := d.core.toNat
  let q := d.q.toNat
  let e := s.dmaDesc n d isGet
  let covers := if e.sigEn && !e.ordered then s.outbound n e.scope else []
  let (id, s) := s.fresh
  s.modCore n (fun c =>
    { c with queues := mset c.queues q (c.queue q ++ [{ id := id, isGet := isGet, desc := e, ranges := ranges, covers := covers }]) })

/-- A get is enqueued: its local side is the destination, and it counts as a delivery there (R35, R145, R148). -/
def actDmaGet (d : DSlot) (ranges : List Nat) (s : State) : State := s.enqueue d true ranges

/-- `DMA_GET` as a command: R145. -/
def execDmaGet (d : DSlot) (s : State) : Out := s.slotExec d.core (.dmaGet d) "DMA_GET" (fun s =>
  actDmaGet d (s.deliverRanges d.core.toNat (.dmaGet d)) (s.count d.core.toNat (.dmaGet d)))

/-- A put is enqueued: its local side is the source (R145), and into its own window it counts as a delivery (R35). -/
def actDmaPut (d : DSlot) (ranges : List Nat) (s : State) : State := s.enqueue d false ranges

/-- `DMA_PUT` as a command: R145. -/
def execDmaPut (d : DSlot) (s : State) : Out := s.slotExec d.core (.dmaPut d) "DMA_PUT" (fun s =>
  actDmaPut d (s.deliverRanges d.core.toNat (.dmaPut d)) (s.count d.core.toNat (.dmaPut d)))

/-! ### Bursts -/

/-- Bytes given to the addresses they go to, in order. -/
def splitData : List (Nat × Nat) → List Byte → List (Nat × List Byte)
  | [], _ => []
  | (a, k) :: ws, bs => (a, bs.take k) :: splitData ws (bs.drop k)

/-- Reads of a core that have landing space reserved: R153. -/
def State.landingUsed (s : State) (n : Nat) : Nat :=
  s.flight.countP (fun x => match x.origin, x.kind with
    | .dma c _ _, .readReq | .dma c _ _, .readResp | .dma c _ _, .landing => c == n
    | .cableLoad c _, .readReq | .cableLoad c _, .readResp | .cableLoad c _, .landing => c == n
    | _, _ => false)

/-- The bytes of the core's buffers that a put's burst reads: of a transposed block, its rows (R149). -/
def putReads (d : Desc) (u : Burst) : List (Nat × Nat) :=
  if d.transpose then (d.blockRows u.block).map (fun r => (r, d.len0)) else [(u.src, u.len)]

/-- The bytes that burst `i` of a put carries: of a transposed block, its part of the block (R149). -/
def State.putData (s : State) (n : Nat) (d : Desc) (i : Nat) (u : Burst) : List Byte :=
  if d.transpose then
    slice (d.transform ((d.blockRows u.block).flatMap (fun r => s.bufRead n r d.len0))) (d.blockOffset i u.block) u.len
  else s.bufRead n u.src u.len

/-- The next burst of a queue's descriptor sets out: a get's read request, which spends no tokens where it combines, or a put's write (R147,
R152, R154). -/
def State.sendBurst (s : State) (n k : Nat) (e : DEntry) (u : Burst) : State :=
  let t := s.modCore n (fun c => c.modEntry k e.id (fun e => { e with sent := e.sent + 1 }))
  if e.isGet then
    t.sendRead n { id := 0, kind := .readReq, core := n, vol := e.desc.vol, dst := u.src, len := u.len,
                   origin := .dma n k e.id, aux := e.sent } false
  else
    (t.readWeak n (putReads e.desc u)).launchBurst n
      { id := 0, kind := .write, core := n, dst := u.dst, len := u.len, data := s.putData n e.desc e.sent u,
        origin := .dma n k e.id, aux := e.sent }

/-- Change the running cable of a core. -/
def State.modCable (s : State) (n : Nat) (f : Cable → Cable) : State :=
  s.modCore n (fun c => { c with cable := c.cable.map f })

/-- A burst of a cable's load stage sets out for its place in ring A: R154, R160. -/
def State.sendLoad (s : State) (n : Nat) (k : Cable) (b : CBurst) : State :=
  (s.modCable n (fun k => { k with toLoad := k.toLoad.drop 1 })).launchBurst n
    { id := 0, kind := .readReq, core := n, vol := k.load.vol, dst := b.src, len := b.len,
      origin := .cableLoad n (k.ringA.at b.unit), loc := b.dst, aux := b.unit }

/-- A slot of the ring the epilogue reads is freed. -/
def Cable.freeEpi (k : Cable) : Cable :=
  if k.has 1 then { k with ringB := { k.ringB with freed := k.ringB.freed + 1 } }
  else { k with ringA := { k.ringA with freed := k.ringA.freed + 1 } }

/-- A slot of the last ring is freed. -/
def Cable.freeLast (k : Cable) : Cable :=
  if k.has 2 then { k with ringC := { k.ringC with freed := k.ringC.freed + 1 } } else k.freeEpi

/-- A burst of a cable's store stage sets out from the last ring; with the last of its unit the slot is free (R149, R154, R160). -/
def State.sendStore (s : State) (n : Nat) (k : Cable) (b : CBurst) : State :=
  let d := k.store
  let rows := Cable.unitPieces d true (k.lastRing.at b.unit) b.unit
  let data :=
    if d.transpose then slice (d.transform (rows.flatMap (fun p => s.bufRead n p.2 d.len0))) b.off b.len
    else s.bufRead n b.src b.len
  ((s.readWeak n (if d.transpose then rows.map (fun p => (p.2, d.len0)) else [(b.src, b.len)])).modCable n (fun k =>
    { (if b.last then k.freeLast else k) with toStore := k.toStore.drop 1, unwritten := k.unwritten + 1, unacked := k.unacked + 1 })).launchBurst n
    { id := 0, kind := .write, core := n, dst := b.dst, len := b.len, data := data, origin := .cable n }

/-- The next burst of a running cable that uses queue `q`: R154, R163. -/
def State.sendCable (s : State) (n q : Nat) : State :=
  match (s.core n).cable with
  | none => s
  | some k =>
    match (if field k.queues 1 0 = q ∧ s.landingUsed n < 64 then k.toLoad.head? else none),
        (if field k.queues 3 2 = q then k.toStore.head? else none) with
    | some b, _ => s.sendLoad n k b
    | none, some b => s.sendStore n k b
    | none, none => s

/-- A queue sends its next burst or read request, once landing space and the in-flight limit allow: its own descriptors' first, then
those of a running cable that owns an entry of it (R151 to R154, R163). -/
def execDmaBurstSend (core : CoreId) (q : BitVec 2) (s : State) : Out :=
  let n := core.toNat
  let k := q.toNat
  if 256 ≤ s.qBursts n k then done s s
  else match (((s.core n).queue k).find? (fun e => e.sent < e.desc.bursts.length)) with
  | none => done s (s.sendCable n k)
  | some e =>
    match e.desc.bursts[e.sent]? with
    | none => done s s
    | some u => if e.isGet ∧ 64 ≤ s.landingUsed n then done s s else done s (s.sendBurst n k e u)

/-- The entry and the burst a DMA transaction belongs to. -/
def State.unitOf (s : State) (x : Txn) : Option (DEntry × Burst) :=
  match x.origin with
  | .dma n q id => ((s.core n).queue q).findSome? (fun e =>
      if e.id = id then (e.desc.bursts[x.aux]?).map (fun u => (e, u)) else none)
  | _ => none

/-- What a get's burst writes: itself, or all of its transposed block, which is written whole (R149). -/
def DEntry.lands (e : DEntry) (u : Burst) : List (Nat × Nat) :=
  if e.isGet && e.desc.transpose then (e.desc.blockBursts u.block).map (fun b => (b.dst, b.len)) else [(u.dst, u.len)]

/-- An address of this module or of another, by its home: a get's destination is a window offset (R140, R151). -/
def State.homeKey (s : State) (n : Nat) (isGet : Bool) (a : Nat) : Nat :=
  if isGet then winBase + n * 0x1000000 + a else (s.here n a).getD a

/-- The bytes that a transaction of a queue or of a cable's stages writes, at their homes: R151. -/
def State.txnWrites (s : State) (x : Txn) : List (Nat × Nat) :=
  match x.origin, s.unitOf x with
  | _, some (e, u) => (e.lands u).map (fun w => (s.homeKey x.core e.isGet w.1, w.2))
  | .cable n, none => [(s.homeKey n false x.dst, x.data.length)]
  | .cableLoad n _, none => [(s.homeKey n true x.loc, x.len)]
  | _, none => []

/-- The core and the queue that a burst belongs to, a cable's by the queue its stage owns an entry of: R151, R163. -/
def State.queueOf (s : State) (x : Txn) : Option (Nat × Nat) :=
  match x.origin with
  | .dma n q _ => some (n, q)
  | .cable n => (s.core n).cable.map (fun k => (n, field k.queues 3 2))
  | .cableLoad n _ => (s.core n).cable.map (fun k => (n, field k.queues 1 0))
  | _ => none

/-- Whether an earlier burst of the same queue must reach the same bytes first: R147, R151. -/
def State.queueBlocked (s : State) (x : Txn) : Bool :=
  match s.queueOf x with
  | some q => s.flight.any (fun y =>
      y.id < x.id && y.kind != .writeAck && y.kind != .tallyAdd && s.queueOf y == some q &&
      (s.txnWrites y).any (fun a => (s.txnWrites x).any (fun b => overlaps a.1 a.2 b.1 b.2)))
  | none => false

/-- Whether a short-path transaction must wait for an earlier operation to the same home: R157. -/
def State.shortTxnBlocked (s : State) (x : Txn) : Bool :=
  match x.origin with
  | .short n id => s.shortBlocked n id
  | _ => false

/-- Every byte written by the earlier entries of a queue into the same window has been written. -/
def DEntry.written (e : DEntry) : Bool := e.performed == e.desc.bursts.length

/-- Whether an entry still has a write to a core window to perform, its bursts yet to be sent among them. -/
def State.pendingIn (s : State) (n q : Nat) (e : DEntry) (w : Nat) : Bool :=
  (e.desc.bursts.drop e.sent).any (fun u => s.homeKey n e.isGet u.dst / 0x1000000 == w) ||
  s.flight.any (fun y => y.origin == .dma n q e.id && y.kind != .writeAck && y.kind != .tallyAdd &&
    (s.txnWrites y).any (fun b => b.1 / 0x1000000 == w))

/-- The core window that an ORDERED descriptor writes, by its number among all of them: R150. -/
def State.orderedWindow (s : State) (n : Nat) (e : DEntry) : Nat :=
  (e.desc.bursts.head?).elim 0 (fun u => s.homeKey n e.isGet u.dst / 0x1000000)

/-- ORDERED signals whose descriptor is wholly written, with the earlier writes of the queue to the same window, are applied at their
tally: R183. -/
def State.orderedSignals (s : State) (n q : Nat) : State :=
  ((s.core n).queue q).foldl (fun s e =>
    let earlier := ((s.core n).queue q).takeWhile (fun x => x.id != e.id)
    if e.desc.ordered && e.desc.sigEn && !e.signalled && e.written &&
        earlier.all (fun x => !s.pendingIn n q x (s.orderedWindow n e)) then
      let s := s.modCore n (fun c => c.modEntry q e.id (fun e => { e with signalled := true }))
      match tallyAt (s.place n (e.desc.signalAddr n e.isGet)) with
      | some (c, t) => s.addTally c t e.desc.sigVal
      | none => s
    else s) s

/-- Whether an earlier transaction of the same outside requester to the same window, or to overlapping bytes of HBM, is still
to be performed: what one core sends to one home stays in order (R151, R157, R183, R337; entry 16). -/
def State.outsideBlocked (s : State) (x : Txn) : Bool :=
  x.origin == .outside && s.flight.any (fun y =>
    y.origin == .outside && y.id < x.id && y.core == x.core && y.module == x.module && y.side == x.side &&
    (match localPlace (x.dst % 2 ^ 56), localPlace (y.dst % 2 ^ 56) with
     | .win c _, .win d _ => c == d
     | .hbm a, .hbm b => overlaps a (max x.len x.data.length) b (max y.len y.data.length)
     | _, _ => false))

/-! ### Reads -/

/-- A response to a module beyond port `p`. -/
def respond (x : Txn) (k : TxKind) (data : List Byte) : LinkMsg :=
  .txn k x.core x.module x.side (x.id % 65536) x.len false x.dst data

/-- A read request reaches its home and is answered; reads combined with it take the same data (R152, R168, R169, R341).
The address decoder ends the task on a breach (R140, R141, R167, R235, R339). -/
def execReadReq (id : Nat) (s : State) : Out :=
  match s.txn id with
  | none => .fault .noSuchTransaction
  | some x =>
    let waits : Bool := match s.txnPlace x with
      | .hbm a => s.hbmWaits a x.len
      | _ => false
    if x.kind ≠ .readReq ∨ x.follows.isSome ∨ s.shortTxnBlocked x ∨ s.outsideBlocked x ∨ waits then done s s
    else match x.origin, x.port with
      | .outside, some p =>
        match s.outsideBreach x false with
        | some rule => done s ((s.dropTxn id).programFault x.core rule x.dst)
        | none =>
          let m := respond { x with id := x.aux } .readResp (s.homeRead (s.txnPlace x) x.len)
          if m.units ≤ (s.port p).credits.getD 0 0 then done s (((s.placeRead (s.txnPlace x) x.len).dropTxn id).portSend p m) else done s s
      | _, some _ => done s s
      | _, none =>
        match s.accessBreach x.core x.dst x.len false with
        | some rule => done s (s.programFault x.core rule x.dst)
        | none =>
          let data := s.homeRead (s.txnPlace x) x.len
          let s' := s.placeRead (s.txnPlace x) x.len
          done s { s' with flight := s'.flight.map (fun y =>
            if y.id = id ∨ y.follows = some id then { y with kind := .readResp, data := data, follows := none } else y) }

/-- A read response lands in the space its requester reserved; later reads no longer combine with it (R152, R153,
R341). -/
def execReadResp (id : Nat) (s : State) : Out :=
  match s.txn id with
  | none => .fault .noSuchTransaction
  | some x =>
    if x.kind ≠ .readResp then done s s
    else done s ((s.modTxn id (fun x => { x with kind := .landing })).modCore x.core (fun c =>
      { c with combine := c.combine.filter (fun e => e.txn != id) }))

/-- Bytes arriving at a core's external port are written: R128, R247. -/
def State.extWrite (s : State) (n : Nat) (ws : List (Nat × List Byte)) : State :=
  ws.foldl (fun s w => s.bufWrite n w.1 w.2) s

/-- A burst of a get arrives: it is written, or gathered with the others of its own transposed block, which is written whole (R35, R128,
R149, R151). -/
def State.getLands (s : State) (x : Txn) (n q : Nat) (e : DEntry) (u : Burst) : State :=
  let s := s.dropTxn x.id
  let parts := if e.desc.transpose then mset e.gather x.aux x.data else [(x.aux, x.data)]
  let mine := if e.desc.transpose then e.desc.blockIndices u.block else [x.aux]
  let full := mine.all (fun i => parts.any (fun g => g.1 == i))
  let s := if full then s.extWrite n (splitData (e.lands u) (e.desc.transform (mine.flatMap (fun i => mget [] parts i)))) else s
  let left := if full then parts.filter (fun g => !mine.contains g.1) else parts
  let s := s.modCore n (fun c => c.modEntry q e.id (fun e =>
    { e with landed := e.landed + 1, performed := e.performed + 1, gather := left }))
  s.orderedSignals n q

/-- Whether a burst of a cable's load stage belongs to a unit up to `unit`. -/
def Txn.loadsFor (x : Txn) (n unit : Nat) : Bool :=
  match x.origin with
  | .cableLoad m _ => m == n && decide (x.aux ≤ unit)
  | _ => false

/-- A burst of a cable's load stage arrives in ring A; with the last of its unit the slot is filled, a transposed one whole. The last of all
raises the stage's signal (R149, R150, R160). -/
def State.loadLands (s : State) (x : Txn) (n : Nat) (k : Cable) : State :=
  let d := k.load
  let data := k.gather ++ x.data
  let s := s.dropTxn x.id
  let more := s.flight.any (fun y => y.loadsFor n x.aux) || k.toLoad.any (fun b => decide (b.unit ≤ x.aux))
  let s := if !d.transpose then s.extWrite n [(x.loc, x.data)]
    else if more then s
    else s.extWrite n (splitData ((Cable.unitPieces d false (k.ringA.at x.aux) x.aux).map (fun p => (p.2, d.len0))) (d.transform data))
  if more then s.modCable n (fun k => { k with gather := if d.transpose then data else [] })
  else
    let s := s.modCable n (fun k => { k with gather := [], ringA := { k.ringA with filled := k.ringA.filled + 1 } })
    if x.aux + 1 = d.iterations ∧ d.sigEn ∧ !k.loadSignalled then
      let s := s.modCable n (fun k => { k with loadSignalled := true })
      if d.ordered then s.addTally n d.tally d.sigVal else s.release n (d.signalAddr n true) d.sigVal k.loadCovers (.cable n)
    else s

/-- A burst arriving at a core's external port is written in one cycle: a get's, a short-path read's, a buffer move's or
a cable load's (R35, R128, R149, R151, R157, R160). -/
def execExternalBurstWrite (id : Nat) (s : State) : Out :=
  match s.txn id with
  | none => .fault .noSuchTransaction
  | some x =>
    if x.kind ≠ .landing ∨ s.queueBlocked x ∨ s.shortTxnBlocked x then done s s
    else
      let n := x.core
      match x.origin with
      | .dma _ q _ =>
        match s.unitOf x with
        | none => done s (s.dropTxn id)
        | some (e, u) => done s (s.getLands x n q e u)
      | .short _ oid =>
        let s' := (s.bufWrite n x.loc x.data).dropTxn id
        let more := s'.flight.any (fun y => y.origin == .short n oid)
        done s (s'.modCore n (fun c => { c with short := c.short.map (fun o =>
          if o.id = oid then { o with done := !more } else o) }))
      | .cableLoad _ _ =>
        match (s.core n).cable with
        | none => done s (s.dropTxn id)
        | some k =>
          let earlier (y : Txn) : Bool := y.loadsFor n x.aux && (decide (y.aux < x.aux) || (k.load.transpose && decide (y.id < id)))
          if s.flight.any earlier then done s s else done s (s.loadLands x n k)
      | _ => done s (s.dropTxn id)

/-! ### Writes -/

/-- The ranges of other cores that a put's bytes fall into, each as 32 core + range: R37. -/
def State.putRanges (s : State) (n : Nat) (d : Desc) : List Nat :=
  (d.bursts.flatMap (fun u => match s.place n u.dst with
    | .win c off => if c = n then [] else ((s.core c).rangesOf off u.len).map (fun r => 32 * c + r)
    | _ => [])).eraseDups

/-- Raise (or lower) counts named as 32 core + range. -/
def State.countRanges (s : State) (rs : List Nat) (up : Bool) : State :=
  rs.foldl (fun s r => s.modCore (r / 32) (fun c => if up then c.countUp [r % 32] else c.countDown [r % 32])) s

/-- One of a put's units is performed at its home: the ranges of other cores that it delivers into are counted from its first burst
to its last (R37); those of its own core, counted at its check stage, until its last (R35). An ORDERED signal follows the last (R183). -/
def State.putPerformed (s : State) (n q : Nat) (e : DEntry) : State :=
  let s := if e.performed = 0 then
      let rs := s.putRanges n e.desc
      (s.modCore n (fun c => c.modEntry q e.id (fun e => { e with far := rs }))).countRanges rs true
    else s
  let s := s.modCore n (fun c => c.modEntry q e.id (fun e => { e with performed := e.performed + 1 }))
  let s := match ((s.core n).queue q).find? (fun x => x.id == e.id) with
    | some x => if x.written && !x.counted then
        ((s.modCore n (fun c => c.modEntry q e.id (fun e => { e with counted := true }))).countRanges x.far false).modCore n
          (fun c => c.countDown x.ranges)
      else s
    | none => s
  s.orderedSignals n q

end Sys2Proof.Machine
end

