-- ==== Sys2Proof/Machine/Strand.lean ====
section
/-!
DEFINITION. Strands and skeins (R196 to R209): sending, requests and grants, message bursts, completion at the skein and
at the sender, and the reader's position.
-/

namespace Sys2Proof.Machine

/-- A skein of a core. -/
def Core.skein (c : Core) (k : Nat) : Skein := mget {} c.skeins k
/-- Change a skein of a core. -/
def Core.modSkein (c : Core) (k : Nat) (f : Skein → Skein) : Core := { c with skeins := mset c.skeins k (f (c.skein k)) }
/-- A send endpoint of a core. -/
def Core.ep (c : Core) (e : Nat) : SendEp := mget {} c.sends e
/-- Change a send endpoint of a core. -/
def Core.modEp (c : Core) (e : Nat) (f : SendEp → SendEp) : Core := { c with sends := mset c.sends e (f (c.ep e)) }
/-- Change a queued message of an endpoint. -/
def Core.modMsg (c : Core) (e id : Nat) (f : Msg → Msg) : Core :=
  c.modEp e (fun x => { x with queue := x.queue.map (fun m => if m.id = id then f m else m) })

/-- The window address of the core that owns an endpoint's target: R196, R339. -/
def State.targetWindow (s : State) (e : SendEp) : Nat :=
  (if e.tModule = s.config.module then 0 else 2 ^ 63 + e.tModule * 2 ^ 56) + winBase + e.tCore * 0x1000000

/-- A message enters its strand queue, and its grant request sets out: R200 to R202. The request is addressed to the
skein's status word (entry 17). -/
def actStrandSend (d : DSlot) (s : State) : State :=
  let n := d.core.toNat
  let c := s.core n
  let e := c.ep d.ep
  let sig := if d.bits 27 27 = 1 then some (d.bits 37 32, BitVec.ofNat 32 (d.bits 63 48)) else none
  let covers := if sig.isSome then s.outbound n 0 else []
  let (id, s) := s.fresh
  let m : Msg := { id := id, g := d.granules, endMark := d.bits 26 26 == 1, tag := d.bits 47 40, seq := e.seqNext,
                   payload := d.payload c, sig := sig, covers := covers }
  (s.modCore n (fun c => c.modEp d.ep (fun x => { x with queue := x.queue ++ [m], seqNext := wrap 32 (x.seqNext + 1) }))).launch n
    { id := 0, kind := .strandReq, core := n, dst := s.targetWindow e + 0xF10000 + 64 * e.tSkein, len := 64 * d.granules,
      aux := (d.granules - 1) + 256 * d.ep, origin := .strand n d.ep id }

/-- `STRAND_SEND` as a command: R200. -/
def execStrandSend (d : DSlot) (s : State) : Out := s.slotExec d.core (.strandSend d) "STRAND_SEND" (actStrandSend d)

/-- A header of 16 bytes: R199. -/
def msgHeader (g : Nat) (endMark : Bool) (kind core module ep tag seq : Nat) : List Byte :=
  [BitVec.ofNat 8 (g + (if endMark then 128 else 0)), BitVec.ofNat 8 kind, BitVec.ofNat 8 core, BitVec.ofNat 8 module,
   BitVec.ofNat 8 ep, BitVec.ofNat 8 tag, 0, 0] ++ leBytes 4 seq ++ zeros 4

/-- The bytes of a message: its header and its payload as the engine reads it (R199, R201). -/
def State.msgBytes (s : State) (n ep : Nat) (m : Msg) : List Byte :=
  msgHeader m.g m.endMark 1 n s.config.module ep m.tag m.seq ++ s.bufRead n m.payload (64 * m.g - 16)

/-- The WRAP record that goes before a message: R203. -/
def State.wrapBytes (s : State) (n ep : Nat) (m : Msg) : List Byte :=
  msgHeader 1 false 2 n s.config.module ep 0 m.seq ++ zeros 48

/-- Message bursts of an endpoint set out for a ring address, cut at the 256-byte boundaries there: R203, R207. -/
def State.sendBursts (s : State) (n ep id addr : Nat) (data : List Byte) : State :=
  (cutPiece 0 addr (data.length / 64 + 1) data.length).foldl (fun s u =>
    (s.modCore n (fun c => c.modMsg ep id (fun m => { m with unacked := some (m.unacked.getD 0 + 1) }))).launch n
      { id := 0, kind := .strandData, core := n, dst := u.dst, data := slice data u.src u.len, origin := .strand n ep id }) s

/-- The oldest message of an endpoint that has no grant yet: R202. -/
def SendEp.ungranted (e : SendEp) : Option Msg := e.queue.find? (fun m => m.unacked.isNone)

/-- A grant has reached its sender: the engine writes the WRAP record, if there is one, and the message (R203). -/
def State.granted (s : State) (n ep window : Nat) (wrapAt : Option Nat) (pos : Nat) : State :=
  match ((s.core n).ep ep).ungranted with
  | none => s
  | some m =>
    let s := match wrapAt with
      | some w => s.sendBursts n ep m.id (window + w) (s.wrapBytes n ep m)
      | none => s
    (s.readWeak n [(m.payload, 64 * m.g - 16)]).sendBursts n ep m.id (window + pos) (s.msgBytes n ep m)

/-! ### At the skein -/

/-- A grant request reaches the skein unit's request store; requests of one endpoint travel in order (R202, R341). -/
def execStrandReq (id : Nat) (s : State) : Out :=
  match s.txn id with
  | none => .fault .noSuchTransaction
  | some x =>
    let earlier := s.flight.any (fun y => y.kind == .strandReq && y.id < id && y.core == x.core && y.module == x.module &&
      y.side == x.side && (y.origin == .outside) == (x.origin == .outside) && y.aux / 256 == x.aux / 256)
    let out := x.origin == .outside
    if x.kind ≠ .strandReq ∨ earlier ∨ (!out ∧ x.port.isSome) then done s s
    else match (if out then localPlace (x.dst % 2 ^ 56) else s.place x.core x.dst) with
      | .win c off =>
        let k := (off - 0xF10000) / 64
        let r : SReq := { core := x.core, module := if out then x.module else s.config.module, ep := x.aux / 256,
                          g := x.aux % 256 + 1 }
        done s ((s.dropTxn id).modCore c (fun y => y.modSkein k (fun z => { z with reqs := z.reqs ++ [r] })))
      | _ => done s (s.dropTxn id)

/-- The skein unit grants space to its oldest request once there is room: R202, R203, R207. A sender in another module is
told by STRAND_GRANT over its link, the WRAP record's position first and marked by flag 0 (entry 17). -/
def execStrandGrant (core : CoreId) (skein : BitVec 4) (s : State) : Out :=
  let n := core.toNat
  let i := skein.toNat
  let k := (s.core n).skein i
  match k.reqs with
  | [] => done s s
  | r :: rs =>
    match (if k.enable then k.serve r.g else none) with
    | none => done s s
    | some (wrapAt, pos, need, alloc) =>
      let g : Grant := { req := r, pos := pos, wrapAt := wrapAt, left := 64 * r.g + (if wrapAt.isSome then 64 else 0) }
      let s' := s.modCore n (fun c => c.modSkein i (fun k =>
        { k with reqs := rs, alloc := alloc, used := k.used + need, grants := k.grants ++ [g] }))
      let off (a : Nat) : Nat := winBase + n * 0x1000000 + k.base + a
      if r.module = s.config.module then
        done s (s'.granted r.core r.ep (winBase + n * 0x1000000 + k.base) wrapAt pos)
      else
        match s.outPort n (2 ^ 63 + r.module * 2 ^ 56) with
        | none => done s s'
        | some p =>
          let msg (w : Bool) (a len : Nat) : LinkMsg :=
            .txn .strandGrant r.core r.module s.config.side (r.ep) len w (2 ^ 63 + s.config.module * 2 ^ 56 + off a) []
          let wait (m : LinkMsg) : Waiting := { cls := 3, msg := m, sel := n }
          let s' := match wrapAt with
            | some w => s'.portWait p (wait (msg true w 64))
            | none => s'
          done s (s'.portWait p (wait (msg false pos (64 * r.g))))

/-- Whether a ring offset lies in a grant, WRAP record included. -/
def Grant.covers (g : Grant) (off : Nat) : Bool :=
  (decide (g.pos ≤ off) && decide (off < g.pos + 64 * g.req.g)) ||
  (match g.wrapAt with
   | some w => decide (w ≤ off) && decide (off < w + 64)
   | none => false)

/-- The skein of a core whose ring holds a window offset: R198. -/
def Core.skeinAt (c : Core) (off : Nat) : Option Nat :=
  (List.range 16).find? (fun i =>
    let k := c.skein i
    k.enable && decide (k.base ≤ off) && decide (off < k.base + k.size))

/-- A burst of a message is written in the ring; its grant is counted into the ranges it delivers to from its first burst
to its last (R37, R204). A fenced core's is discarded (R388). -/
def State.strandWrite (s : State) (c off : Nat) (data : List Byte) (writer : Nat) : State :=
  let kept := s
  let s := (s.bufWrite c off data).noteWrite c off data.length (writer != c)
  if kept.fenced c then kept
  else match (s.core c).skeinAt off with
  | none => s
  | some i =>
    let k := (s.core c).skein i
    match k.grants.find? (fun g => g.covers (off - k.base) && decide (0 < g.left)) with
    | none => s
    | some g =>
      let rs := g.ranges.getD ((s.core c).rangesOf (k.base + g.pos) (64 * g.req.g))
      let s := if g.ranges.isNone then s.modCore c (fun x => x.countUp rs) else s
      let left := g.left - data.length
      let s := if left = 0 then s.modCore c (fun x => x.countDown rs) else s
      s.modCore c (fun x => x.modSkein i (fun k => { k with grants := k.grants.map (fun y =>
        if y = g then { y with left := left, ranges := some rs } else y) }))

/-- A message burst is written into its granted space and acknowledged: R203, R330. Bursts of one grant take effect in
any order; earlier ones of the same endpoint go first. -/
def execStrandData (id : Nat) (s : State) : Out :=
  match s.txn id with
  | none => .fault .noSuchTransaction
  | some x =>
    let out := x.origin == .outside
    if x.kind ≠ .strandData ∨ (!out ∧ x.port.isSome) then done s s
    else match (if out then localPlace (x.dst % 2 ^ 56) else s.place x.core x.dst) with
      | .win c off =>
        let s' := s.strandWrite c off x.data (if out then 256 else x.core)
        match out, x.port with
        | true, some p => done s ((s'.dropTxn id).portSend p (respond { x with id := x.aux } .writeAck []))
        | _, _ => done s (s'.modTxn id (fun x => { x with kind := .writeAck }))
      | _ => done s (s.dropTxn id)

/-- The oldest grant is fully written: the completed contents of the skein advance past it and the notify tally is
signalled (R204). -/
def execGrantComplete (core : CoreId) (skein : BitVec 4) (s : State) : Out :=
  let n := core.toNat
  let i := skein.toNat
  let k := (s.core n).skein i
  match k.grants with
  | [] => done s s
  | g :: gs =>
    if g.left ≠ 0 then done s s
    else
      let e := g.pos + 64 * g.req.g
      let atEnd := decide (e = k.size)
      let s' := s.modCore n (fun c => c.modSkein i (fun k =>
        { k with grants := gs, wrOff := if atEnd then 0 else e, msgs := wrap 20 (k.msgs + 1),
                 wraps := wrap 24 (k.wraps + b2n (g.wrapAt.isSome || atEnd)) }))
      done s (if k.notifyEn then s'.addTally n k.notify 1 else s')

/-- The distance from the reader's position to another, modulo 2^24 × S: R205. -/
def Skein.ahead (k : Skein) (wraps off : Nat) : Nat :=
  let m := 2 ^ 24 * k.size
  ((wraps * k.size + off) + m - (k.rdWraps * k.size + k.rdOff) % m) % m

/-- The owner writes its reader's position: the distance moved is released, and a position that is misaligned, goes back
or runs past the completed contents ends the task (R205). -/
def State.readIndexWrite (s : State) (n i : Nat) (value : Word) : State :=
  let k := (s.core n).skein i
  let off := (value.extractLsb' 0 20).toNat
  let wraps := (value.extractLsb' 20 24).toNat
  let d := k.ahead wraps off
  if off % 64 ≠ 0 ∨ k.size ≤ off ∨ k.ahead k.wraps k.wrOff < d then s.programFault n 205 (0xF10008 + 64 * i)
  else s.modCore n (fun c => c.modSkein i (fun k => { k with rdOff := off, rdWraps := wraps, used := k.used - d }))

/-- `READ_INDEX_n` is written: R205. -/
def execReadIndexWrite (core : CoreId) (skein : BitVec 4) (value : Word) (s : State) : Out :=
  done s (s.readIndexWrite core.toNat skein.toNat value)

/-- The oldest message of an endpoint is written and acknowledged: its entry is freed and its tally signalled (R206). -/
def execStrandSendComplete (core : CoreId) (ep : BitVec 4) (s : State) : Out :=
  let n := core.toNat
  let e := ep.toNat
  match ((s.core n).ep e).queue with
  | [] => done s s
  | m :: ms =>
    if m.unacked ≠ some 0 then done s s
    else
      let s' := s.modCore n (fun c => (c.modEp e (fun x => { x with queue := ms })).acked m.id)
      match m.sig with
      | some (t, v) => done s (s'.release n (tallyAddr n t) v m.covers (.strand n e m.id))
      | none => done s s'

end Sys2Proof.Machine
end

