-- ==== Sys2Proof/Machine/Deliver.lean ====
section
/-!
DEFINITION. Writes, acknowledgements and tally adds at their homes and back, releases, and the completion of descriptors
(R128, R150, R151, R157, R167 to R170, R174, R177, R182, R183, R205, R330, R448).
-/

namespace Sys2Proof.Machine

/-- The skein whose `READ_INDEX_n` an `sp.word` of the owning core writes: R197, R205. -/
def State.readIndexTarget (s : State) (x : Txn) : Option Nat :=
  match x.origin with
  | .short n id =>
    if (s.core n).short.any (fun o => o.id == id && o.kind == 11) then
      match s.place n x.dst with
      | .win c off => if c = n then readIndexOff off else none
      | _ => none
    else none
  | _ => none

/-- All bursts of a cable's store stage have been sent and written: R150. -/
def Cable.stored (k : Cable) : Bool := k.has 3 && k.stoU == k.store.iterations && k.toStore.isEmpty && k.unwritten == 0

/-- A burst of a cable's store stage is written at its home; the ORDERED signal of the stage follows the last (R150, R160, R183). -/
def State.storePerformed (s : State) (n : Nat) : State :=
  let s := s.modCable n (fun k => { k with unwritten := k.unwritten - 1 })
  match (s.core n).cable with
  | none => s
  | some k =>
    if k.stored && k.store.sigEn && k.store.ordered && !k.storeSignalled then
      let s := s.modCable n (fun k => { k with storeSignalled := true })
      match tallyAt (s.place n (k.store.signalAddr n false)) with
      | some (c, t) => s.addTally c t k.store.sigVal
      | none => s
    else s

/-- A write has been performed at its home: its descriptor or its cable goes on (R37, R150, R160, R183). -/
def State.performed (s : State) (x : Txn) : State :=
  match x.origin, s.unitOf x with
  | .dma n q _, some (e, _) => s.putPerformed n q e
  | .cable n, _ => s.storePerformed n
  | _, _ => s

/-- Every write of a cable's store stage is acknowledged: its ACKED signal is released (R150, R183, R448). -/
def State.storeAcked (s : State) (n : Nat) : State :=
  let s := s.modCable n (fun k => { k with unacked := k.unacked - 1 })
  match (s.core n).cable with
  | none => s
  | some k =>
    if k.stored && k.unacked == 0 && k.store.sigEn && !k.store.ordered && !k.storeSignalled then
      (s.modCable n (fun k => { k with storeSignalled := true })).release n (k.store.signalAddr n false) k.store.sigVal k.storeCovers (.cable n)
    else s

/-- A write is performed at its home, in the order its queue or its short path keeps, and acknowledged; the address decoder
ends the task on a breach (R141, R151, R157, R167, R169, R205, R235), and a channel of HBM that has left self-refresh trains first
(R277). A write of another module is acknowledged over the link it came by (R330). -/
def execWrite (id : Nat) (s : State) : Out :=
  match s.txn id with
  | none => .fault .noSuchTransaction
  | some x =>
    let shut : Bool := match s.txnPlace x with
      | .hbm a => s.hbmShut a
      | _ => false
    if x.kind ≠ .write ∨ s.queueBlocked x ∨ s.shortTxnBlocked x ∨ s.outsideBlocked x ∨ shut then done s s
    else match x.origin, x.port with
      | .outside, some p =>
        match s.outsideBreach x true with
        | some rule => done s ((s.dropTxn id).programFault x.core rule x.dst)
        | none =>
          done s (((s.homeWrite (s.txnPlace x) 256 x.data).dropTxn id).portSend p (respond { x with id := x.aux } .writeAck []))
      | _, some _ => done s s
      | _, none =>
        match s.readIndexTarget x with
        | some i =>
          done s ((s.readIndexWrite x.core i (BitVec.ofNat 64 (leNat x.data))).modTxn id (fun x => { x with kind := .writeAck }))
        | none =>
          match s.accessBreach x.core x.dst x.data.length true with
          | some rule => done s (s.programFault x.core rule x.dst)
          | none => done s (((s.homeWrite (s.txnPlace x) x.core x.data).modTxn id (fun x => { x with kind := .writeAck })).performed x)

/-- An acknowledgement reaches the issuer: R150, R157, R165, R169, R182, R206. -/
def execWriteAck (id : Nat) (s : State) : Out :=
  match s.txn id with
  | none => .fault .noSuchTransaction
  | some x =>
    if x.kind ≠ .writeAck then done s s
    else
      let s' := s.dropTxn id
      match x.origin with
      | .dma n q eid =>
        let s' := s'.modCore n (fun c => c.modEntry q eid (fun e => { e with landed := e.landed + 1 }))
        let all := ((s'.core n).queue q).any (fun e => e.id == eid && e.landed == e.desc.bursts.length)
        done s (if all then s'.modCore n (fun c => c.acked eid) else s')
      | .short n oid =>
        done s (s'.modCore n (fun c => { c.acked oid with short := c.short.map (fun o => if o.id = oid then { o with done := true } else o) }))
      | .cable n =>
        done s (s'.storeAcked n)
      | .strand n ep mid =>
        done s (s'.modCore n (fun c => c.modMsg ep mid (fun m => { m with unacked := m.unacked.map (fun k => k - 1) })))
      | _ => done s s'

/-- A tally add reaches the owner's unit and is applied in that cycle: R174, R176, R177. That of a short-path operation is
acknowledged to its issuer (R157), that of another module over its link (R330). For a fenced core it is discarded (R388). -/
def execTallyAdd (id : Nat) (s : State) : Out :=
  match s.txn id with
  | none => .fault .noSuchTransaction
  | some x =>
    let out := x.origin == .outside
    if x.kind ≠ .tallyAdd ∨ s.shortTxnBlocked x ∨ s.outsideBlocked x ∨ (!out ∧ x.port.isSome) then done s s
    else
      let v := BitVec.ofNat 32 (leAt x.data 0 4)
      match tallyAt (s.txnPlace x) with
      | none => if out && (s.taskOf x.core).isNone then done s (s.dropTxn id) else done s ((s.dropTxn id).programFault x.core 174 x.dst)
      | some (c, t) =>
        let added := if s.fenced c then s else s.addTally c t v
        if s.addBreach x.core c then done s ((s.dropTxn id).programFault x.core 235 x.dst)
        else match x.origin, x.port with
        | .outside, some p => done s ((added.dropTxn id).portSend p (respond { x with id := x.aux } .writeAck []))
        | .short _ _, _ => done s (added.modTxn id (fun x => { x with kind := .writeAck }))
        | _, _ => done s (added.dropTxn id)

/-- A release or grant from another core's tally unit reaches the requester: its row is clear, and the acquire is
satisfied there (R177, R184). -/
def execTallyRelease (core : CoreId) (s : State) : Out :=
  let n := core.toNat
  match (s.core n).held with
  | some h =>
    if h.granted ∧ !h.arrived then
      let scope := (h.row.filterMap (s.core n).tallyReq).head?.elim 0 (fun r => r.2.scope)
      done s ((s.modCore n (fun c => { c with held := c.held.map (fun h => { h with arrived := true }) })).acquire n scope)
    else done s s
  | none => done s s

/-- A release whose covered writes have all been performed and acknowledged sends its add, and short-path operations that waited behind it
follow: R157, R183. -/
def execAckedRelease (core : CoreId) (s : State) : Out :=
  let n := core.toNat
  match (s.core n).rels.find? (fun r => r.waits.isEmpty) with
  | none => done s s
  | some r =>
    let s' := s.modCore n (fun c => { c with rels := c.rels.filter (fun x => x.id != r.id) })
    done s ((s'.sendAdd n r.addr r.value r.origin).sendHeld n)

/-- The oldest descriptor of a queue completes: a get once its last burst is written, a put once every write is
acknowledged. Its entry is freed and its ACKED signal released (R150, R151, R153, R183, R448). -/
def execDmaComplete (core : CoreId) (q : BitVec 2) (s : State) : Out :=
  let n := core.toNat
  let k := q.toNat
  match (s.core n).queue k with
  | [] => done s s
  | e :: es =>
    if e.landed ≠ e.desc.bursts.length then done s s
    else
      let s' := s.modCore n (fun c =>
        let c := { c with queues := mset c.queues k es, dmaDone := mset c.dmaDone k (wrap 32 (mget 0 c.dmaDone k + 1)) }
        (if e.isGet && !e.counted then c.countDown e.ranges else c).acked e.id)
      if e.desc.sigEn && !e.desc.ordered then
        done s (s'.release n (e.desc.signalAddr n e.isGet) e.desc.sigVal e.covers (.dma n k e.id))
      else done s s'

end Sys2Proof.Machine
end

