-- ==== Sys2Proof/Machine/Matrix.lean ====
section
/-!
DEFINITION. The commands of the matrix engine: the M slot's rows (R61 to R79), each taken up by the engine (Machine/Engine.lean) with the
addresses formed at issue, and the sequencer's events (R40, R72, R75, R76).
-/

namespace Sys2Proof.Machine

/-! ### mm.pass and mm.diag -/

/-- One pass issues, its operands at the addresses the row forms: R58 to R64, R77. -/
def State.runPass (s : State) (m : MSlot) (diag : Bool) : State :=
  let n := m.core.toNat
  let c := s.core n
  let (id, s) := s.fresh
  s.engineIssue n (.pass id (s.cycle n) m diag (m.xBase c) (m.sBase c))

/-- One pass streams up to 256 X rows against one S tile: R58 to R64. -/
def actMmPass (m : MSlot) (s : State) : State := s.runPass m false

/-- `MM_PASS` as a command: R61. -/
def execMmPass (m : MSlot) (s : State) : Out := s.slotExec m.core (.mmPass m) "MM_PASS" (actMmPass m)

/-- An element-wise pass with the S vector on the diagonal: R77. -/
def actMmDiag (m : MSlot) (s : State) : State := s.runPass m true

/-- `MM_DIAG` as a command: R77. -/
def execMmDiag (m : MSlot) (s : State) : Out := s.slotExec m.core (.mmDiag m) "MM_DIAG" (actMmDiag m)

/-! ### mm.drain and mm.mon -/

/-- ACC entries move to PB or AB, counted into `ranges` at the check stage: R65, R66, R72, R78. -/
def actMmDrain (m : MSlot) (ranges : List Nat) (s : State) : State :=
  let n := m.core.toNat
  let (id, s) := s.fresh
  s.engineIssue n (.drain id (s.cycle n) m (m.oBase (s.core n)) ranges)

/-- `MM_DRAIN` as a command: R65. -/
def execMmDrain (m : MSlot) (s : State) : Out := s.slotExec m.core (.mmDrain m) "MM_DRAIN" (fun s =>
  actMmDrain m (s.deliverRanges m.core.toNat (.mmDrain m)) (s.count m.core.toNat (.mmDrain m)))

/-- The monitor block is stored and cleared: R79. -/
def actMmMon (m : MSlot) (s : State) : State :=
  let n := m.core.toNat
  let (id, s) := s.fresh
  s.engineEvent n (.mon id (s.cycle n) m (m.monAddr (s.core n)))

/-- `MM_MON` as a command: R79. -/
def execMmMon (m : MSlot) (s : State) : Out := s.slotExec m.core (.mmMon m) "MM_MON" (actMmMon m)

/-! ### mm.tile -/

/-- The folder runs a logical tile described in AB, counted into `ranges` at the check stage: R68 to R76, R446. -/
def actMmTile (m : MSlot) (ranges : List Nat) (s : State) : State :=
  let n := m.core.toNat
  let c := s.core n
  let d := s.chkRead n (m.tileAddr c) 64
  let b := m.tileBase c (parseTile d)
  let (id, s) := s.fresh
  s.engineIssue n (.tile id (s.cycle n) d b.x b.s b.o ranges)

/-- `MM_TILE` as a command: R69. -/
def execMmTile (m : MSlot) (s : State) : Out := s.slotExec m.core (.mmTile m) "MM_TILE" (fun s =>
  actMmTile m (s.deliverRanges m.core.toNat (.mmTile m)) (s.count m.core.toNat (.mmTile m)))

/-! ### The sequencer's events -/

/-- A rescale sequence: issue stops in every member until its cause is clear, four cycles before the turn's end; it is counted, and its
entries no longer await it (R40, R75, R76). Nothing is due where no `mm.tile` add has overflowed. -/
def execRescale (core : CoreId) (s : State) : Out :=
  let n := core.toNat
  match s.rescaleDue n with
  | none => done s s
  | some (w, u) =>
    let len := (s.core n).mx.rescaleLength u
    let s' := s.engineEvent n (.rescaled w.id u.entries)
    done s (s'.lateHold n { cause := 0xC, detail := 0, after := 0, left := len - 4, clear := false })

/-- A late hold is a rescale whose cause is not yet clear. -/
def Late.rescaling (l : Late) : Bool := l.cause == 0xC && l.after == 0 && !l.clear

/-- Held cycles of a rescale sequence pass, `cycles` at most: the turn counts them and the tally network goes on (R40, R75). -/
def State.sequenceCycles (s : State) (n : Nat) : Nat → State
  | 0 => s
  | k + 1 =>
    if s.lateIn n ∧ s.mayPass n then ((s.heldStep n).lateStep n).sequenceCycles n k else s

/-- The rescale sequence ends after at most `cycles` held cycles more, and issue resumes four cycles later: R40, R75, R76. -/
def execRescaleClear (core : CoreId) (cycles : Nat) (s : State) : Out :=
  let n := core.toNat
  let s := s.sequenceCycles n cycles
  done s (s.modCore n (fun c => { c with late := c.late.map (fun l =>
    if l.rescaling ∧ l.left = 0 then { l with left := 4, clear := true } else l) }))

/-- The last output value of an `mm.tile` or `mm.drain` is written, and its scoreboard counts are removed (R72; entry 14). -/
def execMmTileOutputDone (core : CoreId) (s : State) : Out :=
  let n := core.toNat
  let c := s.core n
  match c.mx.work.find? (fun w => w.output && decide (w.doneAt ≤ s.cycle n)) with
  | none => done s s
  | some w =>
    let s' := s.landDue n w.doneAt (fun p => match p.dst with
      | .mout k _ _ => k == w.id
      | _ => false)
    done s ((s'.engineEvent n (.output w.id (s.cycle n))).modCore n (fun c => c.countDown w.ranges))

end Sys2Proof.Machine
end

