-- ==== Sys2Proof/Machine/Tables.lean ====
section
/-!
DEFINITION. The tables of the transcendental functions (R91) and their constants (R92), as binary32 words. Each entry
is the binary32 value nearest the real number of R91's formula, computed from that formula.
-/

namespace Sys2Proof.Machine

/-- T, 2^(j/64): R91. -/
def tabT : List Nat :=
  [0x3F800000, 0x3F8164D2, 0x3F82CD87, 0x3F843A29, 0x3F85AAC3, 0x3F871F62, 0x3F88980F, 0x3F8A14D5,
   0x3F8B95C2, 0x3F8D1ADF, 0x3F8EA43A, 0x3F9031DC, 0x3F91C3D3, 0x3F935A2B, 0x3F94F4F0, 0x3F96942D,
   0x3F9837F0, 0x3F99E046, 0x3F9B8D3A, 0x3F9D3EDA, 0x3F9EF532, 0x3FA0B051, 0x3FA27043, 0x3FA43516,
   0x3FA5FED7, 0x3FA7CD94, 0x3FA9A15B, 0x3FAB7A3A, 0x3FAD583F, 0x3FAF3B79, 0x3FB123F6, 0x3FB311C4] ++
  [0x3FB504F3, 0x3FB6FD92, 0x3FB8FBAF, 0x3FBAFF5B, 0x3FBD08A4, 0x3FBF179A, 0x3FC12C4D, 0x3FC346CD,
   0x3FC5672A, 0x3FC78D75, 0x3FC9B9BE, 0x3FCBEC15, 0x3FCE248C, 0x3FD06334, 0x3FD2A81E, 0x3FD4F35B,
   0x3FD744FD, 0x3FD99D16, 0x3FDBFBB8, 0x3FDE60F5, 0x3FE0CCDF, 0x3FE33F89, 0x3FE5B907, 0x3FE8396A,
   0x3FEAC0C7, 0x3FED4F30, 0x3FEFE4BA, 0x3FF28177, 0x3FF5257D, 0x3FF7D0DF, 0x3FFA83B3, 0x3FFD3E0C]

/-- Inv: R91. -/
def tabInv : List Nat :=
  [0x3F800000, 0x3F7A232D, 0x3F76603E, 0x3F72B9D6, 0x3F6F2EB7, 0x3F6BBDB3, 0x3F6865AC, 0x3F652598,
   0x3F61FC78, 0x3F5EE95C, 0x3F5BEB62, 0x3F5901B2, 0x3F562B81, 0x3F53680D, 0x3F50B6A0, 0x3F4E168A,
   0x3F4B8728, 0x3F4907DA, 0x3F46980C, 0x3F443730, 0x3F41E4BC, 0x3F3FA030, 0x3F3D6910, 0x3F3B3EE7,
   0x3F392144, 0x3F370FBB, 0x3F3509E7, 0x3F330F63, 0x3F311FD4, 0x3F2F3ADE, 0x3F2D602B, 0x3F2B8F6A] ++
  [0x3FA9C84A, 0x3FA80A81, 0x3FA655C4, 0x3FA4A9CF, 0x3FA3065E, 0x3FA16B31, 0x3F9FD80A, 0x3F9E4CAD,
   0x3F9CC8E1, 0x3F9B4C70, 0x3F99D723, 0x3F9868C8, 0x3F97012E, 0x3F95A025, 0x3F944581, 0x3F92F114,
   0x3F91A2B4, 0x3F905A38, 0x3F8F177A, 0x3F8DDA52, 0x3F8CA29C, 0x3F8B7034, 0x3F8A42F8, 0x3F891AC7,
   0x3F87F781, 0x3F86D905, 0x3F85BF37, 0x3F84A9FA, 0x3F839930, 0x3F828CC0, 0x3F81848E, 0x3F800000]

/-- Lg, -ln(Inv): R91. -/
def tabLg : List Nat :=
  [0x00000000, 0x3CBDC8D6, 0x3D1CF437, 0x3D5A16F0, 0x3D8B29B9, 0x3DA8D837, 0x3DC61A33, 0x3DE2F2A6,
   0x3DFF648A, 0x3E0DB958, 0x3E1B8FE1, 0x3E29372F, 0x3E36B07E, 0x3E43FD04, 0x3E511DE0, 0x3E5E1436,
   0x3E6AE10A, 0x3E778570, 0x3E82012E, 0x3E882C5F, 0x3E8E44C6, 0x3E944AD0, 0x3E9A3EEE, 0x3EA02185,
   0x3EA5F2FD, 0x3EABB3BA, 0x3EB16416, 0x3EB70476, 0x3EBC952A, 0x3EC2168E, 0x3EC788F5, 0x3ECCECAC] ++
  [0xBE90A22B, 0xBE8B5AE7, 0xBE86216B, 0xBE80F572, 0xBE77AD6E, 0xBE6D89EC, 0xBE637FDE, 0xBE598EC2,
   0xBE4FB61E, 0xBE45F582, 0xBE3C4C6D, 0xBE32BA76, 0xBE293F2F, 0xBE1FDA2A, 0xBE168B0B, 0xBE0D515F,
   0xBE042CC7, 0xBDF639C7, 0xBDE442C2, 0xBDD273B2, 0xBDC0CBF1, 0xBDAF4ACE, 0xBD9DEFA7, 0xBD8CB9DB,
   0xBD77519C, 0xBD55778E, 0xBD33E49C, 0xBD1297A0, 0xBCE31E83, 0xBCA19559, 0xBC412270, 0x00000000]

/-- Rcp, 256/(257 + 2i): R91. -/
def tabRcp : List Nat :=
  [0x3F7F00FF, 0x3F7D08E5, 0x3F7B1885, 0x3F792FB2, 0x3F774E40, 0x3F757404, 0x3F73A0D5, 0x3F71D48C,
   0x3F700F01, 0x3F6E500F, 0x3F6C9791, 0x3F6AE564, 0x3F693965, 0x3F679373, 0x3F65F36D, 0x3F645933,
   0x3F62C4A7, 0x3F6135AA, 0x3F5FAC1F, 0x3F5E27EB, 0x3F5CA8F1, 0x3F5B2F17, 0x3F59BA42, 0x3F584A5A,
   0x3F56DF44, 0x3F5578E9, 0x3F541733, 0x3F52BA08, 0x3F516154, 0x3F500D01, 0x3F4EBCF9, 0x3F4D7127] ++
  [0x3F4C2978, 0x3F4AE5D8, 0x3F49A634, 0x3F486A79, 0x3F473294, 0x3F45FE74, 0x3F44CE08, 0x3F43A13E,
   0x3F427806, 0x3F415250, 0x3F40300C, 0x3F3F112B, 0x3F3DF59D, 0x3F3CDD53, 0x3F3BC841, 0x3F3AB656,
   0x3F39A786, 0x3F389BC3, 0x3F379301, 0x3F368D31, 0x3F358A48, 0x3F348A3A, 0x3F338CFA, 0x3F32927C,
   0x3F319AB6, 0x3F30A59B, 0x3F2FB322, 0x3F2EC33E, 0x3F2DD5E6, 0x3F2CEB10, 0x3F2C02B0, 0x3F2B1CBE] ++
  [0x3F2A392F, 0x3F2957FB, 0x3F287917, 0x3F279C7B, 0x3F26C21E, 0x3F25E9F7, 0x3F2513FD, 0x3F244029,
   0x3F236E72, 0x3F229ECF, 0x3F21D13A, 0x3F2105A9, 0x3F203C17, 0x3F1F747A, 0x3F1EAECD, 0x3F1DEB07,
   0x3F1D2922, 0x3F1C6917, 0x3F1BAADF, 0x3F1AEE73, 0x3F1A33CD, 0x3F197AE7, 0x3F18C3BB, 0x3F180E41,
   0x3F175A75, 0x3F16A850, 0x3F15F7CC, 0x3F1548E5, 0x3F149B93, 0x3F13EFD2, 0x3F13459C, 0x3F129CEC] ++
  [0x3F11F5BD, 0x3F115009, 0x3F10ABCC, 0x3F100901, 0x3F0F67A2, 0x3F0EC7AB, 0x3F0E2918, 0x3F0D8BE3,
   0x3F0CF009, 0x3F0C5584, 0x3F0BBC51, 0x3F0B246B, 0x3F0A8DCD, 0x3F09F874, 0x3F09645C, 0x3F08D181,
   0x3F083FDE, 0x3F07AF70, 0x3F072033, 0x3F069223, 0x3F06053C, 0x3F05797C, 0x3F04EEDD, 0x3F04655E,
   0x3F03DCF9, 0x3F0355AD, 0x3F02CF75, 0x3F024A4E, 0x3F01C636, 0x3F014328, 0x3F00C122, 0x3F004020]

/-- Rs, reciprocal square roots: R91. -/
def tabRs : List Nat :=
  [0x3F7F017E, 0x3F7D0D3E, 0x3F7B2452, 0x3F79464E, 0x3F7772CB, 0x3F75A969, 0x3F73E9CB, 0x3F723399,
   0x3F708681, 0x3F6EE232, 0x3F6D4660, 0x3F6BB2C5, 0x3F6A271A, 0x3F68A31D, 0x3F672691, 0x3F65B139,
   0x3F6442DB, 0x3F62DB41, 0x3F617A36, 0x3F601F87, 0x3F5ECB04, 0x3F5D7C7F, 0x3F5C33CC, 0x3F5AF0BF,
   0x3F59B330, 0x3F587AF7, 0x3F5747EE, 0x3F5619F2, 0x3F54F0DF, 0x3F53CC93, 0x3F52ACEE, 0x3F5191D1] ++
  [0x3F507B1D, 0x3F4F68B6, 0x3F4E5A7F, 0x3F4D505E, 0x3F4C4A38, 0x3F4B47F4, 0x3F4A497A, 0x3F494EB3,
   0x3F485787, 0x3F4763E2, 0x3F4673AC, 0x3F4586D3, 0x3F449D42, 0x3F43B6E6, 0x3F42D3AD, 0x3F41F383,
   0x3F411659, 0x3F403C1C, 0x3F3F64BD, 0x3F3E902C, 0x3F3DBE58, 0x3F3CEF34, 0x3F3C22B1, 0x3F3B58C0,
   0x3F3A9154, 0x3F39CC60, 0x3F3909D6, 0x3F3849AA, 0x3F378BD0, 0x3F36D03D, 0x3F3616E4, 0x3F355FBA] ++
  [0x3F3450FC, 0x3F32EF41, 0x3F319589, 0x3F304387, 0x3F2EF8F2, 0x3F2DB587, 0x3F2C7904, 0x3F2B432A,
   0x3F2A13C0, 0x3F28EA8C, 0x3F27C759, 0x3F26A9F4, 0x3F25922C, 0x3F247FD3, 0x3F2372BD, 0x3F226ABE,
   0x3F2167AF, 0x3F206968, 0x3F1F6FC4, 0x3F1E7AA0, 0x3F1D89D9, 0x3F1C9D4E, 0x3F1BB4E1, 0x3F1AD073,
   0x3F19EFE6, 0x3F191320, 0x3F183A05, 0x3F17647C, 0x3F16926C, 0x3F15C3BC, 0x3F14F857, 0x3F143026] ++
  [0x3F136B13, 0x3F12A90B, 0x3F11E9F9, 0x3F112DCA, 0x3F10746D, 0x3F0FBDCE, 0x3F0F09DD, 0x3F0E5889,
   0x3F0DA9C2, 0x3F0CFD79, 0x3F0C539F, 0x3F0BAC25, 0x3F0B06FD, 0x3F0A641A, 0x3F09C36D, 0x3F0924EC,
   0x3F088889, 0x3F07EE37, 0x3F0755ED, 0x3F06BF9E, 0x3F062B40, 0x3F0598C7, 0x3F05082A, 0x3F04795F,
   0x3F03EC5C, 0x3F036117, 0x3F02D788, 0x3F024FA6, 0x3F01C967, 0x3F0144C4, 0x3F00C1B4, 0x3F004030]

/-- K, row i - 1 at 5(i - 1): the Taylor coefficients of erf at c_i, d = 0 to 4: R91. -/
def tabK : List Nat :=
  [0x3DD80409, 0x3F8F2B2E, 0xBDD6C0C5, 0xBEBB893A, 0x3D557EA4,
   0x3E331506, 0x3F8CF2F5, 0xBE302FB2, 0xBEB2C175, 0x3DAD5196,
   0x3E78C855, 0x3F89AF18, 0xBE70F26A, 0xBEA60273, 0x3DE942AF,
   0x3E9E4D54, 0x3F8572A8, 0xBE9620FD, 0xBE95C806, 0x3E0E363F,
   0x3EBF0ACA, 0x3F8055E8, 0xBEB0761E, 0xBE82ACCE, 0x3E228F7B,
   0x3EDE67F6, 0x3F74EAD4, 0xBEC6FECD, 0xBE5AC46C, 0x3E3119C4,
   0x3EFC37D5, 0x3F67E20F] ++
  [0xBED963EE, 0xBE2D4EF5, 0x3E398BCB, 0x3F0C2AD3, 0x3F59D57E,
   0xBEE772D6, 0xBDFD014C, 0x3E3BE6BB, 0x3F1952A6, 0x3F4B0B28,
   0xBEF11D3F, 0xBD9FAF71, 0x3E387235, 0x3F2589B9, 0x3F3BC8DC,
   0xBEF677A1, 0xBD0AE1E3, 0x3E2FB448, 0x3F30CAAB, 0x3F2C5223,
   0xBEF7B612, 0x3BF41F07, 0x3E226633, 0x3F3B1438, 0x3F1CE661,
   0xBEF527F7, 0x3D38AF2D, 0x3E1166DF, 0x3F4468E7, 0x3F0DBF4C,
   0xBEEF32D1, 0x3DA03435] ++
  [0x3DFB5866, 0x3F4CCEA1, 0x3EFE1F73, 0xBEE64C80, 0x3DD9B99C,
   0x3DD06890, 0x3F544E43, 0x3EE20584, 0xBEDAF557, 0x3E0423E4,
   0x3DA3EF05, 0x3F5AF318, 0x3EC7769B, 0xBECDB250, 0x3E15DB71,
   0x3D6F7191, 0x3F60CA59, 0x3EAEA7EA, 0xBEBF07A8, 0x3E2225E3,
   0x3D1AB6DE, 0x3F65E2A6, 0x3E97BE62, 0xBEAF7421, 0x3E29541D,
   0x3C989BAD, 0x3F6A4B88, 0x3E82CFAD, 0xBE9F6D1B, 0x3E2BDC2D,
   0x3AC74861, 0x3F6E14FE] ++
  [0x3E5FC70E, 0xBE8F5B85, 0x3E2A4F53, 0xBC588790, 0x3F714F11,
   0x3E3DEAE4, 0xBE7F33A2, 0x3E254FF5, 0xBCD00416, 0x3F74097E,
   0x3E1FED36, 0xBE60E594, 0x3E1D8829, 0xBD0F322D, 0x3F765366,
   0x3E059FA9, 0xBE444281, 0x3E13A13B, 0xBD2BFB9C, 0x3F783B18,
   0x3DDD8E4C, 0xBE29A0F2, 0x3E083C95, 0xBD3F0D9B, 0x3F79CDE1,
   0x3DB63F32, 0xBE113A5C, 0x3DF7DC48, 0xBD4963EE, 0x3F7B17F4,
   0x3D94BEDD, 0xBDF65C1E] ++
  [0x3DDE70C2, 0xBD4C2D58, 0x3F7C2456, 0x3D70EA68, 0xBDCF0971,
   0x3DC513C0, 0xBD48B3A7, 0x3F7CFCDD, 0x3D4194C7, 0xBDAC6881,
   0x3DAC78A3, 0xBD40468C, 0x3F7DAA32, 0x3D1A561B, 0xBD8E4761,
   0x3D952963, 0xBD342A0E, 0x3F7E33DE, 0x3CF42E22, 0xBD68BBF9,
   0x3D7F11DC, 0xBD258908, 0x3F7EA05F, 0x3CBFA8C4, 0xBD3CAA21,
   0x3D57ADD5, 0xBD156BBE, 0x3F7EF537, 0x3C9543AE, 0xBD1798BC,
   0x3D3468E2, 0xBD04B247] ++
  [0x3F7F370C, 0x3C66AF65, 0xBCF17F9D, 0x3D155273, 0xBCE824C1,
   0x3F7F69BA, 0x3C30DF57, 0xBCBEB0CA, 0x3CF4A394, 0xBCC83018,
   0x3F7F9070, 0x3C068EB5, 0xBC954650, 0x3CC66039, 0xBCAA50A4,
   0x3F7FADC8, 0x3BCB237A, 0xBC67B477, 0x3C9F439B, 0xBC8F0B09,
   0x3F7FC3D9, 0x3B9824CE, 0xBC324B21, 0x3C7D39EC, 0xBC6D5180,
   0x3F7FD450, 0x3B622096, 0xBC08079A, 0x3C475ED0, 0xBC428634,
   0x3F7FE081, 0x3B26BC5E] ++
  [0xBBCDD084, 0x3C1B793A, 0xBC1D9C38, 0x3F7FE975, 0x3AF3F919,
   0xBB9A63A2, 0x3BF0335F, 0xBBFC8A79, 0x3F7FEFFD, 0x3AB11AFE,
   0xBB65AF01, 0x3BB7D264, 0xBBC81D04, 0x3F7FF4B5, 0x3A7F20E7,
   0xBB296BD9, 0x3B8B60C9, 0xBB9CDFE7, 0x3F7FF819, 0x3A365507,
   0xBAF7DB95, 0x3B516D3E, 0xBB73613D, 0x3F7FFA82, 0x3A014AF8,
   0xBAB3CC40, 0x3B1BE9C7, 0xBB3AD9B9, 0x3F7FFC36, 0x39B5F011,
   0xBA8158AC, 0x3AE60EC4] ++
  [0xBB0DFFB8, 0x3F7FFD68, 0x397E06AB, 0xBA3890D8, 0x3AA836B5,
   0xBAD5ACB0, 0x3F7FFE3D, 0x392FF56D, 0xBA029827, 0x3A73CE04,
   0xBA9F2EE1, 0x3F7FFED0, 0x38F1DE7A, 0xB9B74A99, 0x3A2F1F70,
   0xBA6ADF37, 0x3F7FFF34, 0x38A4F0BC, 0xB97F2462, 0x39F95ECB,
   0xBA2B9C49, 0x3F7FFF79, 0x385F355E, 0xB930201C, 0x39AFFF8F,
   0xB9F8649E, 0x3F7FFFA7, 0x3815DAE6, 0xB8F12C4A, 0x39764547,
   0xB9B212B9, 0x3F7FFFC6] ++
  [0x37C7A666, 0xB8A3C680, 0x392ACF82, 0xB97CF0B2, 0x3F7FFFDA,
   0x3783F5E9, 0xB85C9F22, 0x38EAE78B, 0xB931FAF6, 0x3F7FFFE8,
   0x372D1570, 0xB8136441, 0x38A0239B, 0xB8F82BEE, 0x3F7FFFF0,
   0x36E14167, 0xB7C356B7, 0x3858798A, 0xB8AB722C, 0x3F7FFFF6,
   0x36916F95, 0xB7806481, 0x381111A7, 0xB86ABD16, 0x3F7FFFFA,
   0x363A56E4, 0xB7276A11, 0x37C0C8C6, 0xB81F40E0, 0x3F7FFFFC,
   0x35ECE39B, 0xB6D8880C] ++
  [0x377E06FD, 0xB7D6270D, 0x3F7FFFFE, 0x35956771, 0xB68AE62C,
   0x3725F3AC, 0xB78EB55B, 0x3F7FFFFF, 0x353AFD47, 0xB630C36D,
   0x36D70119, 0xB73C8416, 0x3F7FFFFF, 0x34E8356B, 0xB5DF2355,
   0x368A1C30, 0xB6F6D5E6, 0x3F7FFFFF, 0x348F0F43, 0xB58BB4E7,
   0x362FF2EA, 0xB6A02ED0, 0x3F800000, 0x342EE6B3, 0xB52D88E6,
   0x35DE48D3, 0xB64E162F]

end Sys2Proof.Machine
end

