-- ==== Sys2Proof/Machine/Transc.lean ====
section
/-!
DEFINITION. The transcendental functions, step by step (R90 to R98): every step is one binary32 operation.
-/

namespace Sys2Proof.Machine

/-- fma of three binary32 words, rounded once: R90. -/
def fma32 (a b c : Nat) : Nat := (b32.fmaV (b32.value a) (b32.value b) (b32.value c)).bits
/-- Sum of two binary32 words: R90. -/
def add32 (a b : Nat) : Nat := (b32.addV (b32.value a) (b32.value b)).bits
/-- Product of two binary32 words: R90. -/
def mul32 (a b : Nat) : Nat := (b32.mulV (b32.value a) (b32.value b)).bits
/-- A binary32 word with its sign turned. -/
def neg32 (a : Nat) : Nat := if a < 0x80000000 then a + 0x80000000 else a - 0x80000000
/-- An integer as the binary32 word nearest it. -/
def int32f (i : Int) : Nat := (b32OfInt i 0).bits

/-- A finite non-zero word as 1 <= m < 2 (a binary32 word), its exponent and fraction bits: R94 to R96. -/
def normalise (x : Nat) : Nat × Int × Nat :=
  match b32.value x with
  | .fin _ m e =>
    let l := m.log2
    let m24 := m * 2 ^ (23 - l)
    (0x3F800000 + m24 % 2 ^ 23, e + l, m24 % 2 ^ 23)
  | _ => (0x3F800000, 0, 0)

/-- y * 2^q, exact unless it is subnormal or overflows, then rounded once: R90. -/
def scale32 (y : Nat) (q : Int) : FRes :=
  match b32.value y with
  | .fin s m e => b32.round s m (e + q)
  | v => b32.ofV v

/-- The exponential's sequence: R93. -/
def expSeq (x : Nat) : FRes :=
  let k : Int := match b32.value (mul32 x 0x42B8AA3B) with
    | .fin s m e => rhe s m e
    | _ => 0
  let kf := int32f k
  let r := fma32 (neg32 kf) 0x3C317200 x
  let r := fma32 (neg32 kf) 0x32BFBE8E r
  let j := (k % 64).toNat
  let q := k / 64
  let u := fma32 0x3E2AAAAB r 0x3F000000
  let u := fma32 u r 0x3F800000
  let p := mul32 u r
  let t := tabT.getD j 0
  scale32 (fma32 t p t) q

/-- The natural logarithm's sequence: R94. -/
def logSeq (x : Nat) : FRes :=
  let (m, e, fr) := normalise x
  let i := fr / 2 ^ 17
  let m' := if i ≥ 32 then m - 0x800000 else m
  let e' := if i ≥ 32 then e + 1 else e
  let r := fma32 m' (tabInv.getD i 0) 0xBF800000
  let u := fma32 0xBE800000 r 0x3EAAAAAB
  let u := fma32 u r 0xBF000000
  let r2 := mul32 r r
  let p := fma32 u r2 r
  let ef := int32f e'
  let s := fma32 ef 0x35BFBE8E p
  let s := add32 s (tabLg.getD i 0)
  { bits := fma32 ef 0x3F317200 s }

/-- The reciprocal's sequence: R95. -/
def rcpSeq (x : Nat) : FRes :=
  let neg := decide (x ≥ 0x80000000)
  let (m, e, fr) := normalise x
  let y := tabRcp.getD (fr / 2 ^ 16) 0
  let d := fma32 (neg32 m) y 0x3F800000
  let y := fma32 y d y
  let d := fma32 (neg32 m) y 0x3F800000
  let y := fma32 y d y
  scale32 (if neg then neg32 y else y) (-e)

/-- The reciprocal square root's sequence: R96. -/
def rsqrtSeq (x : Nat) : FRes :=
  let (m, e, fr) := normalise x
  let odd := e % 2 = 1
  let m' := if odd then m + 0x800000 else m
  let e' := if odd then e - 1 else e
  let y := tabRs.getD ((if odd then 64 else 0) + fr / 2 ^ 17) 0
  let mh := m' - 0x800000
  let t := mul32 y y
  let d := fma32 (neg32 mh) t 0x3F000000
  let y := fma32 y d y
  let t := mul32 y y
  let d := fma32 (neg32 mh) t 0x3F000000
  let y := fma32 y d y
  scale32 y (-(e' / 2))

/-- A word with a sign applied: R97. -/
def signed32 (neg : Bool) (y : Nat) : FRes := { bits := if neg then neg32 y else y }

/-- The hyperbolic tangent's sequence: R97. -/
def tanhSeq (x : Nat) : FRes :=
  let neg := decide (x ≥ 0x80000000)
  let a := x % 0x80000000
  if a ≥ 0x41180000 then signed32 neg 0x3F800000
  else if a < 0x3E000000 then
    let z := mul32 a a
    let u := fma32 0xBD5D0DD1 z 0x3E088889
    let u := fma32 u z 0xBEAAAAAB
    let w := mul32 u z
    signed32 neg (fma32 w a a)
  else
    let ex := (expSeq (mul32 0x40000000 a)).bits
    let d := add32 ex 0x3F800000
    let rr := (rcpSeq d).bits
    signed32 neg (fma32 0xC0000000 rr 0x3F800000)

/-- The error function's sequence: R97. -/
def erfSeq (x : Nat) : FRes :=
  let neg := decide (x ≥ 0x80000000)
  let a := x % 0x80000000
  if a ≥ 0x40800000 then signed32 neg 0x3F800000
  else if a < 0x3D800000 then
    let z := mul32 a a
    let u := fma32 0x3DE71791 z 0xBEC093A3
    let u := fma32 u z 0x3F906EBB
    signed32 neg (mul32 u a)
  else
    let i : Nat := match b32.value a with
      | .fin _ m e => (m * 16) / 2 ^ (-e).toNat
      | _ => 0
    let h := add32 a (neg32 (b32OfInt (2 * i + 1) (-5)).bits)
    let k (d : Nat) := tabK.getD (5 * (i - 1) + d) 0
    let y := k 4
    let y := fma32 y h (k 3)
    let y := fma32 y h (k 2)
    let y := fma32 y h (k 1)
    let y := fma32 y h (k 0)
    signed32 neg y

/-- A result that counts invalid: R98. -/
def nanInv : FRes := b32.nan true
/-- A result that counts nothing. -/
def plain (w : Nat) : FRes := { bits := w }

/-- `v.exp` of a binary32 word: R93, R98. -/
def exp32 (x : Nat) : FRes :=
  match b32.value x with
  | .nan => b32.nan false
  | .inf neg => plain (if neg then 0 else 0x7F800000)
  | .fin neg m _ =>
    if m = 0 then plain 0x3F800000
    else if neg then (if x > 0xC2D00000 then plain 0 else expSeq x)
    else if x ≥ 0x42B20000 then { bits := 0x7F800000, overflow := true } else expSeq x

/-- `v.log` of a binary32 word: R94, R98. -/
def log32 (x : Nat) : FRes :=
  match b32.value x with
  | .nan => b32.nan false
  | .inf neg => if neg then nanInv else plain 0x7F800000
  | .fin neg m _ =>
    if m = 0 then plain 0xFF800000
    else if neg then nanInv
    else if x = 0x3F800000 then plain 0 else logSeq x

/-- `v.rcp` of a binary32 word: R95, R98. -/
def rcp32 (x : Nat) : FRes :=
  match b32.value x with
  | .nan => b32.nan false
  | .inf neg => plain (if neg then 0x80000000 else 0)
  | .fin neg m _ => if m = 0 then plain (if neg then 0xFF800000 else 0x7F800000) else rcpSeq x

/-- `v.rsqrt` of a binary32 word: R96, R98. -/
def rsqrt32 (x : Nat) : FRes :=
  match b32.value x with
  | .nan => b32.nan false
  | .inf neg => if neg then nanInv else plain 0
  | .fin neg m _ =>
    if m = 0 then plain (if neg then 0xFF800000 else 0x7F800000)
    else if neg then nanInv else rsqrtSeq x

/-- `v.tanh` of a binary32 word: R97, R98. -/
def tanh32 (x : Nat) : FRes :=
  match b32.value x with
  | .nan => b32.nan false
  | .inf neg => plain (if neg then 0xBF800000 else 0x3F800000)
  | .fin _ m _ => if m = 0 then plain x else tanhSeq x

/-- `v.erf` of a binary32 word: R97, R98. -/
def erf32 (x : Nat) : FRes :=
  match b32.value x with
  | .nan => b32.nan false
  | .inf neg => plain (if neg then 0xBF800000 else 0x3F800000)
  | .fin _ m _ => if m = 0 then plain x else erfSeq x

/-- A function of binary32 words on bfloat16: widened exactly, the result rounded once (R90). An infinite result of
the last rounding counts as an overflow of the element. -/
def onBf16 (g : Nat → FRes) (x : Nat) : FRes :=
  let r := g (widen x)
  let n := narrow r.bits
  { bits := n.bits, invalid := r.invalid, overflow := r.overflow || n.overflow }

end Sys2Proof.Machine
end

