-- ==== Sys2Proof/Machine/Vector.lean ====
section
/-!
DEFINITION. The vector slots: elementwise arithmetic, compares and mask logic, conversions, transcendentals, compress
and expand, reductions, the sieve, VL, loads and stores (R85 to R99, R105 to R123).
-/

namespace Sys2Proof

open Machine

/-! ### Shared forms -/

/-- The core a V slot issues on. -/
def VSlot.n (v : VSlot) : Nat := v.core.toNat
/-- Element `i` of va in the row's type. -/
def VSlot.a (v : VSlot) (c : Core) (i : Nat) : Nat := elemAt (tyWidth v.ty) (c.readV v.va) i
/-- Element `i` of vb in the row's type. -/
def VSlot.b (v : VSlot) (c : Core) (i : Nat) : Nat := elemAt (tyWidth v.ty) (c.readV v.vb) i
/-- Element `i` of vc in the row's type. -/
def VSlot.c (v : VSlot) (c : Core) (i : Nat) : Nat := elemAt (tyWidth v.ty) (c.readV v.vc) i
/-- n of a row of its type: R109. -/
def VSlot.count (v : VSlot) (c : Core) : Nat := c.count (2048 / tyWidth v.ty)

/-- An elementwise result of latency `lat`: active elements are written and counted (R87, R110). -/
def VSlot.map (v : VSlot) (lat : Nat) (f : Core → Nat → FRes) (s : State) : State :=
  let c := s.core v.n
  let rs := (v.active c (v.count c) id).map (fun i => (i, f c i))
  (s.countRes v.n (rs.map (fun r => r.2))).writeElems v.n v.vd lat (tyWidth v.ty) (rs.map (fun r => (r.1, r.2.bits)))

/-- A float operation of one, two or three operands on codes of the row's type: R85. -/
def VSlot.fmt (v : VSlot) : FloatFmt := if v.ty = 1 then bf16 else b32

/-- An element as an operation writes it: every NaN of a float type is the canonical one (R86). -/
def VSlot.canon (v : VSlot) (x : Nat) : Nat := if v.ty ≤ 1 ∧ v.fmt.isNan x = true then v.fmt.nanBits else x

/-- Two operands: floats under R85 and R86, integers modulo 2^w under R115. -/
def VSlot.op2 (v : VSlot) (lat : Nat) (fl : FloatFmt → Nat → Nat → FRes) (int : Nat → Nat → Nat → Nat) (s : State) : State :=
  v.map lat (fun c i =>
    if v.ty ≤ 1 then fl v.fmt (v.a c i) (v.b c i)
    else { bits := int (tyWidth v.ty) (v.a c i) (v.b c i) }) s

/-- An integer element as the type reads it: UINT8 unsigned, the others signed (R115). -/
def VSlot.int (v : VSlot) (x : Nat) : Int := if v.ty = 5 then x else sextN (tyWidth v.ty) x

/-- A shift count: imm16 mod w, or vb[i] mod w when fl = 1 (R114). -/
def VSlot.shiftCount (v : VSlot) (c : Core) (i : Nat) : Nat := (if v.fl then v.b c i else v.imm16) % tyWidth v.ty

/-- A compare: mask bit i for every i < n, 0 where the element is inactive; bits from n up are cleared: R116. -/
def VSlot.compare (v : VSlot) (fl : Int → Int → Bool) (s : State) : State :=
  let c := s.core v.n
  let on := (v.active c (v.count c) id).filter (fun i =>
    if v.ty ≤ 1 then v.fmt.cmp fl (v.a c i) (v.b c i) else fl (v.int (v.a c i)) (v.int (v.b c i)))
  s.writeM v.n (v.vd.extractLsb' 0 3) 4 (BitVec.allOnes 256) (BitVec.ofNat 256 (sumN (on.map (fun i => 2 ^ i))))

/-- Mask logic over all 256 bits: R114, R116. -/
def VSlot.maskOp (v : VSlot) (f : BitVec 256 → BitVec 256 → BitVec 256) (s : State) : State :=
  let c := s.core v.n
  s.writeM v.n (v.vd.extractLsb' 0 3) 4 (BitVec.allOnes 256)
    (f (c.readM (v.va.extractLsb' 0 3)) (c.readM (v.vb.extractLsb' 0 3)))

/-- A transcendental function: R90. -/
def VSlot.func (v : VSlot) (g : Nat → FRes) (s : State) : State :=
  v.map 14 (fun c i => if v.ty = 1 then onBf16 g (v.a c i) else g (v.a c i)) s

/-! ### Conversions -/

/-- A conversion result: bits and the counts cvt_sats, invalid, overflow. -/
structure Machine.CvtRes where
  bits : Nat
  sat : Bool := false
  invalid : Bool := false
  overflow : Bool := false
  deriving DecidableEq, Repr

/-- Limits of an integer type: R88, R107. -/
def Machine.intLimits (ty : Nat) : Int × Int :=
  if ty = 5 then (0, 255) else (-(2 ^ (tyWidth ty - 1) : Nat), (2 ^ (tyWidth ty - 1) : Nat) - 1)

/-- One element converted: R88, R117. `f` is a binary32 code. -/
def Machine.cvtElem (ty dty x f : Nat) : CvtRes :=
  if ty = 0 ∧ dty = 1 then
    let r := narrow x
    { bits := r.bits, overflow := r.overflow }
  else if ty = 1 then { bits := widen x }
  else if ty = 0 then
    let (lo, hi) := intLimits dty
    let (q, sat, inv) := b32ToInt lo hi x f
    { bits := wrapN (tyWidth dty) q, sat := sat, invalid := inv }
  else if ty = 8 then
    let r := b32OfInt (sextN 56 x) (sextN 8 (x / 2 ^ 56))
    { bits := r.bits, overflow := r.overflow }
  else
    let r := intToB32 (if ty = 5 then x else sextN (tyWidth ty) x) f
    { bits := r.bits, invalid := r.invalid, overflow := r.overflow }

/-- v.cvt: n elements, the narrower side in slice `part` (R110, R117). -/
def VSlot.convert (v : VSlot) (s : State) : State :=
  let c := s.core v.n
  let slice := if v.ty = 8 then 32 else 64
  let n := min c.readVl slice
  let ws := tyWidth v.ty
  let wd := tyWidth v.dty
  let narrowAt (i : Nat) : Nat := slice * v.part + i
  let srcAt (i : Nat) : Nat := if v.dty = 0 ∧ v.ty ≠ 8 then narrowAt i else i
  let dstAt (i : Nat) : Nat := if v.dty = 0 ∧ v.ty ≠ 8 then i else narrowAt i
  let rs := (v.active c n narrowAt).map (fun i =>
    let f := if v.fl then 0x3F800000 else elemAt 32 (c.readV v.vb) i
    (dstAt i, cvtElem v.ty v.dty (elemAt ws (c.readV v.va) (srcAt i)) f))
  (s.numStat v.n (rs.countP (fun r => r.2.sat)) (rs.countP (fun r => r.2.invalid))
    (rs.countP (fun r => r.2.overflow))).writeElems v.n v.vd 5 wd (rs.map (fun r => (r.1, r.2.bits)))

/-- Mantissa bits of a block-scaled code: R57. -/
def Machine.bsBits (code : Nat) : Nat :=
  match code with
  | 8 => 4
  | 9 => 6
  | 0xA => 8
  | 0xB => 12
  | _ => 16
/-- Container bits of a block-scaled code: R84. -/
def Machine.bsContainer (code : Nat) : Nat :=
  match code with
  | 8 => 4
  | 9 | 0xA => 8
  | _ => 16

/-- A block of binary32 codes in BSn: the exponent, the mantissas, and the counts cvt_sats and invalid: R89. -/
def Machine.toBs (n : Nat) (xs : List Nat) : Int × List Int × Nat × Nat :=
  let lim : Int := (2 ^ (n - 1) : Nat) - 1
  let fins := xs.filter (fun x => x / 2 ^ 23 % 256 != 255)
  let a := maxN (fins.map (fun x => x % 2 ^ 31))
  let scaled (e : Int) (x : Nat) : Int := match b32.value x with
    | .fin s m k => rhe s m (k - e)
    | _ => 0
  let e0 : Int := match b32.value a with
    | .fin _ m k => if m = 0 then -128 else max (-128) (min 127 (k + (m.log2 : Nat) - ((n : Int) - 2)))
    | _ => -128
  let beyond := fins.any (fun x => decide ((scaled e0 x).natAbs > lim))
  let e := if a ≠ 0 ∧ e0 < 127 ∧ beyond then e0 + 1 else e0
  let ms := xs.map (fun x => match b32.value x with
    | .nan => ((0 : Int), false, true)
    | .inf neg => (if neg then -lim else lim, true, false)
    | .fin _ m _ =>
      if m = 0 then (0, false, false)
      else
        let r := satInt (-lim) lim (scaled e x)
        (r.1, r.2, false))
  (e, ms.map (fun m => m.1), ms.countP (fun m => m.2.1), ms.countP (fun m => m.2.2))

/-- v.cvtbs: both blocks, elements from n up taken as +0: R118. -/
def VSlot.convertBs (v : VSlot) (s : State) : State :=
  let c := s.core v.n
  let n := c.count 64
  let at' (i : Nat) : Nat := if i < n then elemAt 32 (c.readV v.va) i else 0
  let w := bsContainer v.bs
  let b0 := toBs (bsBits v.bs) ((List.range 32).map at')
  let b1 := toBs (bsBits v.bs) ((List.range 32).map (fun i => at' (32 + i)))
  let ms := b0.2.1 ++ b1.2.1
  let s := s.numStat v.n (b0.2.2.1 + b1.2.2.1) (b0.2.2.2 + b1.2.2.2) 0
  let s := s.writeElems v.n v.vd 9 w
    ((List.range 64).map (fun i => (64 * v.part + i, wrapN w (ms.getD i 0))))
  s.writeElems v.n v.vc 9 8 [(2 * v.xs, wrapN 8 b0.1), (2 * v.xs + 1, wrapN 8 b1.1)]

/-! ### Reductions -/

/-- One level of the tree: neighbouring pairs combine, an empty child passes the other: R99. -/
def Machine.treeLevel (f : α → α → α) : List (Option α) → List (Option α)
  | some a :: some b :: xs => some (f a b) :: treeLevel f xs
  | some a :: none :: xs => some a :: treeLevel f xs
  | none :: some b :: xs => some b :: treeLevel f xs
  | none :: none :: xs => none :: treeLevel f xs
  | [x] => [x]
  | [] => []

/-- The root of the tree after `k` levels: R99. -/
def Machine.treeRoot (f : α → α → α) : Nat → List (Option α) → Option α
  | 0, xs => (xs.headD none)
  | k + 1, xs => treeRoot f k (treeLevel f xs)

/-- The leaves of a reduction: element k where it is active: R99. -/
def VSlot.leaves (v : VSlot) (c : Core) (g : Nat → α) : List (Option α) :=
  let on := v.active c (v.count c) id
  (List.range (2048 / tyWidth v.ty)).map (fun i => if on.contains i then some (g (v.a c i)) else none)

/-- A reduction: floats in binary32, integers in INT32; element 0 of vd receives the root (R99, R120). An event of any
node counts once for the row (R87). -/
def VSlot.reduce (v : VSlot) (fl : Nat → Nat → FRes) (int : Int → Int → Int) (emptyF : Nat) (emptyI : Int) (s : State) :
    State :=
  let c := s.core v.n
  if v.ty ≤ 1 then
    let leaf (x : Nat) : FRes := { bits := if v.ty = 1 then widen x else x }
    let join (a b : FRes) : FRes :=
      let r := fl a.bits b.bits
      { r with invalid := a.invalid || b.invalid || r.invalid, overflow := a.overflow || b.overflow || r.overflow }
    let root := (treeRoot join 7 (v.leaves c leaf)).getD { bits := emptyF }
    let canon := b32.ofV (b32.value root.bits)
    let last := if v.ty = 1 then narrow canon.bits else canon
    let r : FRes := { bits := last.bits, invalid := root.invalid, overflow := root.overflow || (v.ty == 1 && last.overflow) }
    (s.countRes v.n [r]).writeElems v.n v.vd 9 (tyWidth v.ty) [(0, r.bits)]
  else
    let root := (treeRoot int 7 (v.leaves c (fun x => sextN (tyWidth v.ty) x))).getD emptyI
    s.writeElems v.n v.vd 9 32 [(0, wrapN 32 root)]

/-! ### The sieve -/

/-- An entry of a list: its order key, its index, and the key's bits: R121. -/
structure Machine.Entry where
  key : Int
  idx : Nat
  bits : Nat
  deriving DecidableEq, Repr

/-- The empty entry: R122. -/
def Machine.emptyEntry (float : Bool) : Entry :=
  if float then ⟨b32.key 0xFF800000, 0xFFFFFFFF, 0xFF800000⟩ else ⟨-(2 ^ 31), 0xFFFFFFFF, 0x80000000⟩

/-- An entry from a key and an index; a NaN key of a list counts as empty: R121, R122. -/
def Machine.mkEntry (float : Bool) (bits idx : Nat) : Entry :=
  if float then (if b32.isNan bits then emptyEntry true else ⟨b32.key bits, idx, bits⟩) else ⟨sextN 32 bits, idx, bits⟩

/-- Whether an entry ranks above another: R121. -/
def Machine.Entry.above (a b : Entry) : Bool := decide (a.key > b.key) || (a.key == b.key && decide (a.idx < b.idx))

/-- Put an entry in its place of a ranked list. DESIGN CHOICE: entries that rank alike with different bits, B32 keys -0 and +0 of one index,
keep their order, list entries before candidates (entry 53). -/
def Machine.rankInsert (e : Entry) : List Entry → List Entry
  | [] => [e]
  | x :: xs => if e.above x then e :: x :: xs else x :: rankInsert e xs

/-- The entries in rank order. -/
def Machine.rank (es : List Entry) : List Entry := es.foldl (fun l e => rankInsert e l) []

/-- Write entries to a pair of registers, empty ones from their end up to position 63: R121, R123. -/
def Machine.State.writeList (s : State) (n : Nat) (r : BitVec 5) (lat : Nat) (float : Bool) (es : List Entry) : State :=
  let full := es ++ List.replicate (64 - es.length) (emptyEntry float)
  let put (f : Entry → Nat) : List (Nat × Nat) := (List.range 64).map (fun i => (i, f (full.getD i (emptyEntry float))))
  (s.writeElems n r lat 32 (put (fun e => e.bits))).writeElems n (r + 1) lat 32 (put (fun e => e.idx))

/-- v.sieve: R121 to R123. At VL = 0 it writes nothing (R110). -/
def VSlot.sieve (v : VSlot) (s : State) : State :=
  let c := s.core v.n
  if c.readVl = 0 then s else
  let float := v.ty == 0
  let h := if v.half then 64 else 0
  let list := (List.range 64).map (fun i =>
    mkEntry float (elemAt 32 (c.readV v.vd) i) (elemAt 32 (c.readV (v.vd + 1)) i))
  let m := c.readM v.mask
  let key (j : Nat) : Nat := if v.ty = 3 then wrapN 32 (sextN 16 (v.a c (h + j))) else v.a c j
  let on := (List.range 64).filter (fun j =>
    decide (h + j < c.readVl) && (!v.maskEn || m.getLsbD (h + j)) && !(float && b32.isNan (key j)))
  let cands := on.map (fun j =>
    let i := elemAt 32 (c.readV v.vb) j
    if i = 0xFFFFFFFF then emptyEntry float else mkEntry float (key j) i)
  let merged := rank (list ++ cands)
  let s := s.writeList v.n v.vd 8 float (merged.take (v.kMinus1 + 1))
  if v.fl then s.writeList v.n v.vc 8 float (merged.drop 64) else s

/-! ### Loads and stores -/

/-- Element `i` read from the buffers as of the issue cycle: R112. -/
def VSlot.loadElem (v : VSlot) (s : State) (c : Core) (i : Nat) : Nat :=
  leNat (s.bufRead v.n (v.elemAddr c i).toNat (tyWidth v.ty / 8))

/-- Join bytes that follow one another. -/
def Machine.joinBytes : List (Nat × List Byte) → List (Nat × List Byte)
  | [] => []
  | (a, x) :: rest =>
    match joinBytes rest with
    | (b, y) :: more => if a + x.length = b then (a, x ++ y) :: more else (a, x) :: (b, y) :: more
    | [] => [(a, x)]

/-! ### The operations -/

/-- vd ← va + vb: R114, R115. -/
def Machine.actVAdd (v : VSlot) (s : State) : State :=
  v.op2 4 (fun f a b => f.addV (f.value a) (f.value b)) (fun w a b => (a + b) % 2 ^ w) s

/-- `V_ADD` as a command: R114. -/
def Machine.execVAdd (v : VSlot) (s : State) : Out := s.slotExec v.core (.vAdd v) "V_ADD" (Machine.actVAdd v)

/-- vd ← va − vb: R114, R115. -/
def Machine.actVSub (v : VSlot) (s : State) : State :=
  v.op2 4 (fun f a b => f.addV (f.value a) (f.value b).neg) (fun w a b => (a + 2 ^ w - b) % 2 ^ w) s

/-- `V_SUB` as a command: R114. -/
def Machine.execVSub (v : VSlot) (s : State) : Out := s.slotExec v.core (.vSub v) "V_SUB" (Machine.actVSub v)

/-- vd ← va × vb: R114, R115. -/
def Machine.actVMul (v : VSlot) (s : State) : State :=
  v.op2 5 (fun f a b => f.mulV (f.value a) (f.value b)) (fun w a b => (a * b) % 2 ^ w) s

/-- `V_MUL` as a command: R114. -/
def Machine.execVMul (v : VSlot) (s : State) : Out := s.slotExec v.core (.vMul v) "V_MUL" (Machine.actVMul v)

/-- vd ← va × vb + vc, one rounding: R114. -/
def Machine.actVFma (v : VSlot) (s : State) : State :=
  v.map 6 (fun c i => v.fmt.fmaV (v.fmt.value (v.a c i)) (v.fmt.value (v.b c i)) (v.fmt.value (v.c c i))) s

/-- `V_FMA` as a command: R114. -/
def Machine.execVFma (v : VSlot) (s : State) : Out := s.slotExec v.core (.vFma v) "V_FMA" (Machine.actVFma v)

/-- vd ← −(va × vb) + vc, one rounding: R114. -/
def Machine.actVFnma (v : VSlot) (s : State) : State :=
  v.map 6 (fun c i => v.fmt.fmaV (v.fmt.value (v.a c i)).neg (v.fmt.value (v.b c i)) (v.fmt.value (v.c c i))) s

/-- `V_FNMA` as a command: R114. -/
def Machine.execVFnma (v : VSlot) (s : State) : Out := s.slotExec v.core (.vFnma v) "V_FNMA" (Machine.actVFnma v)

/-- B32 vd[i] ← va[64·half + i] × vb[64·half + i] + vc[i], one rounding to B32: R114. -/
def Machine.actVWfma (v : VSlot) (s : State) : State :=
  let c := s.core v.n
  let h := if v.half then 64 else 0
  let rs := (v.active c (c.count 64) (fun i => h + i)).map (fun i =>
    (i, b32.fmaV (bf16.value (v.a c (h + i))) (bf16.value (v.b c (h + i))) (b32.value (elemAt 32 (c.readV v.vc) i))))
  (s.countRes v.n (rs.map (fun r => r.2))).writeElems v.n v.vd 6 32 (rs.map (fun r => (r.1, r.2.bits)))

/-- `V_WFMA` as a command: R114. -/
def Machine.execVWfma (v : VSlot) (s : State) : Out := s.slotExec v.core (.vWfma v) "V_WFMA" (Machine.actVWfma v)

/-- Element minimum: R86, R114, R115. -/
def Machine.actVMin (v : VSlot) (s : State) : State :=
  v.op2 4 (fun f a b => f.minmax false a b) (fun _ a b => if v.int a ≤ v.int b then a else b) s

/-- `V_MIN` as a command: R114. -/
def Machine.execVMin (v : VSlot) (s : State) : Out := s.slotExec v.core (.vMin v) "V_MIN" (Machine.actVMin v)

/-- Element maximum: R86, R114, R115. -/
def Machine.actVMax (v : VSlot) (s : State) : State :=
  v.op2 4 (fun f a b => f.minmax true a b) (fun _ a b => if v.int a ≤ v.int b then b else a) s

/-- `V_MAX` as a command: R114. -/
def Machine.execVMax (v : VSlot) (s : State) : Out := s.slotExec v.core (.vMax v) "V_MAX" (Machine.actVMax v)

/-- Absolute value: R114, R115. -/
def Machine.actVAbs (v : VSlot) (s : State) : State :=
  v.map 4 (fun c i =>
    let a := v.a c i
    if v.ty ≤ 1 then { bits := if v.fmt.isNan a then v.fmt.nanBits else a % v.fmt.signBit }
    else { bits := wrapN (tyWidth v.ty) (v.int a).natAbs }) s

/-- `V_ABS` as a command: R115. -/
def Machine.execVAbs (v : VSlot) (s : State) : Out := s.slotExec v.core (.vAbs v) "V_ABS" (Machine.actVAbs v)

/-- Negation: R114, R115. -/
def Machine.actVNeg (v : VSlot) (s : State) : State :=
  v.map 4 (fun c i =>
    let a := v.a c i
    if v.ty ≤ 1 then { bits := if v.fmt.isNan a then v.fmt.nanBits else (a + v.fmt.signBit) % (2 * v.fmt.signBit) }
    else { bits := wrapN (tyWidth v.ty) (-(v.int a)) }) s

/-- `V_NEG` as a command: R115. -/
def Machine.execVNeg (v : VSlot) (s : State) : Out := s.slotExec v.core (.vNeg v) "V_NEG" (Machine.actVNeg v)

/-- Bitwise AND: R114. -/
def Machine.actVAnd (v : VSlot) (s : State) : State :=
  v.map 4 (fun c i => { bits := v.a c i &&& v.b c i }) s

/-- `V_AND` as a command: R114. -/
def Machine.execVAnd (v : VSlot) (s : State) : Out := s.slotExec v.core (.vAnd v) "V_AND" (Machine.actVAnd v)

/-- Bitwise OR: R114. -/
def Machine.actVOr (v : VSlot) (s : State) : State :=
  v.map 4 (fun c i => { bits := v.a c i ||| v.b c i }) s

/-- `V_OR` as a command: R114. -/
def Machine.execVOr (v : VSlot) (s : State) : Out := s.slotExec v.core (.vOr v) "V_OR" (Machine.actVOr v)

/-- Bitwise XOR: R114. -/
def Machine.actVXor (v : VSlot) (s : State) : State :=
  v.map 4 (fun c i => { bits := v.a c i ^^^ v.b c i }) s

/-- `V_XOR` as a command: R114. -/
def Machine.execVXor (v : VSlot) (s : State) : Out := s.slotExec v.core (.vXor v) "V_XOR" (Machine.actVXor v)

/-- Shift left: R114. -/
def Machine.actVShl (v : VSlot) (s : State) : State :=
  v.map 4 (fun c i => { bits := v.a c i * 2 ^ v.shiftCount c i % 2 ^ tyWidth v.ty }) s

/-- `V_SHL` as a command: R114. -/
def Machine.execVShl (v : VSlot) (s : State) : Out := s.slotExec v.core (.vShl v) "V_SHL" (Machine.actVShl v)

/-- Logical shift right: R114. -/
def Machine.actVShr (v : VSlot) (s : State) : State :=
  v.map 4 (fun c i => { bits := v.a c i >>> v.shiftCount c i }) s

/-- `V_SHR` as a command: R114. -/
def Machine.execVShr (v : VSlot) (s : State) : Out := s.slotExec v.core (.vShr v) "V_SHR" (Machine.actVShr v)

/-- Arithmetic shift right: R114. -/
def Machine.actVSra (v : VSlot) (s : State) : State :=
  v.map 4 (fun c i => { bits := wrapN (tyWidth v.ty) (sextN (tyWidth v.ty) (v.a c i) >>> v.shiftCount c i) }) s

/-- `V_SRA` as a command: R114. -/
def Machine.execVSra (v : VSlot) (s : State) : Out := s.slotExec v.core (.vSra v) "V_SRA" (Machine.actVSra v)

/-- Count of 1 bits of each element: R114. -/
def Machine.actVPopc (v : VSlot) (s : State) : State :=
  v.map 4 (fun c i => { bits := (List.range (tyWidth v.ty)).countP (fun k => (v.a c i).testBit k) }) s

/-- `V_POPC` as a command: R114. -/
def Machine.execVPopc (v : VSlot) (s : State) : Out := s.slotExec v.core (.vPopc v) "V_POPC" (Machine.actVPopc v)

/-- vd[i] ← imm16 + i, modulo 2^w: R114. -/
def Machine.actVIota (v : VSlot) (s : State) : State :=
  v.map 4 (fun _ i => { bits := (v.imm16 + i) % 2 ^ tyWidth v.ty }) s

/-- `V_IOTA` as a command: R114. -/
def Machine.execVIota (v : VSlot) (s : State) : Out := s.slotExec v.core (.vIota v) "V_IOTA" (Machine.actVIota v)

/-- vd[i] ← va[i] if mask bit i, else vb[i], for every i < n: R86, R114, R116. -/
def Machine.actVSel (v : VSlot) (s : State) : State :=
  let c := s.core v.n
  let m := c.readM v.mask
  s.writeElems v.n v.vd 4 (tyWidth v.ty)
    ((List.range (v.count c)).map (fun i => (i, v.canon (if m.getLsbD i then v.a c i else v.b c i))))

/-- `V_SEL` as a command: R114. -/
def Machine.execVSel (v : VSlot) (s : State) : Out := s.slotExec v.core (.vSel v) "V_SEL" (Machine.actVSel v)

/-- Mask bit i ← va[i] = vb[i]: R114, R116. -/
def Machine.actVCeq (v : VSlot) (s : State) : State :=
  v.compare (fun a b => a == b) s

/-- `V_CEQ` as a command: R116. -/
def Machine.execVCeq (v : VSlot) (s : State) : Out := s.slotExec v.core (.vCeq v) "V_CEQ" (Machine.actVCeq v)

/-- Mask bit i ← va[i] < vb[i]: R114, R116. -/
def Machine.actVClt (v : VSlot) (s : State) : State :=
  v.compare (fun a b => decide (a < b)) s

/-- `V_CLT` as a command: R116. -/
def Machine.execVClt (v : VSlot) (s : State) : Out := s.slotExec v.core (.vClt v) "V_CLT" (Machine.actVClt v)

/-- Mask bit i ← va[i] ≤ vb[i]: R114, R116. -/
def Machine.actVCle (v : VSlot) (s : State) : State :=
  v.compare (fun a b => decide (a ≤ b)) s

/-- `V_CLE` as a command: R116. -/
def Machine.execVCle (v : VSlot) (s : State) : Out := s.slotExec v.core (.vCle v) "V_CLE" (Machine.actVCle v)

/-- m[vd] ← m[va] AND m[vb]: R114. -/
def Machine.actMAnd (v : VSlot) (s : State) : State :=
  v.maskOp (fun a b => a &&& b) s

/-- `M_AND` as a command: R114. -/
def Machine.execMAnd (v : VSlot) (s : State) : Out := s.slotExec v.core (.mAnd v) "M_AND" (Machine.actMAnd v)

/-- m[vd] ← m[va] OR m[vb]: R114. -/
def Machine.actMOr (v : VSlot) (s : State) : State :=
  v.maskOp (fun a b => a ||| b) s

/-- `M_OR` as a command: R114. -/
def Machine.execMOr (v : VSlot) (s : State) : Out := s.slotExec v.core (.mOr v) "M_OR" (Machine.actMOr v)

/-- m[vd] ← m[va] XOR m[vb]: R114. -/
def Machine.actMXor (v : VSlot) (s : State) : State :=
  v.maskOp (fun a b => a ^^^ b) s

/-- `M_XOR` as a command: R114. -/
def Machine.execMXor (v : VSlot) (s : State) : Out := s.slotExec v.core (.mXor v) "M_XOR" (Machine.actMXor v)

/-- m[vd] ← m[va] AND NOT m[vb]: R114. -/
def Machine.actMAndn (v : VSlot) (s : State) : State :=
  v.maskOp (fun a b => a &&& ~~~ b) s

/-- `M_ANDN` as a command: R114. -/
def Machine.execMAndn (v : VSlot) (s : State) : Out := s.slotExec v.core (.mAndn v) "M_ANDN" (Machine.actMAndn v)

/-- Conversion under R88: R117. -/
def Machine.actVCvt (v : VSlot) (s : State) : State :=
  v.convert s

/-- `V_CVT` as a command: R117. -/
def Machine.execVCvt (v : VSlot) (s : State) : Out := s.slotExec v.core (.vCvt v) "V_CVT" (Machine.actVCvt v)

/-- Two blocks to BSn under R89: R118. -/
def Machine.actVCvtbs (v : VSlot) (s : State) : State :=
  v.convertBs s

/-- `V_CVTBS` as a command: R118. -/
def Machine.execVCvtbs (v : VSlot) (s : State) : Out := s.slotExec v.core (.vCvtbs v) "V_CVTBS" (Machine.actVCvtbs v)

/-- The function of R93 on each element. -/
def Machine.actVExp (v : VSlot) (s : State) : State :=
  v.func exp32 s

/-- `V_EXP` as a command: R93. -/
def Machine.execVExp (v : VSlot) (s : State) : Out := s.slotExec v.core (.vExp v) "V_EXP" (Machine.actVExp v)

/-- The function of R94 on each element. -/
def Machine.actVLog (v : VSlot) (s : State) : State :=
  v.func log32 s

/-- `V_LOG` as a command: R94. -/
def Machine.execVLog (v : VSlot) (s : State) : Out := s.slotExec v.core (.vLog v) "V_LOG" (Machine.actVLog v)

/-- The function of R95 on each element. -/
def Machine.actVRcp (v : VSlot) (s : State) : State :=
  v.func rcp32 s

/-- `V_RCP` as a command: R95. -/
def Machine.execVRcp (v : VSlot) (s : State) : Out := s.slotExec v.core (.vRcp v) "V_RCP" (Machine.actVRcp v)

/-- The function of R96 on each element. -/
def Machine.actVRsqrt (v : VSlot) (s : State) : State :=
  v.func rsqrt32 s

/-- `V_RSQRT` as a command: R96. -/
def Machine.execVRsqrt (v : VSlot) (s : State) : Out := s.slotExec v.core (.vRsqrt v) "V_RSQRT" (Machine.actVRsqrt v)

/-- The function of R97 on each element. -/
def Machine.actVTanh (v : VSlot) (s : State) : State :=
  v.func tanh32 s

/-- `V_TANH` as a command: R97. -/
def Machine.execVTanh (v : VSlot) (s : State) : Out := s.slotExec v.core (.vTanh v) "V_TANH" (Machine.actVTanh v)

/-- The function of R97 on each element. -/
def Machine.actVErf (v : VSlot) (s : State) : State :=
  v.func erf32 s

/-- `V_ERF` as a command: R97. -/
def Machine.execVErf (v : VSlot) (s : State) : Out := s.slotExec v.core (.vErf v) "V_ERF" (Machine.actVErf v)

/-- Active elements in ascending order, zeros after them, VL ← their count: R86, R119. -/
def Machine.actVCompress (v : VSlot) (s : State) : State :=
  let c := s.core v.n
  let on := v.active c (v.count c) id
  let e := 2048 / tyWidth v.ty
  (s.writeElems v.n v.vd 7 (tyWidth v.ty)
    ((List.range e).map (fun i => (i, match on[i]? with
      | some k => v.canon (v.a c k)
      | none => 0)))).writeVl v.n 7 on.length

/-- `V_COMPRESS` as a command: R119. -/
def Machine.execVCompress (v : VSlot) (s : State) : Out := s.slotExec v.core (.vCompress v) "V_COMPRESS" (Machine.actVCompress v)

/-- vd[i] ← va[r] for each active i, r the active elements below it: R86, R119. -/
def Machine.actVExpand (v : VSlot) (s : State) : State :=
  let c := s.core v.n
  let on := v.active c (v.count c) id
  s.writeElems v.n v.vd 7 (tyWidth v.ty) (on.zipIdx.map (fun p => (p.1, v.canon (v.a c p.2))))

/-- `V_EXPAND` as a command: R119. -/
def Machine.execVExpand (v : VSlot) (s : State) : Out := s.slotExec v.core (.vExpand v) "V_EXPAND" (Machine.actVExpand v)

/-- Sum over the fixed tree: R99, R120. -/
def Machine.actVRedsum (v : VSlot) (s : State) : State :=
  v.reduce (fun a b => b32.addV (b32.value a) (b32.value b)) (fun a b => sextN 32 (wrapN 32 (a + b))) 0 0 s

/-- `V_REDSUM` as a command: R120. -/
def Machine.execVRedsum (v : VSlot) (s : State) : Out := s.slotExec v.core (.vRedsum v) "V_REDSUM" (Machine.actVRedsum v)

/-- Maximum over the fixed tree: R99, R120. -/
def Machine.actVRedmax (v : VSlot) (s : State) : State :=
  v.reduce (fun a b => b32.minmax true a b) (fun a b => max a b) 0xFF800000 (-(2 ^ 31)) s

/-- `V_REDMAX` as a command: R120. -/
def Machine.execVRedmax (v : VSlot) (s : State) : Out := s.slotExec v.core (.vRedmax v) "V_REDMAX" (Machine.actVRedmax v)

/-- Minimum over the fixed tree: R99, R120. -/
def Machine.actVRedmin (v : VSlot) (s : State) : State :=
  v.reduce (fun a b => b32.minmax false a b) (fun a b => min a b) 0x7F800000 (2 ^ 31 - 1) s

/-- `V_REDMIN` as a command: R120. -/
def Machine.execVRedmin (v : VSlot) (s : State) : Out := s.slotExec v.core (.vRedmin v) "V_REDMIN" (Machine.actVRedmin v)

/-- Candidates merge into a running top-k list: R121 to R123. -/
def Machine.actVSieve (v : VSlot) (s : State) : State :=
  v.sieve s

/-- `V_SIEVE` as a command: R121. -/
def Machine.execVSieve (v : VSlot) (s : State) : Out := s.slotExec v.core (.vSieve v) "V_SIEVE" (Machine.actVSieve v)

/-- 64 empty entries into vd and vd + 1: R122. At VL = 0 it writes nothing (R110). -/
def Machine.actVSinit (v : VSlot) (s : State) : State :=
  if (s.core v.n).readVl = 0 then s else s.writeList v.n v.vd 4 (v.ty == 0) []

/-- `V_SINIT` as a command: R122. -/
def Machine.execVSinit (v : VSlot) (s : State) : Out := s.slotExec v.core (.vSinit v) "V_SINIT" (Machine.actVSinit v)

/-- VL ← min(s[rs], E); s[rd] ← new VL: R109, R114. -/
def Machine.actVSetvl (v : VSlot) (s : State) : State :=
  let vl := min ((s.core v.n).readS v.rs).toNat (2048 / tyWidth v.ty)
  (s.writeVl v.n 1 vl).writeS v.n v.rd 1 (BitVec.ofNat 64 vl)

/-- `V_SETVL` as a command: R114. -/
def Machine.execVSetvl (v : VSlot) (s : State) : Out := s.slotExec v.core (.vSetvl v) "V_SETVL" (Machine.actVSetvl v)

/-- s[rd] ← VL as this row sees it: R109, R114. -/
def Machine.actVGetvl (v : VSlot) (s : State) : State :=
  s.writeS v.n v.rd 4 (BitVec.ofNat 64 (s.core v.n).readVl)

/-- `V_GETVL` as a command: R114. -/
def Machine.execVGetvl (v : VSlot) (s : State) : Out := s.slotExec v.core (.vGetvl v) "V_GETVL" (Machine.actVGetvl v)

/-- A vector load in one of four address forms: R112. DESIGN CHOICE: where a LAX load lets it meet a port that is still occupied, it runs as
ever (entry 53). -/
def Machine.actVLd (v : VSlot) (s : State) : State :=
  let c := s.core v.n
  s.writeElems v.n v.vd v.loadLat (tyWidth v.ty)
    ((v.active c (v.memCount c) id).map (fun i => (i, v.loadElem s c i)))

/-- `V_LD` as a command: R112. -/
def Machine.execVLd (v : VSlot) (s : State) : Out := s.slotExec v.core (.vLd v) "V_LD" (Machine.actVLd v)

/-- A vector store of the active elements: R112. DESIGN CHOICE: of elements that share bytes (stride 0), the highest active index remains, and a
port that is still occupied in a LAX load changes nothing (entry 53). -/
def Machine.actVSt (v : VSlot) (s : State) : State :=
  let c := s.core v.n
  let w := tyWidth v.ty
  let es := (v.active c (v.memCount c) id).map (fun i => ((v.elemAddr c i).toNat, leBytes (w / 8) (v.a c i)))
  (joinBytes es).foldl (fun s e => s.store v.n e.1 v.storeLat e.2) s

/-- `V_ST` as a command: R112. -/
def Machine.execVSt (v : VSlot) (s : State) : Out := s.slotExec v.core (.vSt v) "V_ST" (Machine.actVSt v)

/-- The action of a V-slot operation in a row or in a cable's epilogue; nothing for any other command. -/
def Machine.actV (i : Instr) (s : State) : State :=
  match i with
  | .vAdd v => Machine.actVAdd v s
  | .vSub v => Machine.actVSub v s
  | .vMul v => Machine.actVMul v s
  | .vFma v => Machine.actVFma v s
  | .vFnma v => Machine.actVFnma v s
  | .vWfma v => Machine.actVWfma v s
  | .vMin v => Machine.actVMin v s
  | .vMax v => Machine.actVMax v s
  | .vAbs v => Machine.actVAbs v s
  | .vNeg v => Machine.actVNeg v s
  | .vAnd v => Machine.actVAnd v s
  | .vOr v => Machine.actVOr v s
  | .vXor v => Machine.actVXor v s
  | .vShl v => Machine.actVShl v s
  | .vShr v => Machine.actVShr v s
  | .vSra v => Machine.actVSra v s
  | .vPopc v => Machine.actVPopc v s
  | .vIota v => Machine.actVIota v s
  | .vSel v => Machine.actVSel v s
  | .vCeq v => Machine.actVCeq v s
  | .vClt v => Machine.actVClt v s
  | .vCle v => Machine.actVCle v s
  | .mAnd v => Machine.actMAnd v s
  | .mOr v => Machine.actMOr v s
  | .mXor v => Machine.actMXor v s
  | .mAndn v => Machine.actMAndn v s
  | .vCvt v => Machine.actVCvt v s
  | .vCvtbs v => Machine.actVCvtbs v s
  | .vExp v => Machine.actVExp v s
  | .vLog v => Machine.actVLog v s
  | .vRcp v => Machine.actVRcp v s
  | .vRsqrt v => Machine.actVRsqrt v s
  | .vTanh v => Machine.actVTanh v s
  | .vErf v => Machine.actVErf v s
  | .vCompress v => Machine.actVCompress v s
  | .vExpand v => Machine.actVExpand v s
  | .vRedsum v => Machine.actVRedsum v s
  | .vRedmax v => Machine.actVRedmax v s
  | .vRedmin v => Machine.actVRedmin v s
  | .vSieve v => Machine.actVSieve v s
  | .vSinit v => Machine.actVSinit v s
  | .vSetvl v => Machine.actVSetvl v s
  | .vGetvl v => Machine.actVGetvl v s
  | .vLd v => Machine.actVLd v s
  | .vSt v => Machine.actVSt v s
  | _ => s

end Sys2Proof
end

