-- ==== Sys2Proof/Machine/Cable.lean ====
section
/-!
DEFINITION. Cable commands (R159 to R166): the start, the units of the four stages, and the completion.
-/

namespace Sys2Proof.Machine

/-- A cable starts with what its header names; its completion, and its stage descriptors' ACKED signals, will also cover the writes
outstanding now in their scopes: R159, R161, R163, R448. -/
def actCableRun (d : DSlot) (s : State) : State :=
  let n := d.core.toNat
  match s.parseCable n (d.descAddr (s.core n)) with
  | none => s
  | some k =>
    let covers := s.outbound n 0
    let load := s.outbound n k.load.scope
    let store := s.outbound n k.store.scope
    let (id, s) := s.fresh
    s.modCore n (fun c => { c with cable := some { k with id := id, covers := covers, loadCovers := load, storeCovers := store } })

/-- `CABLE_RUN` as a command: R159. -/
def execCableRun (d : DSlot) (s : State) : Out := s.slotExec d.core (.cableRun d) "CABLE_RUN" (actCableRun d)

/-! ### Rings -/

/-- Slot number `q` of a ring has been filled: R160. -/
def Ring.ready (r : Ring) (q : Nat) : Bool := decide (q < r.filled)
/-- Slot number `q` of a ring is free: R160. -/
def Ring.free (r : Ring) (q : Nat) : Bool := decide (q < r.freed + r.slots)

/-- Whether a stage has done all its units: R160, R161. -/
def Cable.stageDone (k : Cable) (stage : Nat) : Bool :=
  match stage with
  | 0 => !k.has 0 || k.loadU == k.load.iterations
  | 1 => !k.has 1 || k.arrU == k.passes
  | 2 => !k.has 2 || k.epiU == k.chunks
  | _ => !k.has 3 || k.stoU == k.store.iterations

/-- Whether the ring slots that a stage's next unit needs are filled and free: R160. -/
def Cable.canStart (k : Cable) (stage : Nat) : Bool :=
  match stage with
  | 0 => k.ringA.free k.loadU
  | 1 => (!k.has 0 || k.ringA.ready k.arrU) && (k.arrU % k.tileDesc.kc != 0 || k.ringB.free (k.arrU / k.tileDesc.kc))
  | 2 =>
    k.epiRing.ready (k.epiU / (k.epiRing.slot / k.epiIn)) && k.ringC.free (k.epiU / (k.ringC.slot / k.epiOut))
  | _ => k.lastRing.ready k.stoU

/-! ### Load and store -/

/-- The load stage starts its next iteration: its bursts are to be sent for the slot (R154, R160). -/
def State.cableLoad (s : State) (n : Nat) (k : Cable) : State :=
  s.modCable n (fun c => { c with loadU := c.loadU + 1, toLoad := c.toLoad ++ Cable.unitBursts k.load false (k.ringA.at k.loadU) k.loadU })

/-- The store stage starts to drain one slot: its bursts are to be sent to their homes (R154, R160). -/
def State.cableStore (s : State) (n : Nat) (k : Cable) : State :=
  s.modCable n (fun c => { c with stoU := c.stoU + 1, toStore := c.toStore ++ Cable.unitBursts k.store true (k.lastRing.at k.stoU) k.stoU })

/-! ### Array -/

/-- The X row of the pass that fills slot number `q`, or that R68 and R446 place without a load: R160, R161. -/
def State.cableRow (s : State) (n : Nat) (k : Cable) (t : TileDesc) (q kc w i : Nat) : XRow :=
  if k.has 0 then
    let x := s.xRow n 0 t.xFmt (k.ringA.at q + t.xBase + i * t.xStride) (s.cycle n)
    (x.1.take (t.k - 128 * kc) ++ List.replicate (128 - (t.k - 128 * kc)) 0, x.2)
  else s.tileRow n 0 t { x := t.xBase, s := t.sBase, o := 0 } kc (256 * w + i) (s.cycle n)

/-- The array stage runs its next pass; after the last pass of an output block the block goes to its slot of ring B (R160,
R161, R164, R166). -/
def State.cablePass (s : State) (n : Nat) (k : Cable) : State :=
  let t := k.tileDesc
  let q := k.arrU
  let kc := q % t.kc
  let block := q / t.kc
  let nc := block / t.w
  let w := block % t.w
  let m := t.winRows w
  let bits := xBits t.xFmt
  let plane := s.readPlane n 0 (t.planeAddr { x := t.xBase, s := t.sBase, o := 0 } nc kc false) t.sFmt (s.cycle n) false
  let p : PassIn := { plane := some plane, xFmt := t.xFmt, shift8 := false, cols := min 512 (t.n - 512 * nc),
                      rows := (List.range m).map (fun i => s.cableRow n k t q kc w i) }
  let s := s.readWeak n ((if k.has 0 then [(k.ringA.at q, k.ringA.slot)] else [t.xSpan ⟨t.xBase, t.sBase, 0⟩]) ++
    [(t.planeAddr { x := t.xBase, s := t.sBase, o := 0 } nc kc false, sTileBytes t.sFmt)])
  let f := (List.range m).foldl (fun f i => f.row n bits i (i * bits)) { s := s, since := k.since ++ [p] : Fold }
  let s := (f.s.modP n (fun x => { x with ovf := x.ovf.filter (fun e => !decide (e < m)) })).modCore n (fun c =>
    { c with mx := { c.mx.close.count f.seqs.length 0 0 0 with
               active := some plane, back := c.mx.active,
               mon := { c.mx.mon with rescales := satAdd (top 16) c.mx.mon.rescales f.seqs.length,
                                      satCount := satAdd (top 32) c.mx.mon.satCount (if t.mon then overflows f.seqs else 0) } },
             cablePasses := satAdd (top 24) c.cablePasses 1 })
  let last := kc + 1 = t.kc
  let s := if last then
      (List.range m).foldl (fun s i =>
        let (s, bs) := s.outData n i { work := 0, mode := t.out, sh := t.sh, add := false, addr := 0, readAt := 0,
                                       mon := if t.mon then p.cols else 0 } []
        s.bufWrite n (k.ringB.at block + t.oBase + i * 512 * outBytes t.out) bs) s
    else s
  s.modCable n (fun k =>
    { k with arrU := k.arrU + 1, since := if last then [] else f.since,
             ringA := if k.has 0 then { k.ringA with freed := k.ringA.freed + 1 } else k.ringA,
             ringB := if last then { k.ringB with filled := k.ringB.filled + 1 } else k.ringB })

/-! ### Epilogue -/

/-- Writes of the epilogue that are still in flight land, in the order of their cycles: R162. -/
def State.landEpi (s : State) (n : Nat) (ps : List Pend) : State :=
  (List.range (maxN (ps.map (fun p => p.due)) + 1)).foldl (fun s d =>
    (ps.filter (fun p => p.due == d)).foldl (fun s p => s.land n p.dst) s) s

/-- The epilogue has nothing in flight any longer: a gap lies behind its last run, or its cable is complete (R162). -/
def State.settleEpi (s : State) (n : Nat) : State :=
  (s.landEpi n ((s.core n).cable.elim [] (fun k => k.epiPipe))).modCable n (fun k => { k with epiPipe := [] })

/-- The base an operation of the epilogue names, as one of the registers s1 to s3 that hold them for the run: R162. -/
def epiOp : Instr → Instr
  | .vLd v => .vLd { v with ab := v.ab + 1 }
  | .vSt v => .vSt { v with ab := v.ab + 1 }
  | i => i

/-- The claimed pipe executes one operation of the epilogue a cycle, and a write is seen its latency later: R27, R162. -/
def State.epiRun (s : State) (n : Nat) (prog : List Instr) : State :=
  prog.foldl (fun s i =>
    let s := s.landDue n (s.cycle n) (fun _ => true)
    (actV (epiOp i) (s.readWeak n (s.portSpans n (epiOp i)))).modCore n (fun c => { c with drained := c.drained + 1 })) s

/-- Whether a write goes to the core's buffers. -/
def Dest.isBytes : Dest → Bool
  | .bytes _ _ _ => true
  | _ => false

/-- The epilogue runs its program on the next chunk, with its own element count and bases. Register writes at its end go on into the next run,
which follows with no gap; its stores are visible before its chunk counts (R160, R162, R166). -/
def State.cableChunk (s : State) (n : Nat) (k : Cable) : State :=
  let cIn := k.epiRing.slot / k.epiIn
  let cOut := k.ringC.slot / k.epiOut
  let src := k.epiRing.at (k.epiU / cIn) + k.epiU % cIn * k.epiIn
  let dst := k.ringC.at (k.epiU / cOut) + k.epiU % cOut * k.epiOut
  let c := s.core n
  let s := s.modCore n (fun c =>
    { c with pipe := k.epiPipe.map (fun p => { p with due := p.due + s.cycle n }), vlChk := some k.epiVl,
             sChk := [(1, BitVec.ofNat 64 src), (2, BitVec.ofNat 64 dst), (3, BitVec.ofNat 64 k.constBase)] })
  let s := s.epiRun n k.prog
  let left := (s.core n).pipe
  let now := s.cycle n
  let s := (left.filter (fun p => p.dst.isBytes)).foldl (fun s p => s.land n p.dst) s
  let s := s.modCore n (fun x =>
    { x with pipe := c.pipe, vlChk := c.vlChk, sChk := c.sChk, chkOld := c.chkOld, drained := c.drained, cableChunks := wrap 32 (x.cableChunks + 1) })
  s.modCable n (fun k =>
    let k := if (k.epiU + 1) % cIn = 0 then k.freeEpi else k
    { k with epiU := k.epiU + 1,
             epiPipe := (left.filter (fun p => !p.dst.isBytes)).map (fun p => { p with due := p.due - now }),
             ringC := if (k.epiU + 1) % cOut = 0 then { k.ringC with filled := k.ringC.filled + 1 } else k.ringC })

/-! ### The events -/

/-- A stage starts its next unit, and is in flight with it, once the ring slots it needs are filled or free, and waits inside the cable till
then: R160, R166, R193. -/
def execCableStageUnit (core : CoreId) (stage : BitVec 2) (s : State) : Out :=
  let n := core.toNat
  let i := stage.toNat
  match (s.core n).cable with
  | none => done s s
  | some k =>
    let bit := 2 ^ i
    let quiet := k.waiting - (if k.waiting.testBit i then bit else 0)
    if k.stageDone i then done s s
    else if !k.canStart i then
      done s ((if i = 2 then s.settleEpi n else s).modCable n (fun k => { k with waiting := quiet + bit }))
    else
      let s' := (s.modCable n (fun k => { k with waiting := quiet })).stir n
      done s (match i with
        | 0 => s'.cableLoad n k
        | 1 => s'.cablePass n k
        | 2 => s'.cableChunk n k
        | _ => s'.cableStore n k)

/-- Bursts of a cable's load stage still to be sent or under way. -/
def State.cableLoads (s : State) (n : Nat) : Bool :=
  (s.core n).cable.any (fun k => !k.toLoad.isEmpty) || s.flight.any (fun x => match x.origin with
    | .cableLoad m _ => m == n
    | _ => false)

/-- Pips of an active cable command: its engines and its streaming stages (R289). -/
def cablePips (k : Cable) : Nat :=
  (if k.has 1 then 52 + 4 * k.tileDesc.g else 0) + (if k.has 2 then 6 else 0) + (if k.has 0 || k.has 3 then 2 else 0)

/-- Pips that a core keeps while it lends: R294. -/
def Core.keepPips (c : Core) : Nat :=
  match c.cable with
  | some k => 2 + cablePips k
  | none => 2

/-- A core lends what it does not keep to its panel's pool, or lends more when it keeps less: R294. -/
def State.lendPips (s : State) (n : Nat) : State :=
  let c := s.core n
  let lent := c.allot - c.keepPips
  (s.modCore n (fun c => { c with lent := lent, keep := c.keepPips })).modPanel (n / 32)
    (fun x => { x with pool := x.pool + lent - c.lent })

/-- The queues whose entries a running cable gives back: R163. -/
def Cable.queueList (k : Cable) : List Nat :=
  (if k.has 0 then [field k.queues 1 0] else []) ++ (if k.has 3 then [field k.queues 3 2] else [])

/-- The cable completes once every stage has done all its units and its writes are acknowledged: it releases what it
owns, its stages' descriptors count as completed, and done_val is added to done_tally (R150, R153, R163, R165, R182, R448). -/
def execCableComplete (core : CoreId) (s : State) : Out :=
  let n := core.toNat
  match (s.core n).cable with
  | none => done s s
  | some k =>
    if !((List.range 4).all k.stageDone) || !k.toStore.isEmpty || k.unacked != 0 || s.cableLoads n then done s s
    else
      let s' := (s.settleEpi n).modCore n (fun c => { c with
        cable := none, dmaDone := k.queueList.foldl (fun d q => mset d q (wrap 32 (mget 0 d q + 1))) c.dmaDone }.acked k.id)
      let s' := if (s'.core n).lent ≠ 0 then s'.lendPips n else s'
      done s (s'.release n (tallyAddr n k.doneTally) k.doneVal k.covers (.cable n))

end Sys2Proof.Machine
end

