-- ==== Sys2Proof/Machine/Fifo.lean ====
section
/-!
DEFINITION. The word FIFOs (R210 to R216).
-/

namespace Sys2Proof.Machine

/-- A FIFO of a core: R210. -/
def Core.fifo (c : Core) (f : Nat) : Fifo := mget {} c.fifos f
/-- Change a FIFO of a core. -/
def Core.modFifo (c : Core) (f : Nat) (g : Fifo → Fifo) : Core := { c with fifos := mset c.fifos f (g (c.fifo f)) }

/-- VALID: R210. -/
def wordValid : BitVec 64 := 1 <<< 63
/-- END: R210. -/
def wordEnd : BitVec 64 := 1 <<< 62
/-- POISON: R210, R215. -/
def wordPoison : BitVec 64 := 1 <<< 61

/-- The core a push goes to: R212. -/
def fifoOwner (b : BSlot) : Nat := 32 * (b.core.toNat / 32) + b.bits 7 3

/-- Cycles over the tally network: 1 within a core, 8 to another of the panel (R213). -/
def fifoDelay (a b : Nat) : Nat := if a = b then 1 else 8

/-- A push takes one of the writer's credits as its row passes the check stage: R213. -/
def passFifoPush (b : BSlot) (s : State) : State :=
  s.modCore (fifoOwner b) (fun c => c.modFifo (b.bits 2 0) (fun q => { q with credits := q.credits - 1 }))

/-- A word is pushed into a user FIFO and enters flight; rows of the cycle after it arrives find it (R193, R212 to R214). -/
def actFifoPush (b : BSlot) (s : State) : State :=
  let n := b.core.toNat
  let o := fifoOwner b
  let f := b.bits 2 0
  let w := (((s.core n).readS b.cnt).extractLsb' 0 56).setWidth 64 ||| (BitVec.ofNat 64 (n % 32) <<< 56) |||
    wordValid ||| (if b.bits 8 8 = 1 then wordEnd else 0)
  (s.pend o [⟨s.cycle o + fifoDelay n o + 1, .fifoWord o f w⟩]).stir n

/-- `FIFO_PUSH` as a command: R213. -/
def execFifoPush (b : BSlot) (s : State) : Out := s.slotExec b.core (.fifoPush b) "FIFO_PUSH" (fun s => actFifoPush b (passFifoPush b s))

/-- The head word is popped, or 0 from an empty FIFO; a word that fails parity leaves with POISON set, is recorded, and
marks its task for replay (R212 to R216). -/
def actFifoPop (b : BSlot) (parityOk : Bool) (s : State) : State :=
  let n := b.core.toNat
  let f := b.bits 2 0
  let q := (s.core n).fifo f
  match q.words with
  | [] => s.writeS n b.dst 2 0
  | w :: ws =>
    let parityOk := parityOk && q.parity.head?.all (fun b => b == wordParity w)
    let w := if parityOk then w else w ||| wordPoison
    let s := s.writeS n b.dst 2 w
    let s := s.modCore n (fun c => c.modFifo f (fun q =>
      { q with words := ws, parity := q.parity.drop 1, popped := wrap 32 (q.popped + 1),
               poisoned := satAdd (top 16) q.poisoned (b2n (!parityOk)) }))
    let s := match q.writer with
      | some v => (s.pend v [⟨s.cycle v + fifoDelay n v, .credit n f⟩]).stir v
      | none => s
    if parityOk then s
    else
      let t := (s.core n).task.getD 0
      (s.emit 0x0063 (s.physOf n) (leBytes 4 t ++ leBytes 1 f ++ leBytes 8 w.toNat)).modTask t (fun k =>
        { k with poisoned := true })

/-- `FIFO_POP` as a command: R214. -/
def execFifoPop (b : BSlot) (parityOk : Bool) (s : State) : Out :=
  s.slotExec b.core (.fifoPop b parityOk) "FIFO_POP" (actFifoPop b parityOk)

/-- Words and packets held by an own FIFO, as a pop of the same cycle would find them: R212, R214. -/
def actFifoStat (b : BSlot) (s : State) : State :=
  let q := (s.core b.core.toNat).fifo (b.bits 2 0)
  s.writeS b.core.toNat b.dst 2 (BitVec.ofNat 64 (q.words.length + 2 ^ 32 * q.packets))

/-- `FIFO_STAT` as a command: R212. -/
def execFifoStat (b : BSlot) (s : State) : Out := s.slotExec b.core (.fifoStat b) "FIFO_STAT" (actFifoStat b)

/-- The firmware writes a job word: VALID forced to 1, POISON to 0, and source 0. A write to a user FIFO ends the task (R210, R211,
R216). It writes only while there is space. -/
def execFifoDataWrite (core : CoreId) (fifo : Nat) (word : Word) (s : State) : Out :=
  let n := core.toNat
  if fifo ≠ 0 then done s (s.programFault n 216 (0xF10500 + 32 * fifo))
  else if ((s.core n).fifo 0).words.length < 32 then
    let w := (word ||| wordValid) &&& ~~~ (wordPoison ||| 0x1F <<< 56)
    done s (s.modCore n (fun c => c.modFifo 0 (fun q => { q with words := q.words ++ [w], parity := q.parity ++ [wordParity w] })))
  else done s s

end Sys2Proof.Machine
end

