-- ==== Sys2Proof/Machine/Scorebook.lean ====
section
/-!
DEFINITION. The scorebook controller (R410 to R418, R438): records and their slots, the allowance and the queue, chaining and
checkpoints, reading, and the debug pins.
-/

namespace Sys2Proof.Machine

/-! ### Records -/

/-- The slot of a sequence number: the pinned region, then the wrapping region: R412. -/
def bookSlot (seq : Nat) : Nat := if seq < 4096 then seq else 4096 + (seq - 4096) % 520192

/-- A record of 64 bytes: R411. -/
def recordBytes (seq gt : Nat) (e : Event) (part parts : Nat) : List Byte :=
  leBytes 6 seq ++ leBytes 2 e.code ++ leBytes 8 gt ++ leBytes 2 e.source ++ leBytes 1 (part + 16 * (parts - 1)) ++ [0] ++
    padTo 44 (slice e.data (44 * part) 44)

/-- Records of an event: R411. -/
def Event.parts (e : Event) : Nat := max 1 ((e.data.length + 43) / 44)

/-- The records of an event from a sequence number on: R411. -/
def Event.records (e : Event) (seq gt : Nat) : List (List Byte) :=
  (List.range e.parts).map (fun i => recordBytes (seq + i) gt e i e.parts)

/-- The sequence number that a record carries: R411. -/
def recordSeq (r : List Byte) : Nat := leAt r 0 6

/-- Event code of CHECKPOINT: R416. -/
def codeCheckpoint : Nat := 4

/-- The 16 bytes of the module serial: R391, R414. -/
def serialBytes : List Byte := (List.range 16).map Config.serialByte

/-! ### Chaining -/

/-- The records of the device that hold their own sequence number, and those still queued: R417. -/
def Scorebook.all (b : Scorebook) : List (List Byte) := b.slots.map (fun e => e.2) ++ b.queue

/-- The event records of block `k` from its start to `last`, in order: R414. -/
def Scorebook.blockRecords (b : Scorebook) (k last : Nat) : List (List Byte) :=
  ((List.range 253).map (fun i => 256 * k + i)).filterMap (fun q =>
    if q ≤ last then b.all.find? (fun r => recordSeq r == q) else none)

/-- The chain of block `k`: R414. -/
def Scorebook.chain (b : Scorebook) (k last : Nat) : Hash :=
  (b.blockRecords k last).foldl (fun c r => sha384 (hashBytes c ++ r))
    (sha384 ([0x50, 0x4C, 0x53, 0x42] ++ leBytes 8 (256 * k) ++ serialBytes))

/-- The checkpoint of block `k`, its three records in the last three places: R414. -/
def Scorebook.checkpoint (b : Scorebook) (k last gt : Nat) (unsigned late early : Bool) : List (List Byte) :=
  let sig := if unsigned then zeros 96 else beBytes 96 (Config.sign 0 (b.chain k last)).toNat
  (List.range 3).map (fun j =>
    let data := slice sig (32 * j) 32 ++ [BitVec.ofNat 8 (b2n unsigned + 2 * b2n late + 4 * b2n early)] ++ zeros 3 ++ leBytes 6 last
    leBytes 6 (256 * k + 253 + j) ++ leBytes 2 codeCheckpoint ++ leBytes 8 gt ++ leBytes 2 srcBook ++ leBytes 1 (j + 32) ++ [0] ++
      padTo 44 data)

/-- The block in progress is closed: R414, R415. -/
def Scorebook.close (b : Scorebook) (gt : Nat) (unsigned early : Bool) : Scorebook :=
  let k := b.nextSeq / 256
  { b with queue := b.queue ++ b.checkpoint k (b.nextSeq - 1) gt unsigned false early, nextSeq := 256 * (k + 1) }

/-- A block is closed early where the records of the next event would not fit before its checkpoint: R411, R415. -/
def Scorebook.makeRoom (b : Scorebook) (n gt : Nat) (unsigned : Bool) : Scorebook :=
  if b.nextSeq % 256 + n ≤ 253 then b else b.close gt unsigned true

/-- An event is accepted whole; a full block is closed: R411, R413, R415. -/
def Scorebook.add (b : Scorebook) (e : Event) (gt : Nat) (unsigned : Bool) : Scorebook :=
  let b := b.makeRoom e.parts gt unsigned
  let b := { b with queue := b.queue ++ e.records b.nextSeq gt, nextSeq := b.nextSeq + e.parts, allowance := b.allowance - e.parts }
  if b.nextSeq % 256 = 253 then b.close gt unsigned false else b

/-- Event slots of the queue: three are kept for checkpoint records: R413. -/
def eventSlots : Nat := 253

/-- The controller takes one event: whole, after a RECORDS_DROPPED where it owes one, or it drops it (R413). -/
def Scorebook.offer (b : Scorebook) (e : Event) (gt : Nat) (unsigned : Bool) : Scorebook :=
  let need := e.parts + (if b.owed = 0 then 0 else 1)
  if b.allowance < need ∨ eventSlots < b.queue.length + need then
    { b with dropped := satAdd (2 ^ 16 - 1) b.dropped 1, owed := b.owed + 1 }
  else
    let b := if b.owed = 0 then b
      else { b.add { code := 3, source := srcBook, data := leBytes 4 b.owed } gt unsigned with owed := 0 }
    b.add e gt unsigned

/-- Every record of the queue reaches the MRAM: R412, R413. -/
def Scorebook.flush (b : Scorebook) : Scorebook :=
  { b with queue := [], slots := b.queue.foldl (fun m r => mset m (bookSlot (recordSeq r)) r) b.slots }

/-- The controller takes every event offered so far. -/
def Scorebook.takeAll (b : Scorebook) (gt : Nat) (unsigned : Bool) : Scorebook :=
  b.offered.foldl (fun b e => b.offer e gt unsigned) { b with offered := [] }

/-! ### Power -/

/-- The auxiliary rail fails: what was offered is taken, POWER_LOSS follows with the number of records queued, the block is closed
early, and everything reaches the MRAM (R415). -/
def Scorebook.powerLoss (b : Scorebook) (gt : Nat) (unsigned : Bool) : Scorebook :=
  let b := b.takeAll gt unsigned
  let b := b.add { code := 2, source := srcBook, data := leBytes 2 b.queue.length } gt unsigned
  let b := if b.nextSeq % 256 = 0 then b else b.close gt unsigned true
  { b.flush with paused := false }

/-- The largest sequence number in the array, if any: R415. -/
def Scorebook.newest (b : Scorebook) : Option Nat :=
  match b.slots with
  | [] => none
  | e :: es => some (es.foldl (fun m x => max m (recordSeq x.2)) (recordSeq e.2))

/-- Auxiliary power returns: a block without a checkpoint gets a late one, and the next block begins (R415). -/
def Scorebook.powerOn (b : Scorebook) (gt : Nat) (unsigned : Bool) : Scorebook :=
  let b := { b with dropped := 0, owed := 0, late := 0, allowance := 256, allowTick := 0, queue := [], offered := [], paused := false }
  match b.newest with
  | none => b
  | some q =>
    let k := q / 256
    if q % 256 = 255 then { b with nextSeq := 256 * (k + 1) }
    else
      let b := { b with queue := b.checkpoint k (min q (256 * k + 252)) gt unsigned true (decide (q % 256 < 252)) }
      { b.flush with nextSeq := 256 * (k + 1), late := 1 }

/-! ### Reading -/

/-- The lowest held sequence number that is at least `s`: R417. -/
def Scorebook.nextHeld (b : Scorebook) (s : Nat) : Option (Nat × List Byte) :=
  b.slots.foldl (fun a e =>
    let q := recordSeq e.2
    if q < s ∨ bookSlot q ≠ e.1 then a
    else match a with
      | some x => if q < x.1 then some (q, e.2) else a
      | none => some (q, e.2)) none

/-- At most `n` held records from sequence `s` up: R417. -/
def Scorebook.read (b : Scorebook) (s : Nat) : Nat → List (List Byte)
  | 0 => []
  | n + 1 => match b.nextHeld s with
    | some (q, r) => r :: Scorebook.read b (q + 1) n
    | none => []

/-! ### Commands -/

/-- Whether the auxiliary rail keeps the controller running: R410, R428. -/
def State.controllerOn (s : State) : Bool := s.boot.aux

/-- The controller takes the next event offered, or drops it, and writes its queue unless a debug reader holds it (R413, R438). -/
def execRecordWrite (s : State) : Out :=
  if !s.controllerOn then done s s
  else
    let b := s.book
    let b' := match b.offered with
      | [] => b
      | e :: es => { b with offered := es }.offer e s.clock.gt s.boot.noIdentity
    done s { s with book := if b'.paused then b' else b'.flush }

/-- A debug reader asserts DBG_REQ#: the controller pauses and raises DBG_RDY. It is ignored without
auxiliary power (R438). -/
def execDbgReq (s : State) : Out :=
  if !s.controllerOn || s.mgmt.dbgReq then done s s
  else done s ((s.modBook (fun b => { b with paused := true })).modMgmt
    (fun m => { m with dbgReq := true, dbgRdy := true, dbgIgnored := false }))

/-- DBG_REQ# is released: writing resumes (R438). -/
def execDbgReqRelease (s : State) : Out :=
  if !s.mgmt.dbgReq then done s s
  else done s ((s.modBook (fun b => { b with paused := false })).modMgmt
    (fun m => { m with dbgReq := false, dbgRdy := m.vref && !s.boot.aux, dbgIgnored := false }))

/-- DBG_REQ# has stood for 1 ms after DBG_RDY: the controller drops DBG_RDY and writes again (R438). -/
def execDbgReqTimeout (s : State) : Out :=
  if !s.mgmt.dbgReq || !s.mgmt.dbgRdy then done s s
  else done s ((s.modBook (fun b => { b with paused := false })).modMgmt (fun m => { m with dbgRdy := false, dbgIgnored := true }))

/-- DBG_VREF rises or falls: without auxiliary power it connects the MRAM to the header and raises DBG_RDY (R438). -/
def execDbgVref (on : Bool) (s : State) : Out :=
  done s (s.modMgmt (fun m => { m with vref := on, dbgRdy := if s.boot.aux then m.dbgRdy else on }))

end Sys2Proof.Machine
end

