-- ==== Sys2Proof/Machine/Regs.lean ====
section
/-!
DEFINITION. Module register space: what each register reads as, put together from the state (R256, R264, R283 to R285, R298, R306,
R310, R343, R344, R385, R401, R419), and writes of its RW fields (R8, R264, R283, R310).
-/

namespace Sys2Proof.Machine

/-- An 8-bit or 16-bit signed field. -/
def signed (w : Nat) (i : Int) : Nat := wrapN w i

/-- The clamp of a written value. -/
def clamp (lo hi v : Nat) : Nat := min hi (max lo v)

/-! ### Units -/

/-- Whether nothing of a unit is in flight and no task uses it: R385, R387. -/
def State.coreIdle (s : State) (p : Nat) : Bool :=
  match s.logicalOf p with
  | none => true
  | some n =>
    let c := s.core n
    c.queues.all (fun q => q.2.isEmpty) && c.short.isEmpty && c.cable.isNone && c.rels.isEmpty &&
      c.sends.all (fun e => e.2.queue.isEmpty) && !s.flight.any (fun x => x.origin.byCores [n])

/-- Whether a live task uses an HBM channel, by its pattern's ranges, or a transaction is on its way to it: R385. -/
def State.channelBusy (s : State) (c : Nat) : Bool :=
  s.tasks.any (fun t => t.live && (s.pattern t.handle).any (fun p => p.man.channels.contains c)) ||
    s.flight.any (fun x => match s.txnPlace x with
      | .hbm a => hbmChannel a == c
      | .win _ _ | .remote | .bad => false)

/-- The idle flag of a unit: R385, R387, R388. A core's, a port's and a bay's flag also waits for what uses it, except while it drains. -/
def State.unitIdle (s : State) (u : Nat) : Bool :=
  let drains := (s.unit u).state == .draining
  let free (p : Nat) : Bool := s.coreIdle p && ((s.unit p).state == .draining || (s.taskOn p).isNone)
  if u < 288 then free u
  else if u < 296 then (List.range 36).all (fun i =>
    s.coreIdle (36 * (u - 288) + i) && (drains || free (36 * (u - 288) + i)))
  else if u < 808 then (s.channel (u - 296)).posted.isEmpty && !s.channelBusy (u - 296)
  else if u < 844 then
    let x := s.port (u - 808)
    x.unacked.isEmpty && (drains || (x.txQ.isEmpty && !s.flight.any (fun x => x.port == some (u - 808))))
  else drains || !(s.bay (u - 844)).target

/-- `UNIT_STATE_u`: R385. -/
def State.unitWord (s : State) (u : Nat) : Nat :=
  let e := s.unit u
  pack [(0, e.state.code), (3, b2n (s.unitIdle u)), (4, b2n e.pending.isSome), (5, b2n e.mgmt), (8, e.cause), (16, s.logicalCode u),
        (28, e.marks), (32, e.generation)]

/-! ### Registers by group -/

/-- `EPOCH`: R256. -/
def Clock.epochWord (c : Clock) : Nat := pack [(0, c.epoch), (48, b2n c.locked), (49, b2n c.holdover)]

/-- `TIME_STAT`: R256. -/
def Clock.statWord (c : Clock) : Nat :=
  pack [(0, signed 16 c.offset), (16, c.srcPort), (22, b2n c.isLead), (23, b2n c.twoHop), (24, c.unlockedEpochs), (32, c.slews),
        (48, signed 16 c.rate)]

/-- `FREQ_STAT_p`: R264. -/
def Panel.freqStat (x : Panel) : Nat :=
  pack [(0, x.cur), (8, x.req), (16, x.limit), (20, x.margin), (32, x.stretches), (48, x.commits)]

/-- `CAL_SUM`: R283. -/
def Calib.sumWord (c : Calib) : Nat := pack [(0, c.checks), (32, c.defers), (48, c.fails)]

/-- `CAL_HBM_g`: R284. -/
def Calib.hbmWord (c : Calib) (g : Nat) : Nat :=
  pack [(0, mget 0 c.recentres g), (24, mget 0 c.windows g), (48, mget 0 c.trainFails g), (56, mget 0 c.peakOcc g)]

/-- `CAL_LINK_p`: R285. -/
def Port.calWord (x : Port) : Nat :=
  pack [(0, x.spareFor), (4, b2n x.noSpare), (5, x.eyeLane), (8, x.eyeMin), (32, x.corrected)]

/-- `PANEL_PWR_p`: R298. -/
def Panel.pwrWord (x : Panel) : Nat :=
  pack [(0, x.pool), (16, x.activeAllot), (32, x.raised), (40, signed 8 x.tj), (48, x.reclaims)]

/-- `POWER_CAP`: R306. fit_total reads its reset value 0 until the first fit test (DESIGN CHOICE: entry 51). -/
def State.capWord (s : State) : Nat := pack [(0, s.power.cap), (16, if s.power.fitFormed then wrap 16 (s.fitTotal s.images) else 0)]

/-- `POWER_STAT`: R306. -/
def Power.statWord (p : Power) : Nat := pack [(0, p.inPips), (16, p.peakPips), (32, p.capEvents)]

/-- The hottest panel sensor of the last epoch: R306. -/
def State.panelMax (s : State) : Int :=
  (List.range 8).foldl (fun m p => max m (s.panel p).tj) (s.panel 0).tj

/-- `THERM_STAT`: R306. -/
def State.thermWord (s : State) : Nat :=
  pack [(0, signed 8 s.panelMax), (8, signed 8 s.power.hubMax), (16, signed 8 s.power.hbmMax), (24, signed 8 s.power.opticsMax),
        (32, s.power.throttles)]

/-- The code of a module state: R310. -/
def MState.code : MState → Nat
  | .serve => 0
  | .idle => 1
  | .standby => 2
  | .auxOnly => 3

/-- `MOD_STATE`: R310. -/
def Power.modWord (p : Power) : Nat :=
  pack [(0, p.state.code), (3, p.target.code), (8, p.lastCause), (16, p.idleMs), (32, p.transitions)]

/-- The code of a port's state: R343. -/
def LState.code : LState → Nat
  | .unused => 0
  | .down => 1
  | .train => 2
  | .up => 3
  | .retrain => 4
  | .failed => 5
  | .miswired => 6

/-- `LINK_STAT_p`: R343. -/
def Port.statWord (x : Port) : Nat :=
  pack [(0, x.state.code), (3, x.peerModule), (8, b2n x.peerSide), (9, x.peerPort), (15, b2n x.relay), (16, b2n x.spareActive),
        (32, x.retrains)]

/-- `LINK_CNT_p`: R343. -/
def Port.cntWord (x : Port) : Nat := pack [(0, x.replays), (32, x.crcErrors), (48, x.fecUncorr)]

/-- `CONFIG_STAT`: R344. -/
def State.confWord (s : State) : Nat :=
  let up (lo hi : Nat) : Nat := ((List.range 36).filter (fun p => lo ≤ p && p ≤ hi && (s.port p).state == .up)).length
  let c := s.config
  pack [(0, c.module), (5, b2n c.side), (6, c.n), (12, c.degree), (17, b2n c.formed), (18, b2n (decide (0 < up 31 35))),
        (19, up 0 30), (24, c.relayed.length), (32, c.formations)]

/-- `BOOT_STAT`: R401. -/
def Boot.statWord (b : Boot) : Nat :=
  pack [(0, b.step), (4, b.failStep), (8, b2n b.slotB), (9, b2n b.fallback), (16, b.svn), (32, b.bootMs), (48, b.boots)]

/-- `SB_STAT`: R419. -/
def Scorebook.statWord (b : Scorebook) : Nat := pack [(0, b.nextSeq), (48, b.dropped)]

/-- Lowest sequence held in the wrapping region, 4,096 while it holds none: R419. -/
def Scorebook.oldest (b : Scorebook) : Nat :=
  let seqs := (b.slots.filter (fun e => 4096 ≤ e.1)).map (fun e => recordSeq e.2)
  match seqs with
  | [] => 4096
  | q :: qs => qs.foldl min q

/-- `SB_SPAN`: R419. -/
def Scorebook.spanWord (b : Scorebook) : Nat := pack [(0, b.oldest), (48, b.late)]

/-! ### Reads and writes by address -/

/-- First address of module register space: R140, R256. -/
def modBase : Nat := 0x20000000000

/-- An index of an array of registers, `stride` bytes apart. -/
def regIndex (off base stride count : Nat) : Option Nat :=
  if base ≤ off ∧ off < base + stride * count ∧ (off - base) % stride = 0 then some ((off - base) / stride) else none

/-- Whether a register lies in the always-on domain: R305, R310, R401, R419. -/
def alwaysOn (off : Nat) : Bool := off == 0x3000 || off == 0x3018 || off == 0x6C00 || off == 0x7000 || off == 0x7008

/-- What a register of module register space reads as, by its offset; an offset that names none reads 0 (entry 10). -/
def State.modReg (s : State) (off : Nat) : Nat :=
  if off = 0x1000 then s.clock.gt % 2 ^ 32
  else if off = 0x1008 then s.clock.gtHi
  else if off = 0x1010 then s.clock.epochWord
  else if off = 0x1018 then s.clock.statWord
  else if off = 0x2000 then s.cal.wrInterval
  else if off = 0x2008 then s.cal.sumWord
  else if off = 0x3000 then s.capWord
  else if off = 0x3008 then s.power.statWord
  else if off = 0x3010 then s.thermWord
  else if off = 0x3018 then s.power.modWord
  else if off = 0x4400 then s.confWord
  else if off = 0x6C00 then s.boot.statWord
  else if off = 0x7000 then s.book.statWord
  else if off = 0x7008 then s.book.spanWord
  else match regIndex off 0x1100 8 8 with
    | some p => (s.panel p).freqStat
    | none => match regIndex off 0x1140 8 8 with
      | some p => ((s.panel p).ceilingNext).getD (s.panel p).ceiling
      | none => match regIndex off 0x2040 8 4 with
        | some g => s.cal.hbmWord g
        | none => match regIndex off 0x2100 8 36 with
          | some p => (s.port p).calWord
          | none => match regIndex off 0x3040 8 8 with
            | some p => (s.panel p).pwrWord
            | none => match regIndex off 0x4000 16 36 with
              | some p => (s.port p).statWord
              | none => match regIndex off 0x4008 16 36 with
                | some p => (s.port p).cntWord
                | none => match regIndex off 0x5000 8 846 with
                  | some u => s.unitWord u
                  | none => 0

/-- A read of `GT_LO` latches the upper half into `GT_HI`: R256. -/
def State.latchGt (s : State) : State := s.modClock (fun c => { c with gtHi := c.gt / 2 ^ 32 % 2 ^ 32 })

/-- A new ceiling waits for the first epoch mark after the panel's next task boundary; out of range it is clamped (R264). -/
def State.setCeiling (s : State) (p v : Nat) : State :=
  s.modPanel p (fun x => { x with ceilingNext := some (clamp 32 132 v), boundary := false })

/-- A new retraining interval: R283. -/
def State.setInterval (s : State) (v : Nat) : State := { s with cal := { s.cal with wrInterval := clamp 250 4000 v } }

/-- A new idle delay: R310. -/
def State.setIdleMs (s : State) (v : Nat) : State := s.modPower (fun x => { x with idleMs := clamp 1 60000 v })

/-- An accepted change of a setting is recorded: kind, path (0 command, 1 management) and value: R416, R426. -/
def State.mgmtChange (s : State) (kind path : Nat) (value : List Byte) : State :=
  s.emit 0x0016 srcCMB (leBytes 1 kind ++ leBytes 1 path ++ value)

/-- A ceiling, the retraining interval or the idle delay is set by the management path: R264, R283, R310, R426. -/
def State.mgmtCeiling (s : State) (p v : Nat) : State := (s.setCeiling p v).mgmtChange 5 1 (leBytes 4 (clamp 32 132 v))
/-- The retraining interval is set by the management path: R283, R426. -/
def State.mgmtInterval (s : State) (v : Nat) : State := (s.setInterval v).mgmtChange 6 1 (leBytes 4 (clamp 250 4000 v))
/-- The idle delay is set by the management path: R310, R426. -/
def State.mgmtIdleMs (s : State) (v : Nat) : State := (s.setIdleMs v).mgmtChange 4 1 (leBytes 4 (clamp 1 60000 v))

/-- The firmware reads `GT_LO`: R256. -/
def execGtLoRead (s : State) : Out := done s s.latchGt

/-- A write to a module register acts on its RW fields, and on nothing else: RO and reserved fields ignore it (R8, R9, R264, R283,
R310). -/
def execRegisterWrite (addr value : Word) (s : State) : Out :=
  let a := addr.toNat
  let v := value.toNat
  if a = modBase + 0x2000 then done s (s.mgmtInterval (field v 11 0))
  else if a = modBase + 0x3018 then done s (s.mgmtIdleMs (field v 31 16))
  else if a < modBase then done s s
  else match regIndex (a - modBase) 0x1140 8 8 with
    | some p => done s (s.mgmtCeiling p (field v 7 0))
    | none => done s s

/-- The operator writes a panel's ceiling: R264. -/
def execFreqCtlWrite (panel : PanelId) (value : Word) (s : State) : Out := done s (s.mgmtCeiling panel.toNat (field value.toNat 7 0))

/-- The operator writes the retraining interval: R283. -/
def execCalCtlWrite (value : Word) (s : State) : Out := done s (s.mgmtInterval (field value.toNat 11 0))

end Sys2Proof.Machine
end

