-- ==== Sys2Proof/Machine/Boot.lean ====
section
/-!
DEFINITION. What power and boot do as shared operations (R10, R303, R308, R309, R396 to R401, R428 to R433): module states, what a
loss of power or a reset keeps, image verification, the boot steps and the staged list.
-/

namespace Sys2Proof.Machine

/-! ### Module states -/

/-- The module enters a state; while a STANDBY request waits, its target is STANDBY: R308 to R310. -/
def State.enter (s : State) (st : MState) (cause : Nat) : State :=
  let target : MState := if s.power.standbyAsked ∧ st ≠ .auxOnly then .standby else st
  if s.power.state = st then s.modPower (fun p => { p with target := target })
  else s.modPower (fun p => { p with state := st, target := target, lastCause := cause, transitions := (p.transitions + 1) % 2 ^ 32 })

/-- Tasks that run or are queued: R308, R309. -/
def State.openCount (s : State) : Nat := (s.tasks.filter (fun t => t.live || t.state == .queued)).length

/-! ### Calibration sums -/

/-- Memory group of a channel: R284. -/
def chanGroup (c : Nat) : Nat := c / 128

/-- Gauge checks are counted: R283. -/
def Calib.check (c : Calib) (n : Nat) : Calib := { c with checks := satAdd (2 ^ 32 - 1) c.checks n }

/-- Re-centring decisions of a group are counted: R284. -/
def Calib.recentred (c : Calib) (g n : Nat) : Calib :=
  { c.check n with recentres := mset c.recentres g (satAdd (2 ^ 24 - 1) (mget 0 c.recentres g) n) }

/-- Retraining windows of a group are counted: R283, R284. -/
def Calib.windowed (c : Calib) (g n failed : Nat) : Calib :=
  { c.check n with windows := mset c.windows g (satAdd (2 ^ 24 - 1) (mget 0 c.windows g) n),
                   trainFails := mset c.trainFails g (satAdd 255 (mget 0 c.trainFails g) failed),
                   fails := satAdd (2 ^ 16 - 1) c.fails failed }

/-- The stacks leave self-refresh: every channel is to run one window and one re-centring decision before its first access (R277). -/
def State.leaveRefresh (s : State) : State := s.modCal (fun k => { k with exits := k.exits + 1 })

/-! ### Work -/

/-- Whether the CP runs, so that sessions may open and requests are handled: R397, R432. -/
def State.cpRuns (s : State) : Bool := 8 ≤ s.boot.rails

/-- Whether T runs, on the hub's rail: R251, R254, R432. -/
def State.tOn (s : State) : Bool := 2 ≤ s.boot.rails

/-! ### Estimates of GT -/

/-- One GT unit in the fixed point of an estimate: R255. -/
def gtOne : Nat := 2 ^ 32

/-- The clock of a region, in 12.5 MHz: R251, R260. The clocks of the panels stop in STANDBY (R308). -/
def State.regionRate (s : State) (r : Nat) : Nat :=
  if r < 8 then (if s.power.state = .standby then 0 else (s.panel r).cur)
  else if r = 8 then 160
  else if r < 13 then 128
  else if r < 19 then 140
  else if r = 19 then 100
  else if r = 20 then 160
  else if r = 21 then 32
  else 80

/-- The nominal increment of a region at a rate, GT units per cycle: R255. -/
def nominalInc (rate : Nat) : Nat := 160 * gtOne / rate

/-- A region whose clock starts takes GT as its estimate (DESIGN CHOICE: entry 50). -/
def Region.start (gt rate : Nat) : Region := { est := gt * gtOne, inc := nominalInc rate }

/-- Units of GT pass at a region: each of its cycles adds inc, a stretched one, of twice the period, 2 × inc (R255, R263, R297). -/
def Region.pass (x : Region) (rate units : Nat) (stretched : Bool) : Region :=
  let period := if stretched then 320 else 160
  let p := x.phase + rate * units
  { x with phase := p % period, est := x.est + p / period * (if stretched then 2 * x.inc else x.inc) }

/-- What a region estimates between two edges of its clock: the part of inc that its cycle in progress has run (R255). -/
def Region.now (x : Region) : Nat := x.est + x.phase * x.inc / 160

/-- A region resolves a mark to 1/16 of a unit, and sets inc to the nominal ratio of its clock from the mark on, with what removes the
error by the next mark added. At a commit, which changes the clock from `old` to `rate`, the cycle in progress goes on at the new length
(R255; DESIGN CHOICE: entry 50). A stopped clock keeps the estimate at GT. -/
def Region.resolve (x : Region) (gt old rate : Nat) : Region :=
  if rate = 0 then { x with est := gt * gtOne }
  else
    let e : Int := ((gt * gtOne : Nat) : Int) - x.now
    let err := e / 2 ^ 28 * 2 ^ 28
    { x with inc := ((nominalInc rate : Int) + err * 160 / (65536 * rate : Nat)).toNat,
             phase := if rate = old then x.phase else x.phase * rate / old }

/-- Whether a region's periods are doubled: R263, R297. -/
def State.stretches (s : State) (r : Nat) : Bool := decide (r < 8) && ((s.panel r).droop || (s.panel r).reclaimStretch)

/-- Units of GT pass at every region. -/
def State.passRegions (s : State) (units : Nat) : State :=
  s.modClock (fun c => { c with regions := ((List.range c.regions.length).zip c.regions).map (fun r =>
    r.2.pass (s.regionRate r.1) units (s.stretches r.1)) })

/-- Every region resolves the mark at a GT, whose commits have changed the clocks that `old` gives: R255. -/
def State.resolveMark (s : State) (gt : Nat) (old : Nat → Nat) : State :=
  s.modClock (fun c => { c with regions := ((List.range c.regions.length).zip c.regions).map (fun r =>
    r.2.resolve gt (old r.1) (s.regionRate r.1)) })

/-- The panels' clocks start again after STANDBY: their estimates take GT, and VPp is back at the voltage of the code in force (R255, R300,
R308; DESIGN CHOICE: entry 50). -/
def State.startPanels (s : State) : State :=
  let s := s.modClock (fun c => { c with regions := ((List.range c.regions.length).zip c.regions).map (fun r =>
    if r.1 < 8 then Region.start c.gt (s.panel r.1).cur else r.2) })
  (List.range 8).foldl (fun s p => s.modPanel p (fun x => { x with vset := some x.cur, settled := x.cur })) s

/-- Work arrives: the module returns to SERVE from IDLE, or from STANDBY, after which every channel trains first: R277, R308, R309. -/
def State.wake (s : State) : State :=
  match s.power.state with
  | .idle => s.enter .serve 0
  | .standby => s.leaveRefresh.startPanels.enter .serve 0
  | .serve | .auxOnly => s

/-- T starts with the value of the A copy, and so do the registers it sets and the regions' estimates; a summary due before has passed
(R254 to R256, R286). -/
def State.startTime (s : State) : State :=
  let gt := s.clock.gt
  (s.modClock (fun c =>
    { c with sub := 0, gtHi := gt / 2 ^ 32 % 2 ^ 32, epoch := gt / 65536 % 2 ^ 48,
             regions := (List.range 23).map (fun r => Region.start gt (s.regionRate r)) })).modCal (fun k =>
    { k with summed := gt / 2 ^ 37 })

/-! ### What is kept -/

/-- A bay without power: R311, R441. -/
def Bay.dark (y : Bay) : Bay :=
  { y with powered := false, perst := true, pwrdis := y.cart.isNone || y.retired, mounted := false, target := false, resyncLeft := 0,
           drained := false }

/-- Unit entries as the remap table restores them: R385. -/
def keptUnits (us : List (Nat × UnitE)) : List (Nat × UnitE) := us.map (fun u => (u.1, { u.2 with pending := none, mgmt := false }))

/-- Spare lines in use and the replays that a core has caused, as the remap table restores them: R139, R374, R385, R420. -/
def keptPhys (ps : List (Nat × Phys)) : List (Nat × Phys) :=
  (ps.filter (fun p => !p.2.spares.isEmpty || !p.2.caused.isEmpty)).map (fun p => (p.1, { spares := p.2.spares, caused := p.2.caused }))

/-- The state array of the management path: R420. -/
def Mgmt.kept (m : Mgmt) : Mgmt :=
  { keys := m.keys, cas := m.cas, udpPort := m.udpPort, mgmtPort := m.mgmtPort, ipv6 := m.ipv6, mirrorId := m.mirrorId, out := m.out,
    vref := m.vref }

/-- The module after a reset or a loss of every rail derived from 48 V: registers of the A domain, the scorebook, the remap table,
the boot flash, the cartridges and what the model numbers are kept; every other register takes its reset value (R10, R254, R308,
R359, R385, R420; memory contents: entry 3). -/
def State.survivors (s : State) : State :=
  let c := s.clock
  { pending := s.pending, phys := keptPhys s.phys, units := keptUnits s.units, nextId := s.nextId, nextFree := s.nextFree,
    nextHandle := s.nextHandle, nextTask := s.nextTask, out := s.out, linkOut := s.linkOut,
    clock := { gt := c.gt, sub := c.sub, gtHi := c.gt / 2 ^ 32 % 2 ^ 32, epoch := c.gt / 65536 % 2 ^ 48 },
    config := { module := s.config.module, side := s.config.side },
    power := { cap := s.power.cap, capNext := s.power.capNext, state := s.power.state, target := s.power.target,
               lastCause := s.power.lastCause, idleMs := s.power.idleMs, transitions := s.power.transitions,
               tripped := s.power.tripped },
    boot := { s.boot with rails := 0, step := 2, ethUp := [], calRow := none },
    bays := s.bays.map (fun y => (y.1, y.2.dark)), book := s.book,
    mgmt := { s.mgmt with sensed := s.mgmt.sensed } }

/-- Every rail derived from 48 V is removed, and the module is in AUX-ONLY: R303, R308, R309, R432. -/
def State.powerDown (s : State) (cause : Nat) : State := s.survivors.enter .auxOnly cause

/-- What outlives a loss of auxiliary power: the MRAM, the boot flash, the fuses and the cartridges (R396, R410, R420). -/
def State.dead (s : State) : State :=
  { pending := s.pending, phys := keptPhys s.phys, units := keptUnits s.units, nextId := s.nextId, nextFree := s.nextFree,
    out := s.out, linkOut := s.linkOut,
    boot := { slotAImg := s.boot.slotAImg, slotBImg := s.boot.slotBImg, activeB := s.boot.activeB, minSvn := s.boot.minSvn },
    bays := s.bays.map (fun y => (y.1, y.2.dark)), book := s.book, mgmt := s.mgmt.kept }

/-! ### Step 2 -/

/-- An image of the boot flash. -/
def Boot.slot (b : Boot) (isB : Bool) : Flash := if isB then b.slotBImg else b.slotAImg

/-- Whether the CSB accepts an image: R396. -/
def Boot.accepts (b : Boot) (f : Flash) : Bool := f.sigOk && decide (b.minSvn ≤ f.svn)

/-- BOOT_FAIL of a step: R399, R416 (cause and detail are not given: 0). -/
def State.bootFail (s : State) (step source : Nat) : State :=
  (s.modBoot (fun b => { b with failStep := step })).emit 0x0010 source (leBytes 1 step ++ zeros 5)

/-- Step 2: the active slot, else the other with FW_FALLBACK, else the module stays in AUX-ONLY (R396, R399). -/
def State.verifyImage (s : State) : State :=
  let b := s.boot
  let run (s : State) (isB fb : Bool) : State :=
    s.modBoot (fun x => { x with slotB := isB, fallback := fb, svn := (b.slot isB).svn, step := 3, failStep := 0 })
  let first := b.slot b.activeB
  if b.accepts first then run s b.activeB false
  else if b.accepts (b.slot (!b.activeB)) then
    (run s (!b.activeB) true).emit 0x0011 srcCSB (leBytes 1 (b2n b.activeB) ++ leBytes 1 (if first.sigOk then 1 else 0))
  else (s.modBoot (fun x => { x with step := 2 })).bootFail 2 srcCSB

/-! ### Steps 3 to 8 -/

/-- An entry of the staged list: image, options, batch_max, window_us: R404. -/
def stagedEntry (e : List Byte) : Hash × Nat × Nat × Nat := (hashOf (e.take 48), leAt e 48 1, leAt e 49 1, leAt e 50 2)

/-- STAGED_LOAD_FAIL with its refusal record, zeros for an object that is absent: R398, R416. -/
def State.stagedFail (s : State) (entry : Nat) (record : List Byte) : State :=
  s.emit 0x0015 srcLoader (leBytes 1 entry ++ zeros 3 ++ padTo 16 record)

/-- Step 7: the lead module takes the staged list from its own cartridges, and each entry waits for the loader as a LOAD_PATTERN by
name would; an absent object is recorded and skipped (R398). -/
def State.stageLoads (s : State) : State :=
  if s.config.module ≠ 0 then s
  else match s.mountedCarts.head? with
    | none => s
    | some c => ((List.range c.staged.length).zip c.staged).foldl (fun s e =>
        let (h, opts, bm, wu) := stagedEntry e.2
        if h = 0 then s
        else match s.object h with
          | some img => { s with loads := s.loads ++ [{ reply := none, options := opts, batchMax := bm, windowUs := wu, image := img,
                                                        staged := some e.1 }] }
          | none => s.stagedFail e.1 []) s

/-- Step 8: the CSB raises min_svn to the running image's where its package asked for it (R396). -/
def State.raiseMinSvn (s : State) : State :=
  let b := s.boot
  let f := b.slot b.slotB
  if f.raise ∧ b.minSvn < f.svn then
    (s.modBoot (fun x => { x with minSvn := f.svn })).emit 0x0013 srcCSB (leBytes 2 b.minSvn ++ leBytes 2 f.svn)
  else s

/-- A failure of a boot step that the boot survives: R399, R416. -/
def State.bootNote (s : State) (step : Nat) : State := s.emit 0x0010 srcCP (leBytes 1 step ++ zeros 5)

/-- Channels that fail their training become SUSPECT: R399. -/
def State.suspectChannels (s : State) (cs : List Nat) : State :=
  if cs.isEmpty then s else (cs.foldl (fun s c => s.setUnit (uChannel c) .suspect 0x01 true) s).bootNote 4

/-- Whether every channel of some stack is among these: R399. -/
def stackLost (cs : List Nat) : Bool := (List.range 16).any (fun k => (List.range 32).all (fun i => cs.contains (32 * k + i)))

/-- Steps 3 to 8 from an image that step 2 accepted: the rails come up, every channel trains, the cartridges present mount and the
staged list is read; the optics have their supply, so the ports train, and the configuration forms by its own commands (R332, R397 to R399,
R432). Rows of HBM under soft repair get hard repair (R373): the channels start without any. -/
def State.bootServe (s : State) (cause : Nat) (f : BootFacts) : State :=
  if !f.railsOk then (s.modBoot (fun b => { b with step := 3, rails := 0 })).bootFail 3 srcCSB
  else
    let bad := f.badChannels.map (fun c => c.val)
    let s := (s.modBoot (fun b => { b with rails := 8, main := true, failStep := 0 })).startTime.modCal (fun k => { k with base := s.clock.gt })
    let s := s.suspectChannels bad
    if stackLost bad then s.modBoot (fun b => { b with step := 4, failStep := 4 })
    else
      let (k, s) := s.freeIndex
      let s := s.modBoot (fun b => { b with step := 8, bootMs := min 65535 (s.clock.gt / 2000000), calRow := some k })
      let s : State := { s with ports := (List.range 36).map (fun p => (p, { state := .train })), bays := s.bays.map (fun y =>
        let on := y.2.cart.isSome && !s.bayOff y.1
        (y.1, { y.2 with powered := on, perst := !on, pwrdis := !on })) }
      let s := (s.enter .serve cause).mountAll
      let s := if s.mountedCarts.isEmpty then s.bootNote 6 else s
      (s.modPower (fun p => { p with idleSince := s.clock.gt })).stageLoads.raiseMinSvn

/-- A module reset: what the A domain and the MRAM hold is kept, the active image is verified, and the module boots on while 48 V and
PWR_EN last (R10, R396, R424). -/
def State.moduleReset (s : State) : State :=
  let powered := s.boot.pwrEn && s.boot.main && 0 < s.boot.rails
  let s := (s.survivors.modBoot (fun b => { b with boots := (b.boots + 1) % 2 ^ 16 })).verifyImage
  if s.boot.failStep ≠ 0 then s.enter .auxOnly s.power.lastCause
  else if powered then s.bootServe s.power.lastCause {} else s

end Sys2Proof.Machine
end

