-- ==== Sys2Proof/Machine/Settings.lean ====
section
/-!
DEFINITION. Requests of the management path as shared operations (R347, R362, R385 to R388, R400, R420 to R423): the end of tasks
and sessions, unit requests, enrolment, the staged list, ports and delays, and the queue in which requests wait for the CP and for
a task boundary.
-/

namespace Sys2Proof.Machine

/-! ### The end of tasks and sessions -/

/-- A task is cancelled where it is: queued tasks never run; those that run stop on their cores, but a slot of a batch runs on with
the others and its result is discarded; one whose run has ended ends at once (R194, R323, R362). -/
def State.cancelTask (s : State) (t : Nat) : State :=
  match s.task t with
  | none => s
  | some k => match k.state with
    | .queued => s.modTask t (fun k => k.finish stCancelled)
    | .running | .replaying =>
      let ms := s.liveOf t
      if k.check != .none then s.modTask t (fun k => k.finish stCancelled)
      else if ms.any (fun m => m != t && (s.task m).any (fun k => !k.cancelled)) then
        s.modTask t (fun k => { k with cancelled := true, input := [] })
      else
        let cs := ms.flatMap s.coresOf
        ms.foldl (fun s m => s.modTask m (fun k => k.finish stCancelled)) ((s.stopCores cs).freeCores cs)
    | .complete | .delivered => s

/-- The session number of tasks whose session has ended: no session has it (R347). -/
def orphan : Nat := 16384

/-- A session ends: its queued and running tasks end CANCELLED, its tasks are forgotten with their inputs and results, and its
context is freed (R347, R360). A slot of a batch that still runs belongs to no session. Pending loads answer nobody. -/
def State.endSession (s : State) (cid : Nat) : State :=
  let own := (s.tasks.filter (fun t => t.session == cid)).map (fun t => t.num)
  let s := own.foldl State.cancelTask s
  { s with tasks := (s.tasks.filter (fun t => t.session != cid || t.live)).map (fun t =>
             if t.session = cid then { t with session := orphan } else t), sessions := mdel s.sessions cid,
           loads := s.loads.map (fun l => if l.reply.any (fun r => r.1 == cid) then { l with reply := none } else l) }

/-! ### Responses -/

/-- Completion code SUCCESS: R423 (DSP0240, PRESUMED). -/
def ccOk : Byte := 0
/-- Completion code ERROR_INVALID_DATA: R423 (DSP0240, PRESUMED). -/
def ccInvalid : Byte := 2
/-- Completion code of a request while another update is in progress: R424 (DSP0267, PRESUMED). -/
def ccUpdating : Byte := 0x81

/-- A response goes out on the management path: R423. -/
def State.respond (s : State) (b : List Byte) : State := s.modMgmt (fun m => { m with out := m.out ++ [b] })

/-! ### Units -/

/-- A bay leaves service, drained and unpowered, or returns: R387, R441. -/
def State.placeBay (s : State) (b : Nat) (on : Bool) : State :=
  s.modBay b (fun y =>
    if on then { y with draining := false, drained := false, retired := false, powered := y.cart.isSome && s.bayPower, perst := true,
                        pwrdis := y.cart.isNone }
    else { y with draining := false, drained := true, mounted := false, target := false, resyncLeft := 0, powered := false, perst := true,
                  pwrdis := true })

/-- A unit leaves or returns to service; a panel takes its cores with it (R375, R385 to R387). A core that comes back and has
no logical core is SPARE. -/
def State.placeUnit (s : State) (u : Nat) (st : UState) (cause : Nat) (mgmt : Bool) : State :=
  let s := if 288 ≤ u ∧ u < 296 then
      ((List.range 36).map (fun i => 36 * (u - 288) + i)).foldl (fun s p =>
        if (s.unit p).state = .retired then s
        else s.changeUnit p (if st = .inService ∧ (s.logicalOf p).isNone then .spare else st) cause mgmt) s
    else if 844 ≤ u then s.placeBay (u - 844) (st == .inService)
    else s
  let st := if st = .inService ∧ u < 288 ∧ (s.logicalOf u).isNone then .spare else st
  let s := (s.modUnit u (fun e => { e with pending := none })).setUnit u st cause mgmt
  if 808 ≤ u ∧ u < 844 then s.noteRelays else s

/-- A management request that waits for the unit's next task boundary is applied: R386. -/
def State.applyPending (s : State) (u : Nat) : State :=
  match (s.unit u).pending with
  | some st => s.placeUnit u st 0x09 true
  | none => s

/-- Whether a live task uses a unit, so that a boundary of it is still to come: R386. -/
def State.unitUsed (s : State) (u : Nat) : Bool :=
  let busy (p : Nat) : Bool := ((s.taskOn p).bind s.task).any Task.live
  if u < 288 then busy u
  else if u < 296 then (List.range 36).any (fun i => busy (36 * (u - 288) + i))
  else s.tasks.any Task.live

/-- The state that a request names: R386. -/
def requestedState (code : Nat) : Option UState :=
  if code = 0 then some .inService else if code = 3 then some .disabled else if code = 4 then some .retired else none

/-- An operator request for a unit: refused when stale, when it names no such state, when it would drain a channel, or when the unit is a
RETIRED core, which never returns (R375); accepted, it waits for the unit's task boundary or takes effect at once (R386, R387). The response carries the entry (R423). -/
def State.requestUnit (s : State) (u code : Nat) (now : Bool) (generation : Nat) : State :=
  let refuse (s : State) : State := s.respond ([ccOk, 0] ++ leBytes 8 (s.unitWord u))
  match requestedState code with
  | none => refuse s
  | some st =>
    let e := s.unit u
    if 846 ≤ u ∨ generation < e.generation ∨ (st ≠ .inService ∧ 296 ≤ u ∧ u < 808) ∨ (e.state = .retired ∧ u < 288) then refuse s
    else
      let s :=
        if now ∧ st ≠ .inService then
          if e.state = st ∨ e.state = .draining then s else s.startDrain u st 0x09
        else if now ∨ !s.unitUsed u then s.placeUnit u st 0x09 true
        else (s.modUnit u (fun e => { e with pending := some st })).changeUnit u e.state e.cause true
      s.respond ([ccOk, 1] ++ leBytes 8 (s.unitWord u))

/-! ### Enrolment -/

/-- Largest number of pattern-signing keys: R230. -/
def maxKeys : Nat := 8
/-- Largest number of client CAs: R348. -/
def maxCas : Nat := 32

/-- A list of certificates with one added (in place of one of the same hash) or removed. -/
def enrolIn (cs : List Cert) (r : EnrolReq) : List Cert :=
  let rest := cs.filter (fun c => c.hash != r.hash)
  if r.add then rest ++ [{ hash := r.hash, keyId := r.keyId, roles := r.roles }] else rest

/-- A certificate is enrolled or removed: R230, R348, R420, R423. Removing a client CA ends the sessions that depend on it. -/
def State.enrolCert (s : State) (r : EnrolReq) : State :=
  let cs := if r.ca then s.mgmt.cas else s.mgmt.keys
  let cs' := enrolIn cs r
  if (r.add && (!r.certOk || decide ((if r.ca then maxCas else maxKeys) < cs'.length))) || (!r.add && cs' == cs) then
    s.respond [ccInvalid, BitVec.ofNat 8 cs.length]
  else
    let s := s.modMgmt (fun m => if r.ca then { m with cas := cs' } else { m with keys := cs' })
    let s := s.modBook (fun b => { b with stateGen := b.stateGen + 1 })
    let s := s.mgmtChange (if r.ca then 2 else 1) 1 ((hashBytes r.hash).take 32)
    let s := if r.ca ∧ !r.add then
        ((s.sessions.filter (fun x => x.2.cas.contains r.hash)).map (fun x => x.1)).foldl State.endSession s
      else s
    s.respond [ccOk, BitVec.ofNat 8 cs'.length]

/-! ### Other settings -/

/-- The staged list of the cartridges is replaced: R398, R404, R423. -/
def State.setStaged (s : State) (es : List (List Byte)) : State :=
  let padded := es ++ List.replicate (16 - es.length) (zeros 52)
  ((s.mirrorWrite lbBytes (fun c => { c with staged := padded })).mgmtChange 3 1 (leBytes 4 es.length)).respond [ccOk]

/-- The UDP ports and the management address: R345, R420, R423, R425. -/
def State.setNet (s : State) (udp mgmt : Nat) (ipv6 : BitVec 128) : State :=
  ((s.modMgmt (fun m => { m with udpPort := udp, mgmtPort := mgmt, ipv6 := ipv6 })).modBook
    (fun b => { b with stateGen := b.stateGen + 1 })).respond [ccOk]

/-- The power cap by either path: BAD_PARAM outside its range, refused below fit_total, else it takes effect at the next epoch mark
(R305, R426). Answers whether it is in range and whether it is accepted. -/
def State.setCap (s : State) (v path : Nat) : State × Bool × Bool :=
  if v < 24000 ∨ 48000 < v then (s, false, false)
  else
    let s := s.modPower (fun p => { p with fitFormed := true })
    if v < s.fitTotal s.images then (s, true, false)
    else ((s.modPower (fun p => { p with capNext := some v })).mgmtChange 0 path (leBytes 4 v), true, true)

/-- A numeric effecter is set: R422. -/
def State.setEffecter (s : State) (e : Effecter) (v : Nat) : State :=
  match e with
  | .cap =>
    let (s, _, ok) := s.setCap v 1
    s.respond [if ok then ccOk else ccInvalid]
  | .idleMs => (s.mgmtIdleMs v).respond [ccOk]
  | .wrInterval => (s.mgmtInterval v).respond [ccOk]
  | .ceiling p => (s.mgmtCeiling p.toNat v).respond [ccOk]

/-- The confirmation word of MODULE_RESET: R423. -/
def resetWord : BitVec 32 := 0x52535431

/-- A module reset is asked for: it follows the response (R423). -/
def State.resetRequest (s : State) (c : BitVec 32) : State :=
  if c = resetWord then (s.respond [ccOk]).moduleReset else s.respond [ccInvalid]

/-- A register is read by the management path; a read of `GT_LO` latches `GT_HI`: R256, R423. -/
def State.readModReg (s : State) (a : Nat) : State :=
  (if a = modBase + 0x1000 then s.latchGt else s).respond (ccOk :: leBytes 8 (if a < modBase then 0 else s.modReg (a - modBase)))

/-- A management request takes effect: R400, R423. Every other command waits nowhere. -/
def State.applyRequest (s : State) (i : Instr) : State :=
  match i with
  | .unitRequest u st now g => s.requestUnit u st now g
  | .enrol r => s.enrolCert r
  | .stagedSet es => s.setStaged es
  | .netCfg udp mgmt ip => s.setNet udp.toNat mgmt.toNat ip
  | .effecterSet e v => s.setEffecter e v
  | .moduleReset c => s.resetRequest c
  | .regRead a => s.readModReg a.toNat
  | _ => s

/-- The requests that wait take effect, once the CP runs: R400, R423. -/
def State.settle (s : State) : State :=
  if !s.cpRuns || s.mgmt.waiting.isEmpty then s
  else
    let w := s.mgmt.waiting
    w.foldl State.applyRequest (s.modMgmt (fun m => { m with waiting := [] }))

/-- A request that changes settings waits for the CP and for a task boundary, which is at once where no task runs (R400, R423). -/
def State.queueRequest (s : State) (i : Instr) : State :=
  let s := s.modMgmt (fun m => { m with waiting := m.waiting ++ [i] })
  if s.tasks.any Task.live then s else s.settle

end Sys2Proof.Machine
end

