-- ==== Sys2Proof/Machine/CastOn.lean ====
section
/-!
DEFINITION. The cast-on as one shared operation (R189): task boundaries (R264, R373, R386), the manifest state of each core (R232),
instruction banks (R236), resident contents (R235), the input area (R315, R370), the job word (R211, R370) and the start
time (R266).
-/

namespace Sys2Proof.Machine

/-! ### Task boundaries -/

/-- A task boundary of a pattern's cores: queued management requests for their cores and panels, and for ports and bays,
are applied (R386), their panels have passed a boundary (R264), rows of the channels that the pattern's ranges lie on are repaired, by soft
repair (R373), and requests that change settings take effect (R423). -/
def State.boundary (s : State) (m : Manifest) : State :=
  let cs := m.coreSet
  let panels := (List.range 8).filter (fun p => cs.any (fun n => n / 32 == p))
  let s := (cs.map s.physOf ++ panels.map uPanel ++ (List.range 38).map (fun i => 808 + i)).foldl State.applyPending s
  let s := panels.foldl (fun s p => s.modPanel p (fun x => { x with boundary := x.boundary || x.ceilingNext.isSome })) s
  let due := (s.channels.filter (fun c => !c.2.repairs.isEmpty)).map (fun c => c.1)
  let s := (due.filter (fun c => m.channels.contains c)).foldl (fun s c => s.modChannel c (fun x =>
    { x with repairs := [], softRows := x.softRows ++ x.repairs.filter (fun r => !x.softRows.contains r) })) s
  s.settle

/-! ### A core -/

/-- The rows of a segment written into a bank; rows beyond it are empty (R233, R236). -/
def Phys.writeBank (p : Phys) (bank : Nat) (img : List Byte) (g : Segment) : Phys :=
  let rows := ((List.range g.rows).map (fun r => (4096 * bank + r, segRow img g r))).filter (fun e => e.2 != 0)
  { p with imem := rows.foldl (fun m e => mset m e.1 e.2)
             (p.imem.filter (fun e => e.1 < 4096 * bank ∨ 4096 * (bank + 1) ≤ e.1)),
           weak := p.weak.filter (fun w => w.buffer != .imem || w.bank != bank) }

/-- The gang of a core in a gang table: position and size minus 1 (R44, R126). -/
def gangOf (gs : List (Nat × Nat)) (n : Nat) : Option (Nat × Nat) :=
  (gs.find? (fun g => g.1 ≤ n && n < g.1 + g.2)).map (fun g => (n - g.1, g.2 - 1))

/-- The FIFOs at cast-on: the job word in FIFO 0, and 32 credits with each named writer (R211, R213, R232). -/
def fifosAt (n : Nat) (ws : List Nat) (job : BitVec 64) : List (Nat × Fifo) :=
  (0, { words := [job], parity := [wordParity job] }) ::
    ((List.range 4).filter (fun k => (ws.getD k 0).testBit 7)).map (fun k =>
      (k + 1, { writer := some (32 * (n / 32) + field (ws.getD k 0) 4 0), credits := 32 }))

/-- The entries of a register file that are not at their reset value. -/
def keyed [DecidableEq α] (d : α) (l : List α) : List (Nat × α) :=
  ((List.range l.length).zip l).filter (fun e => decide (e.2 ≠ d))

/-- Cast-on values of the tallies: the declared ones, else 0 (R189, R232). -/
def CoreRec.tallies (r : CoreRec) : List (Nat × BitVec 32) :=
  keyed 0 ((List.range 63).map (fun t => if r.tallyMask.testBit t then BitVec.ofNat 32 (r.tallyInit.getD t 0) else 0))

/-- A logical core as the firmware installs it at cast-on; its registers are undefined until written (R25, R189, R232). What
no rule clears at cast-on stays: `HOLD_CAUSE` of the last turn (R54) and the counts of `CABLE_STAT` (R166). -/
def Core.install (c : Core) (r : CoreRec) (m : Manifest) (conf : Conf) (task tok : Nat) (job : BitVec 64) : Core :=
  let g := gangOf m.gangs r.core
  { vl := none, vlChk := none, tok := some tok, pc := r.entryRow, bank := r.entryBank, phase := .ready, task := some task,
    ranges := keyed {} r.ranges, regions := keyed {} r.regions, gangPos := (g.getD (0, 0)).1, inGang := g.isSome,
    gangLast := (g.getD (0, 0)).2, idModule := conf.module, idModules := conf.n - 1, flipList := r.flips.drop 1,
    segs := [(r.entryBank, r.flips.headD 0)],
    optimistic := m.optSpill, sigmode := BitVec.ofNat 4 r.sigmode, bwRate := r.bwRate, bwDepth := r.bwDepth,
    tokens := 1024 * r.bwDepth, tallies := r.tallies, tally0 := r.tallies, sends := keyed {} r.sends,
    skeins := keyed {} r.skeins, fifos := fifosAt r.core r.fifoW job, allot := r.pipAllot,
    lastCause := c.lastCause, lastTag := c.lastTag, lastMember := c.lastMember, lastDetail := c.lastDetail,
    lastLen := c.lastLen, cablePasses := c.cablePasses, cableChunks := c.cableChunks }

/-- The resident entries copied into a core's buffers from the placed weight objects: R235. -/
def State.copyResidents (s : State) (img : List Byte) (r : CoreRec) : State :=
  r.residents.foldl (fun s e => s.bufWrite r.core e.win (Memory.readN s.hbm ((wrefAt img e.ref).addr + e.off) e.len)) s

/-- One core is installed: its pips return from the pool, its physical core wakes, its regions apply, its entry bank and its
resident contents are written (R134, R189, R235, R236, R293, R307). -/
def State.installCore (s : State) (p : Pattern) (r : CoreRec) (task : Nat) (job : BitVec 64) (residents : Bool) : State :=
  let n := r.core
  let (tok, s) := s.freeIndex
  let lent := (s.core n).lent
  let s := s.modPanel (n / 32) (fun x => { x with pool := x.pool - lent })
  let s := s.modCore n (fun c => c.install r p.man s.config task tok job)
  let regions := (s.core n).enabledRegions
  let s := s.modP n (fun x =>
    ({ x with mem := remapRegions x.cbView regions x.mem, cbView := regions, rowBase := x.rowCount,
              nap := false }).writeBank r.entryBank p.image (segAt p.image (r.flips.headD 0)))
  if residents then s.copyResidents p.image r else s

/-! ### Inputs -/

/-- A firmware write to another module's memory goes over its link in bursts: R337, R371. -/
def State.fwWrite (s : State) (a : Nat) (data : List Byte) : State :=
  match s.outPort 256 a with
  | none => s
  | some p => ((List.range ((data.length + 255) / 256)).map (fun i => (a + 256 * i, slice data (256 * i) 256))).foldl
      (fun s e =>
        let id := s.nextId
        let s := s.send { id := 0, kind := .write, core := 255, module := s.config.module, side := s.config.side,
                          dst := e.1, data := e.2, origin := .firmware, port := some p }
        let m : LinkMsg := .txn .write 255 s.config.module s.config.side (id % 65536) e.2.length false e.1 e.2
        s.portWait p { cls := 1, msg := m, sel := 256 }) s

/-- The window of the twin of this module: R339. -/
def State.twinAddr (s : State) : Nat := 2 ^ 63 + 2 ^ 62 + s.config.module * 2 ^ 56

/-- Before cast-on the receiving module passes input, seed block and P of a task under MIRROR or SHARE to its twin: R381, R383. -/
def State.passToTwin (s : State) (p : Pattern) (t : Task) : State :=
  if p.twin ≠ 0 ∧ s.twinLinked then s.fwSend s.twinAddr 2 t.num (hashBytes t.p ++ padTo 64 t.seeds ++ t.input) else s

/-- The carried state of a pattern, its ranges of roles 3 and 4, is copied to the twin over the twin links: R381, R384. -/
def State.copyCarried (s : State) (p : Pattern) : State :=
  (p.man.hbm.filter (fun r => r.role == 3 || r.role == 4)).foldl (fun s r =>
    s.fwWrite (s.twinAddr + r.base) (Memory.readN s.hbm r.base r.len)) s

/-- Whether this module leads its configuration: the lowest number (R189, R257). -/
def State.leads (s : State) : Bool := s.config.module == 0

/-- The seed block and the input of a slot reach the input area of the lead module: R315, R370, R371. -/
def State.placeInput (s : State) (m : Manifest) (slot : Nat) (t : Task) : State :=
  match m.firstRange 1 with
  | none => s
  | some r =>
    let a := r.base + slot * m.inSlot
    let data := padTo 64 t.seeds ++ t.input
    if s.leads then { s with hbm := Memory.writeN s.hbm a data } else s.fwWrite (2 ^ 63 + a) data

/-- The job word: input bytes 0 to 5 of slot 0, the slot count minus 1, END set (R211, R370). -/
def jobWord (input : List Byte) (slots : Nat) : BitVec 64 :=
  BitVec.ofNat 64 (leAt input 0 6 + (slots - 1) * 2 ^ 48) ||| wordEnd ||| wordValid

/-- The start time: the first k × 65,536 + 32,768 at least 40,000 units after the decision (R266). -/
def startAfter (gt : Nat) : Nat := (gt + 40000 + 32767) / 65536 * 65536 + 32768

/-! ### Cast-on -/

/-- HEADROOM writes its default parameters into the format area's header at the first cast-on of a run, which is one that
names no predecessor (R101). DESIGN CHOICE: HEADROOM-P runs on the parameters that the header in HBM holds, since R231 gives the manifest no
field for them (entry 20). -/
def State.formatDefaults (s : State) (m : Manifest) (first : Task) : State :=
  if m.ruleId = 1 ∧ first.p = 0 then
    let hdr := [0x01, 0] ++ leBytes 2 m.layers ++ [2, 0] ++ leBytes 2 64 ++ leBytes 2 0 ++ [16, 0, 24]
    { s with hbm := (Memory.writeN s.hbm m.fmtArea hdr).writeN (m.fmtArea + 14) (leBytes 2 512) }
  else s

/-- The tasks of a batch whose SUBMIT carried the tag of a breakpoint of kind 5 match at cast-on: every core of the batch holds on its
entry row, and a one-shot breakpoint is disarmed (R248). -/
def State.tagBreaks (s : State) (p : Pattern) (members : List Task) : State :=
  let hit (d : Debug) (b : Break) : Bool := d.handle == p.handle && b.kind == 5 &&
    members.any (fun t => (d.task == 0 || d.task == t.num) && t.tag.toNat == b.value % 2 ^ 32)
  if p.debug && (s.debug).any (fun d => d.breaks.any (hit d)) then
    let s : State := { s with debug := (s.debug).map (fun d => { d with breaks := d.breaks.filter (fun b => !(hit d b && b.oneShot)) }) }
    p.man.coreSet.foldl (fun s n => s.modCore n (fun c => { c with stepLeft := some 0 })) s
  else s

/-- Whether no other live task runs on these cores: R243. -/
def State.coresFree (s : State) (cs : List Nat) (t : Nat) : Bool :=
  cs.all (fun n => match (s.core n).task with
    | none => true
    | some k => k == t || !((s.task k).any Task.live))

/-- A task that no mapping of this side can run: its twin runs it, where it has one, and this side waits for the result (R378, R381, R383);
else it ends with DEGRADED (R325, R378). -/
def State.unmapped (s : State) (p : Pattern) (nums : List Nat) : State :=
  nums.foldl (fun s t => s.modTask t (fun k =>
      if p.twin ≠ 0 ∧ s.twinLinked then { k with state := .running, check := .twin } else k.endWith stDegraded)) (s.freeCores p.man.coreSet)

/-- A batch as it takes its slots: R369, R370. -/
def seated (ts : List Task) : List Task :=
  ((List.range ts.length).zip ts).map (fun e =>
    { e.2 with slot := e.1, batch := if ts.length = 1 then [] else ts.map (fun t => t.num) })

/-- The tasks of a batch cast on together on the cores as they are mapped now; the first leads. Each has its slot, which it keeps in
a replay whatever has become of the others (R189, R235, R266, R324, R369, R370). A core without a working physical core ends them here
(R325, R378). -/
def State.castOn (s : State) (p : Pattern) (members : List Task) (replay : Bool) : State :=
  let m := p.man
  match members with
  | [] => s
  | first :: _ =>
    let nums := members.map (fun t => t.num)
    if !s.mapped m.coreSet then s.unmapped p nums
    else
      let job := jobWord ((members.find? (fun t => !t.cancelled)).getD first).input (max 1 first.batch.length)
      let s := (coreRecs p.image).foldl (fun s r =>
        s.installCore p r first.num job (replay || !((s.pattern p.handle).any (fun q => q.placed)))) s
      let s := s.modPattern p.handle (fun q => { q with placed := true })
      let s := if replay then s else members.foldl (fun s t => s.passToTwin p t) s
      let s := (members.filter (fun t => !t.cancelled)).foldl (fun s t => s.placeInput m t.slot t) s
      let s := s.formatDefaults m first
      let start := startAfter s.clock.gt
      let phys := m.coreSet.map s.physOf
      let s := members.foldl (fun s t => s.modTask t.num (fun k =>
        { k with state := if replay then .replaying else .running, start := start, slot := t.slot, batch := t.batch, check := .none,
                 ranges := m.hbm.map (fun r => (r.base, r.len, r.role)), coreSet := m.coreSet, share := p.twin == 2, poisoned := false,
                 waitsUnlocked := none, runCores := k.runCores.take k.runs.length ++ [phys] })) s
      if p.debug then nums.foldl (fun s t => s.emit 0x0072 srcCP (leBytes 4 t ++ leBytes 8 p.handle)) (s.tagBreaks p members) else s

/-- Whether the next entry of a core's flip list is due: entry 1 after cast-on, entry k + 1 after the k-th flip (R236). -/
def Core.bankDue (c : Core) (p : Pattern) (n : Nat) : Bool :=
  !c.loadDone && (recFor p.image n).any (fun r => decide (r.flips.length ≤ c.flipList.length + c.flips + 1))

/-- A cast-on on the maps that its panels are to have, after the task boundary it makes: R43, R189, R375, R386. A logical core changes
its physical core only at a boundary of its own task (R12): where another pattern's running task would have to move, a task that needs no
new map keeps the one it has, and one that needs it waits (entry 19). -/
def State.castOnMapped (s : State) (p : Pattern) (members : List Task) (replay : Bool) (shift : Nat) : State :=
  let cs := p.man.coreSet
  let t := (s.freeCores cs).boundary p.man
  let m := t.mapFor cs (fun q => t.ringMap q shift)
  let p := (t.pattern p.handle).getD p
  if t.mayRemap m then (t.remap m).castOn ((t.remap m).pattern p.handle |>.getD p) members replay
  else if shift = 0 ∧ t.ownMap cs then t.castOn p members replay
  else s

end Sys2Proof.Machine
end

