-- ==== Sys2Proof/Machine/Format.lean ====
section
/-!
DEFINITION. The format rule (R101 to R104): the format area's entries and its header after a task.
-/

namespace Sys2Proof.Machine

/-- A monitor block as the pattern stored it: R79. -/
structure MonBlock where
  maxExp : Int
  count : Nat
  satCount : Nat
  zeroCount : Nat
  hist : List Nat
  deriving DecidableEq, Repr

/-- The block in 128 bytes: R79. -/
def monBlockOf (b : List Byte) : MonBlock :=
  { maxExp := sextN 16 (leAt b 0 2), count := leAt b 4 4, satCount := leAt b 8 4, zeroCount := leAt b 12 4,
    hist := (List.range 16).map (fun i => leAt b (16 + 4 * i) 4) }

/-- Values certainly below e; bin 15 is never counted: R102. -/
def MonBlock.under (b : MonBlock) (base e : Int) : Int :=
  (List.range 15).foldl (fun (n : Int) (i : Nat) => if base + (i : Int) < e then n + (b.hist.getD i 0 : Int) else n) 0

/-- What the rule keeps in the header: R101. -/
structure FormatHeader where
  h : Nat
  thetaU : Nat
  thetaS : Nat
  deriving DecidableEq, Repr

/-- The candidate list of an entry: up to four codes, 0 ends it: R101. -/
def formatCands (e : List Byte) : List Nat := ((slice e 264 4).map (fun b => b.toNat)).takeWhile (fun c => c != 0)

/-- The first candidate, narrowest first, whose underflow is tolerated, with its exponent; the widest when none is: R102. -/
def formatChoose (hd : FormatHeader) (cur prev : MonBlock) (hb pb cnt xm : Int) (hh : Nat) : List Nat → Nat × Int
  | [] => (0, 0)
  | [c] => (c, xm + hh - ((xBits c : Int) - 2))
  | c :: c' :: cs =>
    let e := xm + hh - ((xBits c : Int) - 2)
    if (cur.under hb e + prev.under pb e) * 65536 ≤ hd.thetaU * cnt then (c, e)
    else formatChoose hd cur prev hb pb cnt xm hh (c' :: cs)

/-- A byte that R102 clamps to -128 to 127. -/
def clampByte (v : Int) : Byte := BitVec.ofInt 8 (max (-128) (min 127 v))

/-- One entry of 512 bytes after a task: R102. DESIGN CHOICE: flags are 0 where the rule sets none, and e_scale, for which R102 names no
clamp, keeps its low 8 bits (entry 20). -/
def formatEntry (hd : FormatHeader) (e : List Byte) : List Byte :=
  let cur := monBlockOf (slice e 0 128)
  let prev := monBlockOf (slice e 128 128)
  let hb := sextN 8 (leAt e 258 1)
  let pb := sextN 8 (leAt e 260 1)
  let cnt : Int := (cur.count : Int) + prev.count - cur.zeroCount - prev.zeroCount
  let rolled := slice e 0 128 ++ slice e 0 128
  if cnt = 0 then rolled ++ slice e 256 6 ++ [1] ++ e.drop 263
  else
    let xm := max cur.maxExp prev.maxExp
    let raised := decide (((cur.satCount : Int) + prev.satCount) * 65536 > hd.thetaS * cnt)
    let hh := hd.h + b2n raised
    let (c, ex) := formatChoose hd cur prev hb pb cnt xm hh (formatCands e)
    let w : Int := xBits c
    rolled ++ [BitVec.ofNat 8 c, BitVec.ofInt 8 ex, clampByte (xm - 12), clampByte (ex + w - 1)] ++
      leBytes 1 (leAt e 258 1) ++ slice e 261 1 ++ [if raised then 2 else 0] ++ e.drop 263

/-- The header's loss scale after a step: R103. DESIGN CHOICE: l_min and l_max are signed, as l_exp is (entry 20). -/
def formatLoss (hdr : List Byte) (overflow : Bool) : List Byte :=
  let l := sextN 8 (leAt hdr 10 1)
  let lo := sextN 8 (leAt hdr 11 1)
  let hi := sextN 8 (leAt hdr 12 1)
  let grow := leAt hdr 14 2
  let clean := leAt hdr 16 4 + 1
  let (l', skip, clean') :=
    if overflow then (max (l - 1) lo, 1, 0)
    else if grow ≤ clean then (min (l + 1) hi, 0, 0)
    else (l, 0, clean)
  hdr.take 10 ++ [BitVec.ofInt 8 l'] ++ slice hdr 11 2 ++ leBytes 1 skip ++ slice hdr 14 2 ++ leBytes 4 clean' ++ hdr.drop 20

/-- The rule runs over the format area after the cast-off check: R102 to R104. `numBad`: some core counted an invalid or an
overflow. -/
def State.formatRule (s : State) (m : Manifest) (numBad : Bool) : State :=
  if m.ruleId = 0 then s
  else
    let hdr := Memory.readN s.hbm m.fmtArea 64
    let hd : FormatHeader := { h := leAt hdr 4 1, thetaU := leAt hdr 6 2, thetaS := leAt hdr 8 2 }
    let es := (List.range m.layers).map (fun i => Memory.readN s.hbm (m.fmtArea + 64 + 512 * i) 512)
    let beyond := numBad || es.any (fun e => leAt e 261 1 == 1 && 0 < (monBlockOf (slice e 0 128)).satCount)
    { s with hbm := Memory.writeN s.hbm m.fmtArea (formatLoss hdr beyond ++ es.flatMap (formatEntry hd)) }

end Sys2Proof.Machine
end

