-- ==== Sys2Proof/Machine/Task.lean ====
section
/-!
DEFINITION. Tasks from cast-on to their result (R189 to R195, R215 to R217, R266, R316 to R326, R368 to R370, R381, R382):
cast-on, start, cast-off of cores and tasks, replay, the DUAL and MIRROR checks, stalemate and the batching window.
-/

namespace Sys2Proof.Machine

/-! ### Cast-on -/

/-- The queued tasks of a pattern in acceptance order. -/
def State.queued (s : State) (h : Nat) : List Task := s.tasks.filter (fun t => t.handle == h && t.state == .queued)

/-- The queued tasks that may cast on with the oldest one: R369. -/
def Pattern.batch (p : Pattern) (q : List Task) : List Task :=
  match q with
  | [] => []
  | t :: ts =>
    if t.p ≠ 0 then [t]
    else t :: (ts.filter (fun u => u.p == 0 && u.inHash.isSome && slice u.input 0 6 == slice t.input 0 6)).take (p.batchMax - 1)

/-- Whether an earlier task of the image, under this load or another, still waits for its DUAL run or its vote: R104, R246, R326,
R381. -/
def State.awaitsCheck (s : State) (h : Nat) : Bool :=
  s.tasks.any (fun t => t.check != .none && t.check != .twin && t.live && (t.handle == h ||
    (match s.pattern h, s.pattern t.handle with
     | some p, some q => p.hash == q.hash
     | _, _ => false)))

/-- Status BAD_PARAM: R367. -/
def stBadParam : Nat := 0x11

/-- The GT from which a batching window of the oldest queued task runs: it has been accepted, and the cores are free (R369). -/
def State.windowFrom (s : State) (p : Pattern) (t : Task) : Nat :=
  maxN (t.accepted :: p.man.coreSet.map (fun n => (s.core n).freed))

/-- GT units in a microsecond. -/
def gtMicro : Nat := 2000

/-- Whether the batching window of the oldest queued task has passed: R369. -/
def State.windowOver (s : State) (p : Pattern) (t : Task) : Bool := decide (s.windowFrom p t + gtMicro * p.windowUs ≤ s.clock.gt)

/-- Whether a channel in a pattern's HBM ranges accepts no access, so that a cast-on waits: R274, R277. -/
def State.rangesShut (s : State) (p : Pattern) : Bool := p.man.hbm.any (fun h => s.rangeShut h.base h.len)

/-- Whether a task under SHARE runs on the twin: the side with fewer tasks of the pattern queued has it, side 0 on a tie (R383). -/
def State.twinTakes (s : State) (p : Pattern) (twinQueued : Nat) : Bool :=
  let own := (s.queued p.handle).length - 1
  p.twin == 2 && s.twinLinked && (decide (twinQueued < own) || (twinQueued == own && s.config.side))

/-- Cast on a pattern's oldest queued task with those of its batch; one whose P is not the state head ends with BAD_PARAM before
any row issues (R189, R318, R369). A module whose time is not locked makes it wait (R259), and so does a unit that drains (R388) or a
channel that accepts no access (R277). Under
SHARE the twin may have it (R383); `twinQueued` is what the twin has queued, where it has told. -/
def State.castOnOldest (s : State) (h : Nat) (byWindow : Bool) (twinQueued : Option Nat) : State :=
  match s.pattern h, s.queued h with
  | some p, t :: ts =>
    let b := p.batch (t :: ts)
    if !s.config.formed || t.inHash.isNone || p.unfit || s.awaitsCheck h || !s.coresFree p.man.coreSet t.num ||
        s.unsettled p.man.coreSet || s.rangesShut p then s
    else if !s.clock.locked then s.modTask t.num (fun k => { k with waitsUnlocked := some (k.waitsUnlocked.getD s.clock.gt) })
    else if t.p ≠ 0 ∧ t.p ≠ p.stateHead then s.modTask t.num (fun k => k.finish stBadParam)
    else if twinQueued.any (fun k => s.twinTakes p k) then
      (s.passToTwin p t).modTask t.num (fun k => { k with state := .running, check := .twin, share := true })
    else if 1 < p.batchMax && p.windowUs != 0 && t.p == 0 && b.length < p.batchMax && !(byWindow && s.windowOver p t) then s
    else s.castOnMapped p (seated b) false 0
  | _, _ => s

/-- A task casts on, if it is the oldest of its pattern: R189. -/
def execTaskCastOn (task : CastOnFacts) (s : State) : Out :=
  match s.task task.task with
  | some t =>
    if (s.queued t.handle).head?.any (fun u => u.num == task.task) then done s (s.castOnOldest t.handle false (some task.twinQueued)) else done s s
  | none => done s s

/-- The batching window of a pattern closes, once window_us has passed since its oldest queued task could cast on: R369. -/
def execBatchingWindow (handle : Nat) (s : State) : Out := done s (s.castOnOldest handle true none)

/-- GT as a panel estimates it, or as T counts it while no region runs an estimate: R255, R267. -/
def State.panelGt (s : State) (p : Nat) : Nat :=
  match s.clock.regions[p]? with
  | some r => r.est / 2 ^ 32
  | none => s.clock.gt

/-- A core's estimate of GT reaches the start time: it and the task's other cores on its panel begin issue (R189, R266, R267). -/
def execStartTimeReached (core : CoreId) (s : State) : Out :=
  let n := core.toNat
  let c := s.core n
  match c.task.bind s.task, c.phase with
  | some t, .ready =>
    if t.start ≤ s.panelGt (n / 32) then
      done s ((t.coreSet.filter (fun m => m / 32 == n / 32)).foldl (fun s m =>
        s.modCore m (fun c => if c.phase = .ready ∧ c.task = some t.num then { c with phase := .running } else c)) s)
    else done s s
  | _, _ => done s s

/-! ### Cast-off of a core -/

/-- Every write that a core's rows issued becomes visible, in the order of its cycles: R190. -/
def State.landAll (s : State) (n : Nat) : State :=
  let c := s.core n
  s.landTo n (maxN (c.pipe.map (fun p => p.due))) c.pipe.length

/-- Cycles until the pipelines of a core have performed what its rows issued, words and credits on the tally network apart: R190. -/
def State.pipesLeft (s : State) (n : Nat) : Nat :=
  let c := s.core n
  maxN ((c.pipe.filter (fun p => !p.dst.isNetwork)).map (fun p => p.due) ++ c.mx.work.map (fun w => w.doneAt)) - s.cycle n

/-- The pipelines of a core past its `task.end` may perform what they have left: it is in no held turn, no rescale sequence is still to
run, and where its gang goes on issuing, they have performed it with the gang's rows (R41, R44, R75, R190). -/
def State.pipesEnd (s : State) (n : Nat) : Bool :=
  !s.stalled n && (s.core n).late.isEmpty && (s.core n).mx.work.all (fun w => w.rescales.isEmpty) &&
    ((s.issuing n).isEmpty || s.pipesLeft n == 0)

/-- A core that has ended reaches cast-off once its queues, its short path, its cable and its strands are empty; its pipelines
perform what its rows issued (R190). An output still counted in a range ends with its matrix row (R72). -/
def execCoreCastOff (core : CoreId) (s : State) : Out :=
  let n := core.toNat
  let c := s.core n
  if c.phase ≠ .ended ∨ !(c.queues.all (fun q => q.2.isEmpty)) ∨ !c.short.isEmpty ∨ c.cable.isSome ∨
      !(c.sends.all (fun e => e.2.queue.isEmpty)) ∨ !s.pipesEnd n then done s s
  else
    let s' := s.drainPass n (s.pipesLeft n)
    done s (s'.modCore n (fun c =>
      { c.countDown ((c.mx.work.filter (fun w => w.output)).flatMap (fun w => w.ranges)) with
        mx := { c.mx.close with work := [] }, phase := .castOff, atCastoff := true, held := none }))

/-! ### Cast-off of a task -/

/-- Status OK_STATE_RESTORED: R367. -/
def stRestored : Nat := 2

/-- Tallies that differ from their cast-on values are written back and recorded: R191. -/
def State.restoreTallies (s : State) (t n : Nat) : State × Bool :=
  let bad := (List.range 64).filter (fun k => s.tally n k != mget 0 (s.core n).tally0 k)
  (bad.foldl (fun s k =>
    let v : BitVec 32 := mget 0 (s.core n).tally0 k
    (s.emit 0x006A srcCP (leBytes 4 t ++ leBytes 1 n ++ leBytes 1 k ++ leBytes 4 (s.tally n k).toNat ++ leBytes 4 v.toNat)).setTally n k v) s,
   !bad.isEmpty)

/-- Bytes of a skein's messages that its owner has not read: R205, R217. -/
def Skein.unread (k : Skein) : Nat :=
  let m := 2 ^ 24 * k.size
  ((k.wraps * k.size + k.wrOff) + m - (k.rdWraps * k.size + k.rdOff) % m) % m

/-- Skeins with unread messages and FIFOs with words held are recorded: R217. -/
def State.residues (s : State) (t n : Nat) : State × Bool :=
  let sk := (s.core n).skeins.filter (fun k => k.2.enable && k.2.unread != 0)
  let ff := (s.core n).fifos.filter (fun f => !f.2.words.isEmpty)
  let s := sk.foldl (fun s k => s.emit 0x006B srcCP (leBytes 4 t ++ leBytes 1 n ++ leBytes 1 k.1 ++ leBytes 4 k.2.unread)) s
  (ff.foldl (fun s f => s.emit 0x006C srcCP (leBytes 4 t ++ leBytes 1 n ++ leBytes 1 f.1 ++ leBytes 1 f.2.words.length)) s,
   !(sk.isEmpty && ff.isEmpty))

/-- RESCALED, SATURATED and NONFINITE as the cores of a task leave them: R76, R87, R368. -/
def State.bitFlags (s : State) (cs : List Nat) : Nat :=
  let any (p : Core → Bool) : Bool := cs.any (fun n => p (s.core n))
  b2n (any (fun c => c.mx.rescales != 0)) + 2 * b2n (any (fun c => c.cvtSats != 0 || c.mx.accSats != 0 || c.mx.outSats != 0)) +
    4 * b2n (any (fun c => c.invalid != 0 || c.overflow != 0))

/-- D: SHA-384 over the 224-byte preimage of R316. -/
def resultDigest (modules : Nat) (image weights input : Hash) (seeds : List Byte) : Hash :=
  sha384 ([0x50, 0x4C, 0x44, 0x47, 1, 1] ++ leBytes 1 modules ++ [0] ++ hashBytes image ++ hashBytes weights ++
    hashBytes input ++ padTo 64 seeds ++ zeros 8)

/-- The result of a slot in the lead module's first role-2 range; none for a completion word that breaks R370. -/
def State.slotResult (s : State) (m : Manifest) (slot : Nat) : Option (List Byte) :=
  match m.firstRange 2 with
  | none => none
  | some r =>
    let a := r.base + slot * m.outSlot
    let w := leNat (Memory.readN s.hbm (a + m.outSlot - 8) 8)
    if m.outMax < w then none else some (Memory.readN s.hbm a w)

/-- Result flags that record how the task ran: R368. -/
def Task.runFlags (t : Task) (p : Pattern) (mirrored : Bool) : Nat :=
  8 * b2n (t.replays != 0) + 16 * b2n p.debug + 32 * b2n (decide (2 ≤ t.batch.length)) + 64 * b2n p.dual + 128 * b2n mirrored

/-- The result of a task stands: the format rule runs once, the state head moves, and the task is complete (R102 to R104, R318,
R368, R376). DESIGN CHOICE: R104 says how the rule meets a task's completion and not how it meets that of a batch of several; here it runs
once for the batch, with the first of its results that is delivered (entry 20). -/
def State.deliver (s : State) (t : Nat) (mirrored : Bool) : State :=
  match s.task t with
  | none => s
  | some k => match s.pattern k.handle with
    | none => s
    | some p =>
      let s := if k.ruleRan then s
        else (s.batchOf t).foldl (fun s m => s.modTask m (fun k => { k with ruleRan := true })) (s.formatRule p.man (k.flags.testBit 2))
      let s : State := { s with patterns := s.patterns.map (fun q =>
        if q.hash = p.hash then { q with stateHead := k.digest, stateLost := q.stateLost && k.p != 0 } else q) }
      s.modTask t (fun k => { k with state := .complete, check := .none,
                                     flags := k.flags % 8 + k.runFlags p mirrored })

/-- The run of one task of a batch has ended: its result, D and Q are kept; a bad completion word ends it, and a
cancelled slot's result is discarded (R316, R320, R362, R370). DESIGN CHOICE: the format rule does not run for a task without a result (R104;
entry 20). -/
def State.endRun (s : State) (p : Pattern) (t : Nat) (status flags gt : Nat) (remote : Option (List Byte)) : State :=
  match s.task t with
  | none => s
  | some k =>
    if k.cancelled then s.modTask t (fun k => k.finish stCancelled)
    else match (if s.leads then s.slotResult p.man k.slot else remote) with
    | none =>
      (s.emit 0x006F srcCP (leBytes 4 t ++ leBytes 1 (p.man.coreSet.headD 0) ++ leBytes 2 370 ++ leBytes 8 k.slot)).modTask t
        (fun k => k.finish stProgramFault)
    | some res =>
      let d := resultDigest s.config.n p.hash p.weights (k.inHash.getD 0) k.seeds
      let q := sha384 res
      s.modTask t (fun k => { k with status := status, flags := flags, result := res, digest := d, qHash := q, gtCastoff := gt,
                                     runs := k.runs ++ [(d, q)] })

/-- A run is to be repeated by TASK_REPLAY: R326, R382. -/
def Task.third (k : Task) : Task := { k with state := .replaying, replays := k.replays + 1, check := .third }

/-- Physical cores gain one mark each: R326, R381, R385. -/
def State.markCores (s : State) (ps : List Nat) : State := ps.foldl (fun s p => s.markUnit p) s

/-- DUAL after a run: wait for the second, compare, or decide by the third (R326). -/
def State.dualDecide (s : State) (ts : List Nat) : State :=
  let ks := ts.filterMap s.task
  let record (s : State) (k : Task) : State :=
    ((List.range k.runs.length).zip k.runs).foldl (fun s r =>
      s.emit 0x0067 srcCP (leBytes 4 k.num ++ leBytes 1 (r.1 + 1) ++ zeros 3 ++ hashBytes r.2.2)) s
  match (ks.map (fun k => k.runs.length)).headD 0 with
  | 0 => s
  | 1 => ts.foldl (fun s t => s.modTask t (fun k => { k with check := .second })) s
  | 2 =>
    if ks.all (fun k => match k.runs with
        | [a, b] => a.2 == b.2
        | _ => true) then ts.foldl (fun s t => s.deliver t false) s
    else ts.foldl (fun s t => s.modTask t Task.third) (ks.foldl record s)
  | _ => ks.foldl (fun s k => match k.runs, k.runCores with
      | [a, b, c], c1 :: c2 :: _ =>
        if c.2 = a.2 then (s.deliver k.num false).markCores (if b.2 = c.2 then [] else c2)
        else if c.2 = b.2 then (s.deliver k.num false).markCores c1
        else (record s k).modTask k.num (fun k => k.finish stDegraded)
      | _, _ => (record s k).modTask k.num (fun k => k.finish stDegraded)) s

/-- A mismatch is charged to a side; the third within 24 hours makes its modules suspect (R381). -/
def State.chargeSide (s : State) (side : Bool) : State :=
  let ms := (s.config.mismatches.filter (fun m => s.clock.gt < m.1 + gtDay)) ++ [(s.clock.gt, side)]
  let s := s.modConf (fun c => { c with mismatches := ms })
  let k := (ms.filter (fun m => m.2 == side)).length
  if side = s.config.side ∧ 3 ≤ k then
    (s.modConf (fun c => { c with suspect := true })).emit 0x0069 srcCP
      (leBytes 1 s.config.module ++ leBytes 1 (b2n side) ++ leBytes 1 k)
  else s

/-- Every load of an image has lost its carried state: R376, R381. -/
def State.loseState (s : State) (h : Nat) : State :=
  match s.pattern h with
  | none => s
  | some p => { s with patterns := s.patterns.map (fun q => if q.hash = p.hash then { q with stateLost := true } else q) }

/-- The third run of a MIRROR task decides: own and twin's votes stand first in its runs (R381). `result` is what the twin sends
where its result prevails on side 1. The agreeing side copies its carried state to the other, and where no side agrees the third vote is
recorded too (R379). -/
def State.mirrorDecide (s : State) (t : Nat) (result : List Byte) : State :=
  match s.task t with
  | none => s
  | some k => match k.runs with
    | [own, twin, c] =>
      if c = own then
        let s := (s.deliver t true).chargeSide (!s.config.side)
        match s.pattern k.handle with
        | some p => s.copyCarried p
        | none => s
      else if c = twin then
        let s := if s.config.side then s.modTask t (fun k => { k with result := result, digest := twin.1, qHash := twin.2 }) else s
        ((s.deliver t true).markCores (k.runCores.headD [])).chargeSide s.config.side
      else
        let s := s.emit 0x0068 srcCP (leBytes 4 t ++ leBytes 1 0 ++ zeros 3 ++ hashBytes c.1 ++ hashBytes c.2)
        ((((s.modTask t (fun k => k.finish stDegraded)).loseState k.handle).chargeSide false).chargeSide true)
    | _ => s

/-- The vote of a run, D and Q, goes to the twin over the twin links; that of a third run with the result, which side 1 delivers where it
prevails: R381. -/
def State.sendVote (s : State) (t : Nat) : State :=
  match s.task t with
  | some k => s.fwSend s.twinAddr (if k.runs.length = 3 then 4 else 1) t
      (hashBytes k.digest ++ hashBytes k.qHash ++ if k.runs.length = 3 then k.result else [])
  | none => s

/-- Every core of a task has reached cast-off and nothing of it is in flight: its poisoned words make it replay (R215); else its
tallies, skeins and FIFOs are checked (R191, R217), its result and digest formed, and the check of its pattern applied (R316,
R326, R381). -/
def execTaskCastOff (task : Nat) (peers : PeerReport) (s : State) : Out :=
  match s.task task with
  | none => done s s
  | some t => match s.pattern t.handle with
    | none => done s s
    | some p =>
      let cs := s.coresOf task
      let ready := t.live && !cs.isEmpty && cs.all (fun n => (s.core n).phase == .castOff && (s.core n).rels.isEmpty) &&
        !s.flight.any (fun x => x.origin.byCores cs)
      let s0 := s
      let s := cs.foldl (fun s n => s.landAll n) s
      if !ready then done s0 s0
      else if t.poisoned || peers.poisoned then
        match cs.find? (fun n => (s.core n).fifos.any (fun f => 0 < f.2.poisoned)) with
        | some n => done s (if t.poisoned then s.coreError (s.physOf n) 4 else s.detected task 4 0xFFFF)
        | none => done s (s.detected task 4 0xFFFF)
      else
        let (s1, r1) := cs.foldl (fun a n =>
          let (s, b) := a.1.restoreTallies task n
          let (s, c) := s.residues task n
          (s, a.2 || b || c)) (s, peers.restored)
        let fl := s.bitFlags cs ||| (peers.flags % 8)
        let gt := if s.leads then s.clock.gt else peers.gt
        let ts := s.liveOf task
        let s2 := ts.foldl (fun s m => s.endRun p m (if r1 then stRestored else 0) fl gt
          (((s.task m).map (fun k => k.slot)).bind (fun i => peers.results[i]?))) s1
        let s3 := (s2.freeCores cs).boundary p.man
        let ts := ts.filter (fun m => (s3.task m).any Task.live)
        if p.dual then done s (s3.dualDecide ts)
        else if p.twin = 1 then
          let voted := if s.twinLinked then ts.foldl State.sendVote s3 else s3
          if t.runs.length = 2 then done s (ts.foldl (fun s m => s.mirrorDecide m []) voted)
          else if s.twinLinked then done s (ts.foldl (fun s m => s.modTask m (fun k => { k with check := .vote })) voted)
          else done s (ts.foldl (fun s m => s.deliver m false) s3)
        else done s (ts.foldl (fun s m => s.deliver m false) s3)

/-! ### Replay and the checks -/

/-- A second mapping on working cores that the first run did not have and that no other reserved logical core has, in ring order: R243,
R326. -/
def State.secondMap (s : State) (cs first : List Nat) (panel : Nat) : List (Nat × Nat) :=
  let used := first ++ ((onPanel (reservedBy s.images) panel).filter (fun n => !cs.contains n)).map s.physOf
  (onPanel cs panel).zip ((s.workingOn panel).filter (fun p => !used.contains p))

/-- The first mapping with every suspect core of the first run passed over where the panel has the cores: R326 (entry 21). -/
def State.cleanMap (s : State) (suspects : List Nat) (panel : Nat) : List (Nat × Nat) :=
  let w := (s.workingOn panel).filter (fun p => !(suspects.contains p && decide (0 < (s.unit p).marks)))
  if 32 ≤ w.length then ((List.range 32).map (fun i => 32 * panel + i)).zip w else s.ringMap panel 0

/-- Cast a task on again from its retained copy, on the mapping its run asks for (R324, R326, R382), once no running task of another
pattern would have to move (R12). -/
def State.recast (s : State) (p : Pattern) (t : Task) : State :=
  let s0 := s
  let members := (s.liveOf t.num).filterMap s.task
  let cs := p.man.coreSet
  let free := (s.freeCores cs).boundary p.man
  let recastOn (m : List (Nat × Nat)) (replay : Bool) : State :=
    if !cs.all (fun n => m.any (fun e => e.1 == n)) then free.unmapped p (members.map (fun k => k.num))
    else if free.mayRemap m then (free.remap m).castOn p members replay else s0
  if p.dual ∧ t.runs.length = 1 then recastOn (free.mapFor cs (free.secondMap cs (t.runCores.headD []))) (t.state == .replaying)
  else if p.dual ∧ t.runs.length = 2 then recastOn (free.mapFor cs (free.cleanMap (t.runCores.headD []))) true
  else s.castOnMapped p members true (if p.twin = 1 ∧ t.runs.length = 2 then 1 else 0)

/-- Whether a task leads what runs together: it is the first that has not ended (R369). -/
def State.leadsBatch (s : State) (t : Task) : Bool := (s.liveOf t.num).head? == some t.num

/-- Whether a task waits to be cast on again: stopped by a detected error, or chosen for a third run (R324, R326, R382). -/
def State.awaitsReplay (s : State) (t : Task) (p : Pattern) : Bool :=
  t.state == .replaying && (t.check == .none || (t.check == .third && !(p.twin == 1 && s.config.side))) &&
    s.leadsBatch t && ((s.liveOf t.num).flatMap s.coresOf).all (fun n => (s.core n).phase == .stopped)

/-- A task stopped by a detected error is cast on again: R324, R325, R374. -/
def execTaskReplay (task : Nat) (s : State) : Out :=
  match s.task task with
  | none => done s s
  | some t => match s.pattern t.handle with
    | none => done s s
    | some p =>
      if !s.awaitsReplay t p || !s.config.formed || !s.coresFree p.man.coreSet task || s.unsettled p.man.coreSet ||
          s.rangesShut p then done s s
      else if !s.clock.locked then
        done s (s.modTask task (fun k => { k with waitsUnlocked := some (k.waitsUnlocked.getD s.clock.gt) }))
      else done s (s.recast p t)

/-- A DUAL task runs again on a disjoint set of cores; a module whose time is not locked makes it wait, as any cast-on (R259, R326). -/
def execDualSecondRun (task : Nat) (s : State) : Out :=
  match s.task task with
  | none => done s s
  | some t => match s.pattern t.handle with
    | none => done s s
    | some p =>
      if t.check ≠ .second ∨ !t.live ∨ !s.config.formed ∨ !s.coresFree p.man.coreSet task ∨ !s.leadsBatch t ∨ s.rangesShut p then done s s
      else if !s.clock.locked then
        done s (s.modTask task (fun k => { k with waitsUnlocked := some (k.waitsUnlocked.getD s.clock.gt) }))
      else done s (s.recast p t)

/-- The twin's vote arrives: equal votes deliver the result, unequal ones are recorded and a third run decides; on side 1 the third
run's vote comes from side 0 (R381). The result of a task that the twin ran is taken as the twin sends it, with MIRRORED clear and no flag
of its bits known (R378, R383; entry 44). -/
def execMirrorVote (task : Nat) (d q : Hash) (result : List Byte) (s : State) : Out :=
  match s.task task with
  | none => done s s
  | some t =>
    match t.check with
    | .vote =>
      if (d, q) = (t.digest, t.qHash) then done s (s.deliver task true)
      else
        let ev (s : State) (side : Bool) (d q : Hash) : State :=
          s.emit 0x0068 srcCP (leBytes 4 task ++ leBytes 1 (b2n side) ++ zeros 3 ++ hashBytes d ++ hashBytes q)
        let s' := ev (ev s s.config.side t.digest t.qHash) (!s.config.side) d q
        done s (s'.modTask task (fun k => { k.third with runs := [(k.digest, k.qHash), (d, q)] }))
    | .third =>
      if s.config.side then
        done s ((s.modTask task (fun k => { k with runs := k.runs ++ [(d, q)] })).mirrorDecide task result)
      else done s s
    | .twin =>
      let s' := s.modTask task (fun k =>
        { k with result := result, digest := d, qHash := q, status := 0, flags := 0, gtCastoff := s.clock.gt, ruleRan := true })
      done s (s'.deliver task false)
    | .none | .second => done s s

/-! ### Input and stalemate -/

/-- The last input byte has landed, and I is final: R318, R319. -/
def execInputHash (task : Nat) (s : State) : Out :=
  done s (s.modTask task (fun t =>
    if t.inHash.isNone ∧ t.state = .queued then { t with inHash := some (sha384 (hashBytes t.p ++ t.input)) } else t))

/-- Whether a STRAND_REQ to another module still waits for credit, retry or retrain of its link: R342. -/
def State.onLink (s : State) (x : Txn) : Bool :=
  let mine (m : LinkMsg) : Bool := match m with
    | .txn .strandReq core _ _ tag _ _ dst _ => core == x.core && tag == x.aux % 65536 && dst == x.dst
    | _ => false
  x.port.any (fun p => (s.port p).txQ.any (fun w => mine w.msg) || (s.port p).unacked.any (fun f => mine f.msg))

/-- Operations of these cores that can progress without a row, loader writes and their signals among them: R193, R236, R342. -/
def State.inFlight (s : State) (cs : List Nat) : Bool :=
  s.flight.any (fun x => x.origin.byCores cs &&
    !(x.kind == .strandReq && x.port.isSome && !s.onLink x)) ||
  cs.any (fun n =>
    let c := s.core n
    c.queues.any (fun q => !q.2.isEmpty) || !c.short.isEmpty || c.rels.any (fun r => r.waits.isEmpty) ||
    c.pipe.any (fun p => p.dst.isNetwork) || c.held.any (fun h => h.granted && !h.arrived) ||
    c.loadDone || ((s.taskOf n).bind (fun t => s.pattern t.handle)).any (fun p => !c.flipList.isEmpty && c.bankDue p n) ||
    c.sends.any (fun e => e.2.queue.head?.any (fun m => m.unacked == some 0)) ||
    c.skeins.any (fun k => k.2.grants.head?.any (fun g => g.left == 0) ||
      (k.2.enable && k.2.reqs.head?.any (fun r => (k.2.serve r.g).isSome))) ||
    (match c.cable with
     | some k => k.waiting &&& k.stages != k.stages
     | none => false))

/-- Whether a core is held with cause BREAK: R249. -/
def Core.broken (c : Core) : Bool := c.held.any (fun h => h.broke || h.cause == 0xE)

/-- row_tag of the row that a core is held on: R194. -/
def Core.heldTag (c : Core) : Nat :=
  match c.pastCheck with
  | k :: _ => k.tag
  | [] => c.held.elim 0 (fun h => h.tag)

/-- STALEMATE and the STALEMATE_CORE of each core: R194. -/
def State.recordStalemate (s : State) (task : Nat) (cs : List Nat) : State :=
  cs.foldl (fun s n =>
    s.emit 0x006E srcCP (leBytes 4 task ++ leBytes 1 n ++ leBytes 1 (s.core n).heldTag ++ leBytes 8 (s.holdCause n) ++
      leBytes 8 (s.tallyStat n) ++ (List.range 32).map (fun r => BitVec.ofNat 8 (mget {} (s.core n).ranges r : Range).outstanding)))
    (s.emit 0x006D srcCP (leBytes 4 task ++ leBytes 2 cs.length))

/-- Every core of a task has been quiet for 2^20 cycles and nothing of it is in flight: the task is stopped, recorded and ended with
STALEMATE (R192 to R194). A BREAK hold keeps the detector from firing, and a task stopped for its replay is in no stalemate (R17). -/
def execStalemate (task : Nat) (s : State) : Out :=
  match s.task task with
  | none => done s s
  | some t =>
    let cs := s.coresOf task
    if !t.live || cs.isEmpty || cs.any (fun n => (s.core n).phase == .stopped) || !cs.all (fun n => decide (2 ^ 20 ≤ (s.core n).quiet)) || cs.all (fun n => (s.core n).phase == .castOff) ||
        s.inFlight cs || cs.any (fun n => (s.core n).broken) then done s s
    else done s ((s.recordStalemate task cs).endTask task 0x30)

end Sys2Proof.Machine
end

