-- ==== Sys2Proof/Machine/Link.lean ====
section
/-!
DEFINITION. Oalan ports and configurations (R327 to R344, R380, R384): training and retraining, flits received and replayed,
what arrives by a link, ports that fail, formation, heartbeats, and the loss of a module or of the twin.
-/

namespace Sys2Proof.Machine

/-! ### Wiring and formation -/

/-- The number a module has in its cycle's order: `n - 1`, then j, j + 1, j - 1, j + 2, ... modulo m: R335. -/
def cycleOrder (n j : Nat) : List Nat :=
  let m := n - 1
  m :: (List.range m).map (fun i => if i % 2 = 1 then (j + (i + 1) / 2) % m else (j + m - i / 2) % m)

/-- The peer module and port that mesh port `p` of module `a` joins; none where it is UNUSED: R335. -/
def meshPeer (n a p : Nat) : Option (Nat × Nat) :=
  if n < 2 ∨ 30 < p then none
  else if n % 2 = 0 then
    let j := p % (n - 1)
    some (if a = n - 1 then j else if a = j then n - 1 else (2 * j + (n - 1) - a) % (n - 1), p)
  else if p = 30 then none
  else
    let o := cycleOrder n ((p / 2) % ((n - 1) / 2))
    let i := o.idxOf a
    if p % 2 = 0 then some (o.getD ((i + 1) % n) 0, p + 1) else some (o.getD ((i + n - 1) % n) 0, p - 1)

/-- Degree d: R335. -/
def meshDegree (n : Nat) : Nat := if n < 2 then 0 else if n % 2 = 0 then 31 else 30

/-- Whether the optics have their supply, so that ports can train: R332, R432. -/
def State.linksPowered (s : State) : Bool := 8 ≤ s.boot.rails

/-- A port's flit streams in both directions start anew, its spare lanes are idle, and it carries nobody else's streams: R280, R285, R331,
R333, R336, R343. -/
def Port.fresh (x : Port) : Port :=
  { x with txSeq := 0, rxSeq := 0, unacked := [], oldest := 0, naked := false, partChunks := [], txQ := [],
           credits := [256, 256, 64, 128], lastSel := [256, 256, 256, 256], skipped := [0, 0, 0, 0], owed := [0, 0, 0, 0],
           attempts := 0, spareFor := 15, noSpare := false, txSpareFor := 15, relay := false, spareActive := false,
           lowChecks := [], swapReq := none, swapTx := none, swapRx := none, swapHeld := none }

/-- A port is MISWIRED and recorded: R332, R416. -/
def State.miswire (s : State) (p : Nat) : State :=
  let x := s.port p
  (s.modPort p (fun x => { x with state := .miswired })).emit 0x0052 srcCP
    (leBytes 2 (uPort p) ++ leBytes 1 x.peerModule ++ leBytes 1 (b2n x.peerSide) ++ leBytes 1 x.peerPort)

/-! ### Loss of the module, of another, or of the twin -/

/-- The module becomes the time lead if R257 chooses it: its own time is then the reference, carried by no port (R256, R257, R259). -/
def State.judgeLead (s : State) : State :=
  let c := s.config
  if c.lead = c.module ∧ (!c.side ∨ !c.twin ∨ c.twinLost) then
    (s.modClock (fun k => { k with isLead := true, locked := true, srcPort := 63, twoHop := false })).relocked
  else s

/-- The tasks that are not complete. -/
def State.openTasks (s : State) : List Nat :=
  (s.tasks.filter (fun t => t.live || t.state == .queued)).map (fun t => t.num)

/-- This module is lost: its cores stop, its sessions and tasks go without a reply, and it belongs to no configuration until the
next formation (R303, R309, R380). -/
def State.selfLost (s : State) : State :=
  let s := s.stopCores ((List.range 256).filter (fun n => (s.core n).task.isSome))
  { s with flight := [], sessions := [], tasks := [], fwStore := [],
           cores := s.cores.map (fun c => (c.1, { c.2 with task := none, phase := .idle })),
           config := { s.config with formed := false, n := 0, degree := 0, relayed := [] } }

/-- A task is replayed for the loss of a module: R379, R380. REPLAY names no unit for it (entry 24). -/
def State.replayLost (s : State) (t : Nat) : State :=
  match s.task t with
  | none => s
  | some k => if k.live then s.detected t 0 0xFFFF else s

/-- A task that the lost twin ran is replayed here from its retained copy: R384. -/
def State.takeBack (s : State) (t : Nat) : State :=
  match s.task t with
  | none => s
  | some k =>
    (s.modTask t (fun k => { k with state := .replaying, check := .none, replays := k.replays + 1 })).emit 0x0065 srcCP
      (leBytes 4 t ++ leBytes 1 (k.replays + 1) ++ leBytes 1 0 ++ leBytes 2 0xFFFF)

/-- The twin is lost: a task still voting is delivered from this side with MIRRORED clear, tasks that it ran are replayed here, and this
side runs on alone, with a time lead of its own (R257, R259, R384). -/
def State.loseTwin (s : State) : State :=
  if !s.config.twin ∨ s.config.twinLost then s
  else
    let s := (s.modConf (fun c => { c with twinLost := true })).judgeLead
    let s := (s.tasks.filter (fun t => t.check == .vote && t.live)).foldl (fun s t => s.deliver t.num false) s
    (s.tasks.filter (fun t => t.check == .twin && t.live)).foldl (fun s t => s.takeBack t.num) s

/-- Whether every mesh port that the configuration uses has FAILED: R380. -/
def State.meshDead (s : State) : Bool :=
  let mesh := (List.range 31).filter (fun p => (s.port p).state != .unused)
  !mesh.isEmpty && mesh.all (fun p => (s.port p).state == .failed)

/-! ### Ports that fail -/

/-- Where a waiting message is bound: its home, or its requester for what returns there (R330, R337). -/
def LinkMsg.toward (m : LinkMsg) (own : Bool) : Nat :=
  match m with
  | .txn .readResp _ module side _ _ _ _ _ | .txn .writeAck _ module side _ _ _ _ _
  | .txn .strandGrant _ module side _ _ _ _ _ => 2 ^ 63 + (if side = own then 0 else 2 ^ 62) + module * 2 ^ 56
  | .txn _ _ _ _ _ _ _ dst _ => dst
  | .beacon | .flit _ | .swapReq _ | .swapAt _ _ | .swapDone _ | .auth _ => 0

/-- What waited at a failed port goes on by another, under its own selector; with none left it is dropped, and leaves the relay buffer it
took: R333, R337, R338. -/
def State.moveWaiting (s : State) (w : Waiting) : State :=
  match s.outPort w.sel (w.msg.toward s.config.side), w.via with
  | some q, _ => s.portWait q w
  | none, some v => s.modPort v (fun y => y.owe w.cls w.msg.units)
  | none, none => s

/-- The tasks with a transaction unacknowledged on a port are stopped for replay, and what others had on it is lost: R338. -/
def State.dropLink (s : State) (p cause unit : Nat) : State :=
  let hit := s.flight.filter (fun t => t.port == some p && t.origin != .outside)
  let s : State := { s with flight := s.flight.filter (fun t => !(t.port == some p && t.origin == .outside)) }
  let tasks := (s.tasks.filter (fun t => t.live && hit.any (fun f => f.origin.byCores (s.coresOf t.num)))).map (fun t => t.num)
  tasks.foldl (fun s t => s.detected t cause unit) s

/-- A port enters FAILED (R332, R336, R338): it is recorded, tasks with a transaction unacknowledged on it are stopped for replay,
its streams move to the peer's other ports, to port 35 or to a relay, what it held unacknowledged is lost, and other modules are told of a
peer that no port reaches any longer (entry 44). The twin is lost with its last port (R384), and the module with its last mesh port (R380). -/
def State.failPort (s : State) (p : Nat) : State :=
  let x := s.port p
  let s := (s.modPort p (fun x => { x with state := .failed, unacked := [], txQ := [], partChunks := [] })).emit 0x0051 srcCP
    (leBytes 2 (uPort p) ++ leBytes 1 x.peerModule ++ leBytes 1 (b2n x.peerSide))
  let s := if 31 ≤ p ∧ p < 35 then s.modPort 35 (fun x => { x with spareActive := true }) else s
  let s := (s.dropLink p 0x07 (uPort p)).noteRelays
  let s := if p < 31 ∧ s.config.formed ∧ (s.portsTo x.peerModule false).isEmpty then s.fwTell 6 0 (leBytes 4 x.peerModule) else s
  let s := x.txQ.foldl State.moveWaiting s
  let s := if (List.range 5).all (fun i => (s.port (31 + i)).state == .failed) then s.loseTwin else s
  if s.config.formed ∧ s.meshDead then s.selfLost else s

/-- A port moves to RETRAIN: R332. `cause`: 0 alignment, 1 replays, 2 lane (R416). -/
def State.toRetrain (s : State) (p cause : Nat) : State :=
  (s.modPort p (fun x => { x with state := .retrain, retrains := satAdd (2 ^ 16 - 1) x.retrains 1, attempts := 0 })).emit
    0x0050 srcCP (leBytes 2 (uPort p) ++ leBytes 1 cause)

/-! ### Training -/

/-- Whether a peer's identity keeps R335 and R336 as far as the port alone shows: a mesh port leads to another module of the own
side and, once n is known, to the one the wiring names; a twin port to the same port of the own number on the other side. -/
def State.wired (s : State) (p peer : Nat) (side : Bool) (peerPort : Nat) : Bool :=
  if p ≤ 30 then
    side == s.config.side && peer != s.config.module &&
      (!s.config.formed || meshPeer s.config.n s.config.module p == some (peer, peerPort))
  else side != s.config.side && peer == s.config.module && peerPort == p

/-- The module answers its peer's CHALLENGE with a signature under its identity key: R334, R390. -/
def State.authenticate (s : State) (p : Nat) (messages : List Byte) : State :=
  { s with linkOut := s.linkOut ++ [(p, .auth (spdmSign 0 challengeContext messages))] }

/-- A training attempt of a port ends: UP, MISWIRED, or FAILED after three attempts (R332, R334, R335, R336). Only a
DOWN or TRAIN port trains; the others wait for the next formation. The two ends authenticate each other (R390). -/
def execTrainAttempt (port : PortId) (r : TrainResult) (s : State) : Out :=
  let p := port.toNat
  let x := s.port p
  let trains := match x.state with
    | .down | .train => true
    | .unused | .failed | .miswired | .up | .retrain => false
  if 36 ≤ p ∨ !trains ∨ !s.linksPowered then done s s
  else match r with
    | .failed =>
      if 3 ≤ x.attempts + 1 then done s ((s.modPort p (fun x => { x with attempts := 3 })).failPort p)
      else done s (s.modPort p (fun x => { x with state := .train, attempts := x.attempts + 1 }))
    | .up m side pp ok messages =>
      let s' := (s.authenticate p messages).modPort p (fun x => { x.fresh with state := .up, peerModule := m.toNat, peerSide := side, peerPort := pp, aligned := s.clock.gt })
      if ok && s.wired p m.toNat side pp then done s s'.noteRelays else done s (s'.miswire p)

/-- FEC alignment or a lane is lost: the port retrains, and keeps its retry buffer and sequence numbers (R332). A lane counts as
the cause where the spare is already in use. -/
def execRetrain (port : PortId) (lane : Bool) (s : State) : Out :=
  let p := port.toNat
  if (s.port p).state = .up then done s (s.toRetrain p (if lane ∧ (s.port p).spareFor ≠ 15 then 2 else 0)) else done s s

/-- The unacknowledged flits go out again from the oldest, in order: R331. -/
def State.replayPort (s : State) (p : Nat) : State :=
  let x := s.port p
  { s.modPort p (fun x => { x with replays := satAdd (2 ^ 32 - 1) x.replays x.unacked.length }) with
    linkOut := s.linkOut ++ x.unacked.map (fun f => (p, .flit (x.dataFlit [0, 0, 0, 0] f))) }

/-- A retraining attempt ends: UP and replay, or FAILED after three in a row: R332. -/
def execRetrainAttempt (port : PortId) (ok : Bool) (s : State) : Out :=
  let p := port.toNat
  let x := s.port p
  if x.state ≠ .retrain then done s s
  else if ok then
    done s (((s.modPort p (fun x => { x with state := .up, attempts := 0, oldest := 0 })).replayPort p).drainPort p)
  else if 3 ≤ x.attempts + 1 then done s (s.failPort p)
  else done s (s.modPort p (fun x => { x with attempts := x.attempts + 1 }))

/-- arch_rev of this architecture: R334. -/
def archRev : Nat := 1

/-- n: one more than the highest module number that a mesh port reports: R334. -/
def State.moduleCount (s : State) : Nat :=
  maxN (((List.range 31).filter (fun p => (s.port p).state == .up || (s.port p).state == .retrain)).map (fun p => (s.port p).peerModule + 1) ++
    [1])

/-- Whether the modules agree: the numbers of this side are 0 to n - 1, and every peer, those of the twin's side among them, has the same n
and the same architecture revision (R334, R336). -/
def State.agreed (s : State) (peers : List PeerId) : Bool :=
  let n := s.moduleCount
  let nums := s.config.module :: (peers.filter (fun q => q.side == s.config.side)).map (fun q => q.module.toNat)
  (List.range n).all (fun m => nums.contains m) && nums.all (fun m => decide (m < n)) &&
    peers.all (fun q => q.n == n && q.arch == archRev)

/-- A formation begins: every port starts anew and trains, tasks with a transaction on a link are stopped for replay, and no configuration is
formed until it ends (R332, R334). DESIGN CHOICE: what waits on a link then is lost with it, as in R338 (entry 22). -/
def State.formationBegins (s : State) : State :=
  let s := (List.range 36).foldl (fun s p => s.dropLink p 0 0xFFFF) s
  let s := (List.range 36).foldl (fun s p => s.modPort p (fun x => { x.fresh with state := .train })) s
  s.modConf (fun c => { c with formed := false, n := 0, degree := 0, relayed := [], farDown := [] })

/-- GT steps to the largest of the configuration; the flit slots of ports in use count on from where they were (R257, R280). -/
def State.stepGt (s : State) (top : Nat) : State :=
  if s.clock.gt < top then
    let d := top - s.clock.gt
    let s := (s.modClock (fun c => { c with gt := top })).emit 0x0020 srcCP (leBytes 8 d)
    { s with ports := s.ports.map (fun x => (x.1, { x.2 with aligned := x.2.aligned + d })) }
  else s

/-- The roles of the ports in a configuration: a mesh port without a partner and twin ports without a twin are UNUSED, and one that leads
elsewhere than R335 says is MISWIRED (R332, R335, R336). -/
def State.portRoles (s : State) (n : Nat) (twin : Bool) : State :=
  (List.range 36).foldl (fun s p =>
    let x := s.port p
    if p ≤ 30 then
      match meshPeer n s.config.module p with
      | none => s.modPort p (fun x => { x with state := .unused })
      | some e => if x.state = .up ∧ e ≠ (x.peerModule, x.peerPort) then s.miswire p else s
    else if twin then s else s.modPort p (fun x => { x with state := .unused })) s

/-- A formation begins, or the modules agree on n, step GT to the largest value, take their roles and record CONFIG_FORMED (R257, R332,
R334 to R336, R344). A twin that returns gets the carried state of the survivor (R384). Where they do not agree, the module stays unformed
and its ports begin anew; in a boot, that is recorded as a failure of step 5 (R399). -/
def execConfigFormation (begins : Bool) (peers : List PeerId) (s : State) : Out :=
  if !s.linksPowered then done s s
  else if begins then done s s.formationBegins
  else if !s.agreed peers then
    let s' := s.modConf (fun c => { c with formed := false, n := 0, degree := 0, relayed := [] })
    let s' := if s.config.formations = 0 then s'.emit 0x0010 srcCP (leBytes 1 5 ++ zeros 5) else s'
    done s ((List.range 36).foldl (fun s p => match (s.port p).state with
      | .unused | .failed | .miswired => s.modPort p (fun x => { x with state := .train, attempts := 0 })
      | .down | .train | .up | .retrain => s) s')
  else
    let n := s.moduleCount
    let twin := (List.range 36).any (fun p => 31 ≤ p && (s.port p).state == .up)
    let s' := (s.stepGt (maxN (peers.map (fun q => q.gt)))).portRoles n twin
    let s' := s'.modConf (fun c => { c with n := n, degree := meshDegree n, formed := true, formations := (c.formations + 1) % 2 ^ 32,
                                            lead := 0, lost := [], farDown := [], twin := twin, twinLost := false })
    let s' := (s'.modClock (fun c => { c with isLead := false, passed := [] })).judgeLead
    let s' : State := { s' with ports := s'.ports.map (fun x => (x.1, { x.2 with relay := false })) }
    let s' := if s.config.twinLost ∧ twin then (s'.patterns.filter (fun p => p.twin != 0)).foldl State.copyCarried s' else s'
    done s (s'.noteRelays.emit 0x0053 srcCP
      (leBytes 1 n ++ leBytes 1 (b2n s.config.side) ++ leBytes 1 (meshDegree n) ++ leBytes 1 (b2n twin)))

/-! ### What arrives by a link -/

/-- The kind that a transaction header names: R330. -/
def kindOf (t : Nat) : Option TxKind :=
  match t with
  | 1 => some .readReq
  | 2 => some .readResp
  | 3 => some .write
  | 4 => some .writeAck
  | 5 => some .tallyAdd
  | 6 => some .strandReq
  | 7 => some .strandGrant
  | 8 => some .strandData
  | 9 => some .fwMsg
  | _ => none

/-- Whether an arriving answer is one that a transaction of this module waits for. -/
def Txn.awaits (x : Txn) (k : TxKind) (core tag : Nat) : Bool :=
  x.port.isSome && x.origin != .outside && x.core == core && x.id % 65536 == tag &&
  (match k, x.kind with
   | .readResp, .readReq | .writeAck, .write | .writeAck, .tallyAdd | .writeAck, .strandData => true
   | _, _ => false)

/-- A response or acknowledgement for this module: read data gather until the read is whole; answers that nothing waits for are dropped
(R330, R341, R388). -/
def State.answered (s : State) (k : TxKind) (core tag : Nat) (data : List Byte) : State :=
  match s.flight.find? (fun x => x.awaits k core tag) with
  | none => s
  | some x =>
    if k = .readResp then
      let d := x.data ++ data
      if x.len ≤ d.length then
        { s with flight := s.flight.map (fun y =>
            if y.id = x.id ∨ y.follows = some x.id then { y with kind := .readResp, data := d.take x.len, follows := none } else y) }
      else s.modTxn x.id (fun y => { y with data := d })
    else
      let direct : Bool := match x.origin with
        | .firmware => true
        | .short _ _ => false
        | _ => x.kind == .tallyAdd
      if direct then s.dropTxn x.id else (s.modTxn x.id (fun y => { y with kind := .writeAck })).performed x

/-- A grant of a skein in another module: the WRAP record's position comes first, under flag 0, then the message's (R203, R330;
entry 17). -/
def State.farGrant (s : State) (core ep : Nat) (wrapped : Bool) (dst : Nat) : State :=
  let mine (x : Txn) : Bool := x.kind == .strandGrant && x.origin == .strand core ep 0
  if wrapped then s.send { id := 0, kind := .strandGrant, core := core, dst := dst, origin := .strand core ep 0 }
  else
    let s : State := { s with flight := s.flight.filter (fun x => !(x.kind == .strandReq && x.port.isSome && x.core == core &&
      x.origin != .outside && x.aux / 256 == ep && (((s.core core).ep ep).ungranted.any (fun m => x.origin == .strand core ep m.id)))) }
    match s.flight.find? mine with
    | some w =>
      let s' := s.dropTxn w.id
      match ((s'.core core).ep ep).ungranted with
      | none => s'
      | some m => (s'.sendBursts core ep m.id w.dst (s'.wrapBytes core ep m)).sendBursts core ep m.id dst (s'.msgBytes core ep m)
    | none => s.granted core ep dst none 0

/-- A transaction is passed on toward a module that no direct port of its requester reaches, in its own class; it takes the receive buffer
it came by until it goes on, and the ports it uses are marked (R333, R338). -/
def State.forward (s : State) (p : Nat) (m : LinkMsg) (a : Nat) : State :=
  match s.outPort m.selector a with
  | none => s.modPort p (fun x => x.owe m.cls m.units)
  | some q => ((s.modPort p (fun x => { x with relay := true })).modPort q (fun x => { x with relay := true })).portWait q
      { cls := m.cls, msg := m, sel := m.selector, via := some p }

/-- A whole transaction has arrived by port `p`: what belongs to this module is in flight here until its own step performs it
and its receive buffer is free (R330, R333, R337 to R339); the rest is relayed. -/
def State.arrive (s : State) (p : Nat) (h data : List Byte) : State :=
  match kindOf (leAt h 0 1) with
  | none => s
  | some k =>
    let core := leAt h 2 1
    let module := field (leAt h 3 1) 4 0
    let side := bitOf (leAt h 3 1) 5
    let tag := leAt h 4 2
    let len := 8 * (leAt h 6 1 + 1)
    let vol := bitOf (leAt h 7 1) 0
    let dst := leAt h 8 8
    let data := data.take (if k = .tallyAdd ∨ k = .fwMsg then 256 else len)
    let msg : LinkMsg := .txn k core module side tag len vol dst data
    let back := k == .readResp || k == .writeAck || k == .strandGrant
    let home := 2 ^ 63 + (if side = s.config.side then 0 else 2 ^ 62) + module * 2 ^ 56
    let toOwnSide := (side == s.config.side) != dst.testBit 62
    let freed := s.modPort p (fun x => x.owe msg.cls msg.units)
    if back then
      if module = s.config.module ∧ side = s.config.side then
        (if k = .strandGrant then freed.farGrant core tag vol dst else freed.answered k core tag data)
      else s.forward p msg home
    else if toOwnSide && field dst 61 56 == s.config.module then
      freed.send
        { id := 0, kind := k, core := core, module := module, side := side, vol := vol, dst := dst, len := len, data := data,
          origin := .outside, port := some p, aux := tag }
    else s.forward p msg (if toOwnSide then dst % 2 ^ 62 + 2 ^ 63 else dst)

/-- The transactions in a chunk stream, `fuel` at most, and the chunks of one not yet whole; PAD fills the rest of its flit
(R329, R330). -/
def State.takeChunks (s : State) (p : Nat) : Nat → List Byte → State × List Byte
  | 0, bs => (s, bs)
  | f + 1, bs =>
    if bs.length < 16 then (s, [])
    else
      let k := field (leAt bs 1 1) 4 0
      if (kindOf (leAt bs 0 1)).isNone then (s, [])
      else if bs.length < 16 * (1 + k) then (s, bs)
      else State.takeChunks (s.arrive p (bs.take 16) (slice bs 16 (16 * k))) p f (bs.drop (16 * (1 + k)))

/-- Every flit up to `ack` is acknowledged: R331. -/
def Port.ackTo (x : Port) (ack : Nat) : Port :=
  if x.unacked.any (fun f => f.seq == ack) then { x with unacked := (x.unacked.dropWhile (fun f => f.seq != ack)).drop 1, oldest := 0 } else x

/-- The sender replays from the oldest unacknowledged flit; the eighth replay of one flit in a row retrains the port (R331,
R332). -/
def State.goBack (s : State) (p : Nat) : State :=
  if (s.port p).unacked.isEmpty then s
  else
    let s := (s.modPort p (fun x => { x with oldest := x.oldest + 1 })).replayPort p
    if 8 ≤ (s.port p).oldest then s.toRetrain p 1 else s

/-- A SWAP_REQ goes out on the reverse direction: R280, R281. -/
def State.askSwap (s : State) (p lane : Nat) : State :=
  let s := s.modPort p (fun x => { x with swapReq := some lane, swapGt := s.clock.gt, swapHeld := none })
  { s with linkOut := s.linkOut ++ [(p, .swapReq lane)] }

/-- The replay of a direction has ended: the SWAP_REQ held for it goes out (R281). -/
def State.releaseSwap (s : State) (p : Nat) : State :=
  match (s.port p).swapHeld with
  | some lane => if (s.port p).spareFor = 15 then s.askSwap p lane else s.modPort p (fun x => { x with swapHeld := none })
  | none => s

/-- A flit is accepted in order, or rejected with one nak in an idle flit; its ack and credits are taken, and its chunks delivered (R329,
R331, R333, R343). What has come is acknowledged in the next flit, an idle one where no other goes out. An idle flit carries the next
sequence number and does not advance it (entry 16). -/
def execFlitReceive (port : PortId) (flit : List Byte) (fec : FecFact) (s : State) : Out :=
  let p := port.toNat
  let x := s.port p
  if x.state ≠ .up then done s s
  else
    let b := padTo 256 flit
    let crcOk := leAt b 252 4 == (crc32 (b.take 252)).toNat
    let seq := field (leAt b 0 2) 11 0
    let good := !fec.bad && crcOk && seq == x.rxSeq
    if !good then
      let s' := s.modPort p (fun x =>
        { x with naked := true, fecUncorr := satAdd (2 ^ 16 - 1) x.fecUncorr fec.words,
                 crcErrors := satAdd (2 ^ 16 - 1) x.crcErrors (b2n (!fec.bad)) })
      done s (if x.naked then s' else s'.sendIdle p true)
    else
      let a := leAt b 2 2
      let isData := field (leAt b 0 2) 15 12 == 0
      let s' := s.modPort p (fun x =>
        let x := if bitOf a 12 then x.ackTo (field a 11 0) else x
        { x with naked := false, fecUncorr := satAdd (2 ^ 16 - 1) x.fecUncorr fec.words, rxSeq := if isData then (x.rxSeq + 1) % 4096 else x.rxSeq,
                 credits := List.zipWith (fun c i => c + leAt b (4 + i) 1) x.credits (List.range 4) })
      let s' := if bitOf a 13 then s'.goBack p else s'
      let s' := s'.releaseSwap p
      let s' := if isData then
          let start := field (leAt b 8 1) 3 0
          let bytes := if x.partChunks.isEmpty then (if start = 15 then [] else slice b (12 + 16 * start) (240 - 16 * start))
            else x.partChunks ++ slice b 12 240
          let (t, rest) := s'.takeChunks p 32 bytes
          t.modPort p (fun x => { x with partChunks := rest })
        else s'
      let out := s'.drainPort p
      done s (if isData && (out.port p).txSeq == (s'.port p).txSeq then out.sendIdle p false else out)

/-- A nak arrives: flits up to `seq` are acknowledged and the others replayed (R331). -/
def execNak (port : PortId) (seq : Nat) (s : State) : Out :=
  let p := port.toNat
  if (s.port p).state ≠ .up then done s s
  else done s (((s.modPort p (fun x => x.ackTo (seq % 4096))).goBack p).drainPort p)

/-- ack_seq has not advanced for 4 µs while flits are unacknowledged: they are replayed (R331). -/
def execRetryTimeout (port : PortId) (s : State) : Out :=
  let p := port.toNat
  if (s.port p).state ≠ .up then done s s else done s (s.goBack p)

/-- The objects sent by peers, with a further piece of one that follows on what has come: R365. -/
def takePiece (xs : List (Hash × List Byte)) (h : Hash) (off : Nat) (b : List Byte) : List (Hash × List Byte) :=
  if ((xs.find? (fun e => e.1 == h)).map (fun e => e.2.length)).getD 0 ≠ off then xs
  else if off = 0 then (h, b) :: xs.filter (fun e => e.1 != h)
  else xs.map (fun e => if e.1 = h then (h, e.2 ++ b) else e)

/-- An object of the own cartridges goes to a peer's loader, in pieces of 192 bytes: R365. -/
def State.sendObject (s : State) (peer : Nat) (h : Hash) : State :=
  match s.object h with
  | none => s
  | some o => (List.range ((o.length + 191) / 192)).foldl (fun s i =>
      s.fwSend (2 ^ 63 + peer * 2 ^ 56) 8 (192 * i) (hashBytes h ++ slice o (192 * i) 192)) s

/-- What the firmware does on a message of another module: an error there stops the task here for its replay (R325); a peer that a
module reaches no longer is reached over another relay (R338); a refusal of its loader ends the load here (R363); an object, or a piece
of one, is asked for or has come (R365). Their form is the model's (entry 44). -/
def State.heed (s : State) (peer : Nat) (msg : List Byte) : State :=
  if leAt msg 0 4 = 5 then s.detected (leAt msg 4 4) 0 0xFFFF
  else if leAt msg 0 4 = 6 then
    (s.modConf (fun c => { c with farDown := if c.farDown.contains (peer, leAt msg 8 4) then c.farDown else c.farDown ++ [(peer, leAt msg 8 4)] })).noteRelays
  else if leAt msg 0 4 = 7 then
    { s with loads := match s.loads with
        | l :: rest => (if l.peerRefusal.isNone then { l with peerRefusal := some (leAt msg 8 2, slice msg 10 16) } else l) :: rest
        | [] => [] }
  else if leAt msg 0 4 = 8 then { s with peerObjects := takePiece s.peerObjects (hashOf (slice msg 8 48)) (leAt msg 4 4) (msg.drop 56) }
  else if leAt msg 0 4 = 9 then s.sendObject peer (hashOf (slice msg 8 48))
  else s

/-- A firmware message lands in the 64 KiB store kept for its peer, and the firmware heeds it: R341. Peer 0 to 31 is a module, 32 the twin;
the store keeps its newest 64 KiB (entry 23). -/
def execFwMsg (peer : Nat) (msg : List Byte) (s : State) : Out :=
  let key (x : Txn) : Nat := if x.side = s.config.side then x.module else 32
  let held : List Byte := mget [] s.fwStore peer ++ msg
  let s' : State := { s with fwStore := mset s.fwStore peer (held.drop (held.length - 65536)) }
  match s.flight.find? (fun x => x.kind == .fwMsg && x.origin == .outside && key x == peer && x.data.take msg.length == msg) with
  | some x => done s ((s'.dropTxn x.id).heed peer msg)
  | none => done s (s'.heed peer msg)

/-- Every millisecond a heartbeat goes to each peer and to the twin, as firmware traffic: R337, R380. -/
def execHeartbeat (s : State) : Out :=
  if !s.config.formed then done s s
  else
    let peers := ((List.range s.config.n).filter (fun m => m != s.config.module && !s.config.lost.contains m)).map
      (fun m => 2 ^ 63 + m * 2 ^ 56)
    let twin := if s.config.twin then [2 ^ 63 + 2 ^ 62 + s.config.module * 2 ^ 56] else []
    done s ((peers ++ twin).foldl (fun s a => s.fwSend a 0 0 []) s)

/-! ### Losses -/

/-- A module is lost: every task of the configuration is stopped; one with a twin is replayed, any other ends with DEGRADED, and
without a twin the configuration is unformed (R257, R380). -/
def State.loseModule (s : State) (m : Nat) : State :=
  let s := s.modConf (fun c =>
    let lost := if c.lost.contains m then c.lost else c.lost ++ [m]
    { c with lost := lost, lead := ((List.range c.n).find? (fun k => !lost.contains k)).getD 0 })
  let s := s.judgeLead
  let twinned (t : Nat) : Bool := s.twinLinked && ((s.task t).bind (fun k => s.pattern k.handle)).any (fun p => p.twin != 0)
  let s := s.openTasks.foldl (fun s t => if twinned t then s.replayLost t else s.endTask t stDegraded) s
  if s.twinLinked then s else s.modConf (fun c => { c with formed := false, n := 0, degree := 0, relayed := [] })

/-- A peer's heartbeat is absent for 10 ms, or the module itself is lost: R380. -/
def execModuleLost (module : ModuleId) (s : State) : Out :=
  let m := module.toNat
  if !s.config.formed then done s s
  else if m = s.config.module then done s s.selfLost
  else if m < s.config.n then done s (s.loseModule m) else done s s

/-- The twin is lost: R384. -/
def execTwinLost (s : State) : Out := done s s.loseTwin

end Sys2Proof.Machine
end

