-- ==== Sys2Proof/Machine/Mgmt.lean ====
section
/-!
DEFINITION. The commands of the management path (R385 to R388, R417, R421 to R426) and of the links it and the service ports run on
(R436, R437).
-/

namespace Sys2Proof.Machine

/-! ### Requests -/

/-- Whether requests are answered: auxiliary power is present and the endpoint ID has been assigned (R421). -/
def State.answers (s : State) : Bool := s.boot.aux && s.mgmt.eid != 0

/-- A request that the CP handles at once, or once it runs: R400. -/
def State.cpRequest (s : State) (i : Instr) : State :=
  if s.cpRuns then s.applyRequest i else s.modMgmt (fun m => { m with waiting := m.waiting ++ [i] })

/-- UNIT_REQUEST: R386, R423. -/
def execUnitRequest (unit state : Nat) (now : Bool) (generation : Nat) (s : State) : Out :=
  if !s.answers then done s s else done s (s.cpRequest (.unitRequest unit state now generation))

/-- ENROL: R230, R348, R423. -/
def execEnrol (r : EnrolReq) (s : State) : Out := if !s.answers then done s s else done s (s.queueRequest (.enrol r))

/-- STAGED_SET: R398, R423. -/
def execStagedSet (entries : List (List Byte)) (s : State) : Out :=
  if !s.answers then done s s else done s (s.queueRequest (.stagedSet entries))

/-- NET_CFG: R345, R423, R425. -/
def execNetCfg (udp mgmt : BitVec 16) (ipv6 : BitVec 128) (s : State) : Out :=
  if !s.answers then done s s else done s (s.queueRequest (.netCfg udp mgmt ipv6))

/-- SB_READ answers at once with the records: R417, R423. -/
def execSbRead (seq count : Nat) (s : State) : Out :=
  if !s.answers then done s s
  else
    let rs := s.book.read seq count
    done s (s.respond ([ccOk, BitVec.ofNat 8 rs.length] ++ rs.flatMap id))

/-- REG_READ answers at once, for a register outside the always-on domain once the CP runs; a read of `GT_LO` latches `GT_HI` (R256,
R400, R423). -/
def execRegRead (addr : Word) (s : State) : Out :=
  if !s.answers then done s s
  else
    if s.cpRuns || alwaysOn (addr.toNat - modBase) then done s (s.readModReg addr.toNat)
    else done s (s.modMgmt (fun m => { m with waiting := m.waiting ++ [.regRead addr] }))

/-- MODULE_RESET: R423. -/
def execModuleReset (confirm : BitVec 32) (s : State) : Out :=
  if !s.answers then done s s else done s (s.cpRequest (.moduleReset confirm))

/-! ### Platform monitoring -/

/-- Bay states of GET_HEALTH: R366. -/
def State.bayStates (s : State) : List Nat := (List.range 2).map (fun b => (s.bay b).health)

/-- The state sensors: R422. -/
def State.sensors (s : State) : List Nat := [s.power.state.code, b2n s.degraded] ++ s.bayStates

/-- What a sensor reads, and whether it is a state sensor: R422. -/
def State.sensorValue (s : State) (x : Sensor) : Nat × Bool :=
  match x with
  | .panelMax => (signed 8 s.panelMax, false)
  | .hubMax => (signed 8 s.power.hubMax, false)
  | .hbmMax => (signed 8 s.power.hbmMax, false)
  | .opticsMax => (signed 8 s.power.opticsMax, false)
  | .throttleEpochs => (s.power.throttles, false)
  | .inPips => (s.power.inPips, false)
  | .peakPips => (s.power.peakPips, false)
  | .curCode p => ((s.panel p.toNat).cur, false)
  | .modState => (s.power.state.code, true)
  | .degraded => (b2n s.degraded, true)
  | .bay b => ((s.bay b.toNat).health, true)

/-- A sensor is read: in AUX-ONLY those of the domains that are off are unavailable; reading a state sensor ends ALERT# (R422). The
response is the completion code, 1 where the sensor is available, and its value. -/
def execSensorRead (sensor : Sensor) (s : State) : Out :=
  if !s.answers then done s s
  else
    let (v, st) := s.sensorValue sensor
    let on := s.cpRuns || sensor == .modState
    let s' := s.respond ([ccOk, BitVec.ofNat 8 (b2n on)] ++ leBytes 4 (if on then v else 0))
    done s (if st then s'.modMgmt (fun m => { m with alert := false }) else s')

/-- A state sensor that has changed since it was last reported asserts ALERT#, and a PlatformEventMessage carries the states: R422. -/
def State.senseStates (s : State) : State :=
  let now := s.sensors
  if !s.answers || now == s.mgmt.sensed then s
  else (s.modMgmt (fun m => { m with alert := true, sensed := now })).respond (now.map (BitVec.ofNat 8))

/-- Whether ALERT# is low: R399, R422. -/
def State.alertLow (s : State) : Bool := s.mgmt.alert || s.boot.failStep != 0

/-- A numeric effecter is set: R264, R305, R310, R422. The cap answers at once, a ceiling waits for its panel's own task boundary, and the
others are settings. -/
def execEffecterSet (effecter : Effecter) (value : Nat) (s : State) : Out :=
  if !s.answers then done s s
  else match effecter with
    | .cap | .ceiling _ => done s (s.cpRequest (.effecterSet effecter value))
    | .idleMs | .wrInterval => done s (s.queueRequest (.effecterSet effecter value))

/-! ### Firmware -/

/-- A firmware image is written into the inactive slot; another update in progress is refused (R396, R424). -/
def execPldmFirmwareUpdate (svn : Nat) (hash : Hash) (sigOk raise : Bool) (s : State) : Out :=
  if !s.answers then done s s
  else if s.boot.updating then done s (s.respond [ccUpdating])
  else
    let f : Flash := { sigOk := sigOk, svn := svn, hash := hash, raise := raise }
    done s ((s.modBoot (fun b => if b.activeB then { b with slotAImg := f, updating := true }
      else { b with slotBImg := f, updating := true })).respond [ccOk])

/-- The slot written by the update is marked active, for the next reset: R396, R424. -/
def execActivateFirmware (s : State) : Out :=
  if !s.answers then done s s
  else if !s.boot.updating then done s (s.respond [ccInvalid])
  else
    let s' := s.modBoot (fun b => { b with activeB := !b.activeB, updating := false })
    let f := s'.boot.slot s'.boot.activeB
    done s ((s'.emit 0x0012 srcCP (leBytes 1 (b2n s'.boot.activeB) ++ leBytes 2 f.svn ++ (hashBytes f.hash).take 32)).respond [ccOk])

/-! ### The buses -/

/-- The bus owner assigns the endpoint ID: R421. The null and the broadcast ID are no endpoint's. -/
def execSetEndpointId (eid : Byte) (s : State) : Out :=
  if !s.boot.aux then done s s
  else if eid = 0 ∨ eid = 0xFF then done s (s.respond [ccInvalid])
  else done s ((s.modMgmt (fun m => { m with eid := eid.toNat })).respond [ccOk, eid])

/-- The first I3C broadcast CCC since auxiliary power-on makes the module an I3C target: R421. -/
def execI3cBroadcastCcc (s : State) : Out :=
  if !s.boot.aux then done s s else done s (s.modMgmt (fun m => { m with i3c := true }))

/-- A service port's link trains or drops: R311, R397, R436. -/
def execServicePortLink (port : Fin 2) (up : Bool) (s : State) : Out :=
  if !s.cpRuns then done s s else done s (s.modBoot (fun b => { b with ethUp := mset b.ethUp port.val up }))

/-- The management Ethernet's link comes up or drops: R311, R425, R437. -/
def execSgmiiLink (up : Bool) (s : State) : Out :=
  if !s.boot.aux then done s s else done s (s.modBoot (fun b => { b with sgmiiUp := up }))

/-! ### Draining -/

/-- The live tasks that use a unit and have not been stopped already: R387, R388. -/
def State.tasksUsing (s : State) (u : Nat) : List Nat :=
  let on (p : Nat) : List Nat := match s.taskOn p with
    | some t => [t]
    | none => []
  let ts :=
    if u < 288 then on u
    else if u < 296 then (List.range 36).flatMap (fun i => on (36 * (u - 288) + i))
    else if 808 ≤ u ∧ u < 844 then
      (s.tasks.filter (fun t => s.flight.any (fun x => x.port == some (u - 808) && x.origin.byCores (s.coresOf t.num)))).map
        (fun t => t.num)
    else []
  ts.eraseDups.filter (fun t => (s.task t).any Task.live && (s.coresOf t).any (fun n => (s.core n).phase != .stopped))

/-- A draining unit is idle, or 1 ms has passed: it leaves service, its tasks are stopped for replay on other hardware, and a forced
one is recorded; a forced port is handled as FAILED (R387, R388). -/
def execDrainEnd (unit : Nat) (forced : Bool) (s : State) : Out :=
  let e := s.unit unit
  if e.state ≠ .draining ∨ (!forced ∧ !s.unitIdle unit) then done s s
  else
    let cause := if forced then 0x0A else e.cause
    let s' := (s.tasksUsing unit).foldl (fun s t => s.detected t cause unit) s
    let s' := if forced ∧ 808 ≤ unit ∧ unit < 844 then s'.failPort (unit - 808) else s'
    let s' := s'.placeUnit unit e.target cause true
    done s (if forced then s'.emit 0x0066 srcCP (leBytes 2 unit) else s')

end Sys2Proof.Machine
end

