-- ==== Sys2Proof/Machine/Time.lean ====
section
/-!
DEFINITION. Time and panel frequency (R253 to R266, R282, R295, R299, R300, R302, R304): the tick of T, the epoch mark with its
readings, requests and commits, droop, beacons, and what an unlocked module waits for.
-/

namespace Sys2Proof.Machine

/-! ### The tick -/

/-- GT units for one step of the scorebook's allowance, 10 µs: R413. -/
def allowPeriod : Nat := 20000

/-- The allowance rises by 1 every 10 µs, to 256 at most: R413. -/
def Scorebook.pass (b : Scorebook) (units : Nat) : Scorebook :=
  { b with allowTick := (b.allowTick + units) % allowPeriod,
           allowance := if (b.allowTick + units) / allowPeriod = 0 then b.allowance
                        else min 256 (b.allowance + (b.allowTick + units) / allowPeriod) }

/-- A token bucket fills by its rate in each fabric cycle, a GT unit: R154, R155, R251. -/
def Core.refill (units : Nat) (c : Core) : Core := { c with tokens := min (1024 * c.bwDepth) (c.tokens + units * c.bwRate) }

/-- GT has moved on: while a task runs or is queued, the module is not idle: R308. -/
def State.noteOpen (s : State) : State := if s.openCount = 0 then s else s.modPower (fun p => { p with idleSince := s.clock.gt })

/-- A unit of GT: T counts it, and while T is off the A copy counts 20 at each cycle of 100 MHz (R253, R254). -/
def Clock.count (c : Clock) (tOn : Bool) : Clock :=
  if tOn then { c with gt := c.gt + 1 }
  else if c.sub + 1 < 20 then { c with sub := c.sub + 1 }
  else { c with sub := 0, gt := c.gt + 20 }

/-- Whether GT stands on an epoch mark that has not come yet: R255. -/
def Clock.markDue (c : Clock) : Bool := c.gt % 65536 == 0 && c.epoch != c.gt / 65536 % 2 ^ 48

/-- GT units of a summary interval: R286. -/
def summaryPeriod : Nat := 2 ^ 37

/-- Whether GT stands on a multiple of 2^37 whose summary has not been written: R286. -/
def State.summaryDue (s : State) : Bool := s.tOn && s.clock.gt % summaryPeriod == 0 && s.cal.summed != s.clock.gt / summaryPeriod

/-- Units of GT pass: estimates, the scorebook's allowance and, while the fabric runs, the token buckets go on (R154, R255, R413). -/
def State.passUnits (s : State) (units : Nat) : State :=
  let s := (s.passRegions units).modBook (fun b => b.pass units)
  if s.tOn then { s with cores := s.cores.map (fun c => (c.1, c.2.refill units)) } else s

/-- One unit of GT passes (R253, R254): what counts on it goes on, and state sensors that have changed are reported. Nothing passes a mark, or a summary, that has not come; without auxiliary power nothing counts (entry 6). -/
def State.tick (s : State) : State :=
  if !s.boot.aux || (s.tOn && s.clock.markDue) || s.summaryDue then s
  else ((s.modClock (fun c => c.count s.tOn)).passUnits 1).noteOpen.senseStates

/-! ### Voltage -/

/-- V(code) of a panel in half millivolts: R299. -/
def vHalfMv (p code : Nat) : Nat := 1100 + 7 * (code - 32) + 10 * (Config.trimSteps p).val - 50

/-- VOLTAGE_LOW: panel, reading and target in mV: R263, R300, R416. -/
def State.voltageLow (s : State) (p mv : Nat) : State :=
  s.emit 0x0031 srcCPB (leBytes 1 p ++ leBytes 2 mv ++ leBytes 2 (vHalfMv p (s.panel p).cur / 2))

/-- Whether a panel has its supply and its clocks run: R308, R432. -/
def State.panelRuns (s : State) : Bool :=
  6 ≤ s.boot.rails && (s.power.state == .serve || s.power.state == .idle)

/-- A request to set VPp to the voltage of a code, which the CPB refuses below that of the code in force: R300. -/
def Panel.setVolt (x : Panel) (code : Nat) : Panel := if code < x.cur then x else { x with vset := some code }

/-- What the CPB writes at a mark: the voltage of a raise that is asked for, else the lower one once the panel has switched down (R300). -/
def Panel.volts (x : Panel) (switchedDown : Bool) : Panel :=
  if x.cur < x.req then x.setVolt x.req else if switchedDown then x.setVolt x.cur else x

/-- The CPB reports the voltage of a raise settled, at its target: R262, R300. -/
def execVoltageSettled (panel : PanelId) (code : Nat) (s : State) : Out :=
  let p := panel.toNat
  let x := s.panel p
  if s.panelRuns ∧ x.vset = some code ∧ x.cur < code then done s (s.modPanel p (fun x => { x with settled := max x.settled code }))
  else done s s

/-- Every 1 ms the rails of the panels are read: a reading more than 20 mV below V(cur_code) is recorded and lowers the next
margin_limit (R300). -/
def execVoutTelemetry (mv : List (PanelId × Nat)) (s : State) : Out :=
  if !s.panelRuns then done s s
  else done s (mv.foldl (fun s r =>
    let p := r.1.toNat
    if 2 * r.2 + 40 < vHalfMv p (s.panel p).cur then
      (s.modPanel p (fun x => { x with voutLow := true })).voltageLow p r.2
    else s) s)

/-- A regulator fault removes its panel from service: the panel drains (R300, R386, R387). -/
def State.panelFault (s : State) (p : Nat) : State :=
  if (s.unit (uPanel p)).state.serves then s.startDrain (uPanel p) .disabled 0x08 else s

/-- A regulator with its supply reports a fault, in STANDBY too: R300, R308. -/
def execRegulatorFault (panel : PanelId) (s : State) : Out :=
  if s.boot.rails < 6 then done s s else done s (s.panelFault panel.toNat)

/-! ### Droop -/

/-- The supply falls below the detector's threshold: every period doubles (R263). -/
def execDroop (panel : PanelId) (s : State) : Out :=
  let p := panel.toNat
  if !s.panelRuns || (s.panel p).droop then done s s
  else done s (s.modPanel p (fun x => { x with droop := true, drooped := true, stretches := satAdd (2 ^ 16 - 1) x.stretches 1 }))

/-- The supply recovers: the panel returns to its normal period and to ordinary commits (R263). -/
def execDroopRecovery (panel : PanelId) (s : State) : Out :=
  done s (s.modPanel panel.toNat (fun x => { x with droop := false, sustained := 0 }))

/-- A stretch has lasted 1,024 cycles: VOLTAGE_LOW is recorded, and the next request is code 32 (R263). -/
def execSustainedDroop (panel : PanelId) (mv : Nat) (s : State) : Out :=
  let p := panel.toNat
  if !(s.panel p).droop || (s.panel p).sustained != 0 then done s s
  else done s ((s.modPanel p (fun x => { x with sustained := 1 })).voltageLow p mv)

/-! ### The request of a panel -/

/-- Frequency cost of n steps above code 120: R295. -/
def raiseCost (a n : Nat) : Nat := (a * n + 39) / 40

/-- A of R295: allotments of the panel's cores that run a task and are not lending. -/
def State.activeAllot (s : State) (p : Nat) : Nat :=
  sumN ((s.cores.filter (fun c => c.1 / 32 == p && c.2.task.isSome && c.2.lent == 0)).map (fun c => c.2.allot))

/-- pool_raise: the largest n from 0 to 12 whose cost the pool covers: R295. -/
def poolRaise (a pool : Nat) : Nat := maxN ((List.range 13).filter (fun n => raiseCost a n ≤ pool))

/-- margin_limit: R261, R300. -/
def Panel.marginLimit (x : Panel) (m : Nat) : Nat :=
  if x.voutLow then x.cur - 2
  else if m ≤ 1 then x.cur - 2
  else if m ≤ 3 then x.cur - 1
  else if m ≤ 7 then x.cur
  else x.cur + 1

/-- thermal_limit: R302. -/
def thermalLimit (cur : Nat) (tj hbm : Int) : Nat :=
  let a := if tj < 95 then 132 else if tj < 100 then cur else if tj < 105 then cur - 1 else cur - 4
  if 95 ≤ hbm then min a (cur - 1) else a

/-- cap_limit: R304. -/
def capLimit (cur avg cap : Nat) : Nat := if cap * 105 < avg * 100 then cur - 4 else if cap < avg then cur - 1 else 132

/-- The smallest of the terms, with the number of the first that has it: R261, R264. -/
def smallestTerm (ts : List (Nat × Nat)) : Nat × Nat :=
  match ts with
  | [] => (0, 0)
  | t :: ts => ts.foldl (fun a t => if t.2 < a.2 then t else a) t

/-- The request that a panel forms, with the term that set it: R261, R263, R264. -/
def Panel.form (x : Panel) (m raise thermal cap : Nat) : Nat × Nat :=
  if x.sustained ≠ 0 then (2, 32)
  else
    let t := smallestTerm [(0, 120 + raise), (1, x.ceiling), (2, x.marginLimit m), (3, thermal), (4, cap), (6, x.cur + 1)]
    (t.1, max 32 t.2)

/-- The code a panel is to commit: its request, which a reclaim stretch brings down to what the new pool_raise allows (R262, R297). -/
def Panel.want (x : Panel) (raise : Nat) : Nat := if x.reclaimStretch then min x.req (max 32 (120 + raise)) else x.req

/-- The commit of a panel at a mark: the code it takes, whether its voltage kept a raise back, and whether its idle PLL was not
locked (R262, R282, R297). -/
def Panel.commit (x : Panel) (raise : Nat) (pllLocked : Bool) : Panel × Bool × Bool :=
  let want := x.want raise
  if want = x.cur then ({ x with sustained := if x.sustained = 2 then 3 else x.sustained }, false, false)
  else if !pllLocked then (x, false, true)
  else if x.cur < want ∧ x.settled < want then (x, true, false)
  else ({ x with cur := want, commits := (x.commits + 1) % 2 ^ 16, settled := if want < x.cur then want else x.settled,
                 sustained := if x.sustained = 2 ∧ want = 32 then 3 else x.sustained }, false, false)

/-- What one panel does at an epoch mark: its ceiling, its commit, its margin, its pool_raise, its request and its voltage (R261 to R264,
R282, R295, R300, R302, R304). One whose supply is still low at the first mark after the commit of code 32 is handled as a regulator fault
(R263). -/
def State.markPanel (s : State) (r : EpochReadings) (p : Nat) : State :=
  let x := s.panel p
  let failed : Bool := x.sustained = 3 && x.droop
  let a := s.activeAllot p
  let raise := poolRaise a x.pool
  let x : Panel := if failed then { x with sustained := 0 } else x
  let x : Panel := match x.ceilingNext with
    | some c => if x.boundary then { x with ceiling := c, ceilingNext := none, boundary := false } else x
    | none => x
  let checked := x.want raise != x.cur
  let (y, volt, pll) := x.commit raise (!(r.unlocked.any (fun u => u.toNat == p)))
  let m := if x.drooped || x.droop then 0 else min 15 (mget 15 r.margins p)
  let tj := mget 0 r.tj p
  let th := thermalLimit y.cur tj r.hbmMax
  let (lim, req) := y.form m raise th (capLimit y.cur r.inPips s.power.cap)
  let low := m ≤ 1 && !x.drooped && !x.droop && !x.marginLow
  let y := ({ y with req := req, limit := if volt ∧ y.cur < req then 5 else lim, margin := m, raised := raise, activeAllot := a,
                     tj := tj, reclaimStretch := false, voutLow := false, drooped := x.droop, marginLow := x.marginLow || low,
                     sustained := if y.sustained = 1 then 2 else y.sustained } : Panel).volts (y.cur < x.cur)
  let s : State := { s with cal := { s.cal with checks := satAdd (2 ^ 32 - 1) s.cal.checks (1 + b2n checked),
                                                fails := satAdd (2 ^ 16 - 1) s.cal.fails (b2n pll) } }
  let s := s.modPower (fun w => { w with throttles := satAdd (2 ^ 16 - 1) w.throttles (b2n (decide (th < 132))) })
  let s := s.modPanel p (fun _ => y)
  let s := if pll then s.emit 0x0045 srcTension (leBytes 1 p ++ leBytes 1 (x.want raise)) else s
  let s := if low then s.emit 0x0044 srcTension (leBytes 1 p ++ leBytes 1 m ++ leBytes 1 y.cur) else s
  if failed then s.panelFault p else s

/-! ### The epoch mark -/

/-- GT at the next epoch mark: the one GT stands on if it has not come yet, else the one after (R255). -/
def Clock.nextMark (c : Clock) : Nat := if c.markDue then c.gt else (c.gt / 65536 + 1) * 65536

/-- What the module's time does at a mark: R256, R259. -/
def Clock.mark (c : Clock) : Clock :=
  let gt := c.nextMark
  let heard := c.beaconSeen || c.isLead
  { c with gt := gt, epoch := gt / 65536 % 2 ^ 48, holdover := !heard, missed := if heard then 0 else c.missed + 1,
           beaconSeen := false, before := none, unlockedEpochs := if c.locked then 0 else satAdd 255 c.unlockedEpochs 1 }

/-- The sums of calibration are recorded, then cleared: R282, R283, R286. -/
def State.summarise (s : State) : State :=
  let k := s.cal
  let s := (s.emit 0x0040 srcTension (leBytes 8 k.sumWord ++ (List.range 4).flatMap (fun g => leBytes 8 (k.hbmWord g)))).modCal (fun k =>
    { wrInterval := k.wrInterval, base := k.base, exits := k.exits, summed := s.clock.gt / summaryPeriod })
  { s with
    panels := s.panels.map (fun x => (x.1, { x.2 with marginLow := false }))
    ports := s.ports.map (fun x => (x.1, { x.2 with corrected := 0, eyeLane := 0, eyeMin := 63 })) }

/-- The next epoch mark comes, after a summary that is due: the panels commit, and the regions resolve the mark. The sensors of a panel are
read in STANDBY too (R255 to R264, R281, R282, R286, R295, R300, R302 to R306). -/
def execEpochMark (r : EpochReadings) (s : State) : Out :=
  if !s.tOn then done s s
  else
    let s := if s.summaryDue && !s.clock.markDue then s.summarise else s
    let next := s.clock.nextMark
    let s' := ((s.passUnits (next - s.clock.gt)).modClock Clock.mark).noteOpen
    let s' : State := { s' with ports := s'.ports.map (fun x => (x.1, { x.2 with swapped := false })) }
    let s' := s'.modPower (fun w =>
      let cap := w.capNext.getD w.cap
      { w with cap := cap, capNext := none, inPips := r.inPips, peakPips := max w.peakPips r.inPips, hubMax := r.hubMax,
               hbmMax := r.hbmMax, opticsMax := r.opticsMax,
               capEvents := satAdd (2 ^ 16 - 1) w.capEvents (b2n (decide (cap < r.inPips))) })
    let t : State := if s'.panelRuns then (List.range 8).foldl (fun s p => s.markPanel r p) s'
      else if 6 ≤ s'.boot.rails then (List.range 8).foldl (fun s p => s.modPanel p (fun x => { x with tj := mget 0 r.tj p })) s' else s'
    done s (t.resolveMark next s'.regionRate)

/-! ### Beacons -/

/-- The time sources that R258 allows, in order of choice: the port, and whether the source is not the lead. Which peers are locked and
follow the lead directly is a free value of reading `k` (entry 50). -/
def State.timeSources (s : State) (k : Nat) : List (Nat × Bool) :=
  let c := s.config
  if c.side && c.twin && !c.twinLost then (s.portsTo c.module true).map (fun p => (p, c.module != 0))
  else
    let direct := (s.portsTo c.lead false).map (fun p => (p, false))
    let peers := (List.range c.n).filter (fun m => m != c.module && m != c.lead && Config.followsLead k m)
    direct ++ peers.flatMap (fun m => (s.portsTo m false).map (fun p => (p, true)))

/-- The source in use: the first that R258 allows and that was not left since the configuration formed, else the first: R258, R259. -/
def State.timeSource (s : State) (k : Nat) : Option (Nat × Bool) :=
  let src := s.timeSources k
  (src.find? (fun x => !s.clock.passed.contains x.1)).or src.head?

/-- The bound on T, in 1/8 GT unit: R258. -/
def timeBound (twoHop side : Bool) : Nat := if twoHop || side then 12 else 8

/-- What a pair changes, as it is before it: R281. -/
def Clock.pairing (c : Clock) (port : Nat) : Pairing :=
  { port := port, offset := c.offset, srcPort := c.srcPort, twoHop := c.twoHop, beyond := c.beyond, within := c.within, locked := c.locked,
    unlockedEpochs := c.unlockedEpochs, rate := c.rate, slews := c.slews }

/-- A substitution of a lane makes the pair of this epoch on its port invalid: what it has changed is undone (R281). -/
def Clock.unpaired (c : Clock) (port : Nat) : Clock :=
  match c.before with
  | some x =>
    if x.port = port then
      { c with offset := x.offset, srcPort := x.srcPort, twoHop := x.twoHop, beyond := x.beyond, within := x.within, locked := x.locked,
               unlockedEpochs := x.unlockedEpochs, rate := x.rate, slews := x.slews, beaconSeen := false, before := none }
    else c
  | none => c

/-- What a valid beacon pair makes of the module's time: the offset, the judgement of the lock, and, while locked, a rate that removes the
offset; unlocked, the last rate is kept (R258, R259). -/
def Clock.paired (c : Clock) (off : Int) (bound : Nat) (src : Nat × Bool) (rate : Int) : Clock :=
  let within := if off.natAbs ≤ bound then c.within + 1 else 0
  let lock := c.locked || decide (2 ≤ within)
  let moves := c.locked && off != 0
  { c with offset := off, srcPort := src.1, twoHop := src.2, beaconSeen := true, before := some (c.pairing src.1),
           beyond := if 2 * bound < off.natAbs then c.beyond + 1 else 0,
           within := if lock then 0 else within, locked := lock, unlockedEpochs := if lock then 0 else c.unlockedEpochs,
           rate := if moves then rate else c.rate, slews := if moves then (c.slews + 1) % 2 ^ 16 else c.slews }

/-- A beacon pair is exchanged on a port: with the time source, the offset is formed, the rate of T corrected, and the lock judged; with a
module that takes its time from here, the own beacon goes out (R258, R259). A pair on a port in the epoch of a lane substitution is
invalid (R281). `far` holds the stamps t2 and t3 of the other end. -/
def execBeacon (port : PortId) (t1 : Nat) (far : Nat × Nat) (t4 : Nat) (s : State) : Out :=
  let p := port.toNat
  if !s.tOn || (s.port p).state ≠ .up then done s s
  else
    let s' : State := { s with linkOut := s.linkOut ++ [(p, .beacon)] }
    let (k, s') := s'.freeIndex
    match s'.timeSource k with
    | none => done s s'
    | some src =>
      if s.clock.isLead || src.1 != p || (s.port p).swapped then done s s'
      else
        let off : Int := (((t1 : Int) - far.1) + ((t4 : Int) - far.2)) / 2
        let t := s'.modClock (fun c => c.paired off (timeBound src.2 s.config.side) src (((Config.freeRate k).val : Int) - 10000))
        done s (if !s.clock.locked && t.clock.locked then t.relocked else t)

/-- Four epochs without a valid beacon, or four offsets beyond twice the bound: locked is cleared, and the next source that R258 allows is
taken (R259). -/
def execTimeUnlocked (s : State) : Out :=
  let c := s.clock
  if !c.locked || c.isLead || (c.missed < 4 && c.beyond < 4) then done s s
  else
    let (k, s') := s.freeIndex
    let left := if c.passed.contains c.srcPort then c.passed else c.passed ++ [c.srcPort]
    let left := if (s.timeSources k).all (fun x => left.contains x.1) then [] else left
    let s' := s'.modClock (fun c => { c with locked := false, within := 0, missed := 0, beyond := 0, passed := left })
    let s' := s'.modClock (fun c => match s'.timeSource k with
      | some src => { c with srcPort := src.1, twoHop := src.2 }
      | none => c)
    done s (s'.emit 0x0021 srcCP (leBytes 1 c.srcPort ++ leBytes 1 c.unlockedEpochs))

/-- GT units that a cast-on may wait on an unlocked module, 10 ms: R259. -/
def unlockedLimit : Nat := 20000000

/-- A cast-on has waited more than 10 ms for this module to lock: the module counts as lost (R259, R379, R380). -/
def execCastonUnlockedTimeout (task : Nat) (s : State) : Out :=
  match (s.task task).bind (fun t => t.waitsUnlocked) with
  | some g => if !s.clock.locked ∧ g + unlockedLimit < s.clock.gt then done s s.selfLost else done s s
  | none => done s s

end Sys2Proof.Machine
end

