-- ==== Sys2Proof/Machine/Calib.lean ====
section
/-!
DEFINITION. Calibration while tasks run (R272 to R286): re-centring and filler reads of the HBM channels, retraining windows, eye
checks, the substitution of a lane by the spare, and the calibration summary.
-/

namespace Sys2Proof.Machine

/-! ### HBM -/

/-- Whether the HBM channels are active, and so calibrated: R277, R308, R432. -/
def State.hbmRuns (s : State) : Bool := 4 ≤ s.boot.rails && (s.power.state == .serve || s.power.state == .idle)

/-- GT units of the aligned 4 ms interval: R275. -/
def calInterval : Nat := 8000000

/-- Sampled bursts of a re-centring decision: R272. -/
def sampleBursts : Nat := 1024

/-- Bring a channel's counts to the interval that is open at a GT: R275. -/
def Channel.upTo (c : Channel) (gt : Nat) : Channel :=
  if c.interval = gt / calInterval then c else { c with interval := gt / calInterval, windows := 0, fillers := 0, recentred := false }

/-- Calibration occupancy of a channel in the open interval in units of 0.01 %, rounded up: windows of 2 µs, filler reads of 1.25 ns
(R275, R284; DEDUCED: entry 34). -/
def Channel.occupancy (c : Channel) : Nat := (1600 * c.windows + c.fillers + 319) / 320

/-- The steps a re-centring decision moves the read phase by: one toward the side with fewer disagreements, l being counted at the
earlier offset: R272. -/
def recentreStep (l r : Nat) : Int :=
  let d := max l r - min l r
  if 16 ≤ l + r ∧ l + r < 4 * d then (if l < r then -1 else 1) else 0

/-- The highest occupancy of a group is kept: R284. -/
def Calib.peak (c : Calib) (g occ : Nat) : Calib := { c with peakOcc := mset c.peakOcc g (max (mget 0 c.peakOcc g) (min 39 occ)) }

/-- A channel's re-centring decision, one in each 4 ms interval, and one before its first access after an exit from self-refresh: filler
reads make up the live bursts to 1,024, and the phase moves one step or stays (R272, R273, R275, R277). -/
def execRecentre (chan : ChanId) (l r bursts : Nat) (s : State) : Out :=
  let n := chan.toNat
  let c := (s.channel n).upTo s.clock.gt
  if !s.hbmRuns ∨ (c.recentred ∧ c.recentreExit = s.cal.exits) then done s s
  else
    let d := recentreStep l r
    let c : Channel := { c with phase := c.phase + d, moved := c.moved + d.natAbs, recentred := true, recentreExit := s.cal.exits,
                                fillers := min sampleBursts (c.fillers + (sampleBursts - bursts)) }
    let g := chanGroup n
    done s ((s.modChannel n (fun _ => c)).modCal (fun k => (k.recentred g 1).peak g c.occupancy))

/-- Whether a channel's window is due: its interval has passed since its last window, it failed, its phase moved 4 steps, its stack changed
by 5 °C, or its stack has left self-refresh (R274, R276, R277). -/
def State.windowDue (s : State) (c : Channel) (temp : Int) : Bool :=
  decide (max c.lastWindow s.cal.base + s.cal.wrInterval * 2000000 ≤ s.clock.gt) || c.due || 4 ≤ c.moved ||
    c.temp.any (fun t => 5 ≤ (temp - t).natAbs) || c.windowExit != s.cal.exits

/-- Channels of a stack that are in a window: R275. -/
def State.openIn (s : State) (stack : Nat) : Nat := (s.channels.filter (fun c => c.1 / 32 == stack && c.2.isOpen)).length

/-- An all-bank refresh: a due window opens after it, unless a limit defers it (R274, R275). The first temperature read since boot stands
for that of the training at boot (entry 34). -/
def execAllBankRefresh (chan : ChanId) (temp : Int) (s : State) : Out :=
  let n := chan.toNat
  let c := (s.channel n).upTo s.clock.gt
  let c : Channel := { c with temp := some (c.temp.getD temp) }
  if !s.hbmRuns || c.isOpen || c.stopped && c.windowExit == s.cal.exits then done s s
  else
    let s' := s.modChannel n (fun _ => c)
    if !s.windowDue c temp then done s s'
    else if 7 ≤ c.windows ∨ 2 ≤ s.openIn (n / 32) then
      done s (s'.modCal (fun k => { k with defers := satAdd (2 ^ 16 - 1) k.defers 1 }))
    else
      let c : Channel := { c with isOpen := true, windows := c.windows + 1, temp := some temp }
      done s ((s'.modChannel n (fun _ => c)).modCal (fun k => k.peak (chanGroup n) c.occupancy))

/-- Narrowest write eye of a window that does not fail, 0.35 UI, in 1/64 UI: R276. -/
def eyeFails (eye : Nat) : Bool := eye * 100 < 35 * 64

/-- A window ends and the channel reopens, its posted writes retired. An eye under 0.35 UI keeps the former settings, is recorded, and the
third in a row stops the retraining and makes the channel SUSPECT (R274, R276). -/
def execWindowEnd (chan : ChanId) (eye : Nat) (s : State) : Out :=
  let n := chan.toNat
  let c := s.channel n
  if !c.isOpen then done s s
  else
    let bad := eyeFails eye
    let c' : Channel := { c with isOpen := false, posted := [], windowExit := s.cal.exits }
    let c' : Channel := if bad then { c' with due := true, fails := c.fails + 1, stopped := c.stopped || decide (3 ≤ c.fails + 1) }
      else { c' with due := false, fails := 0, moved := 0, lastWindow := s.clock.gt }
    let s' := (s.modChannel n (fun _ => c')).modCal (fun k => k.windowed (chanGroup n) 1 (b2n bad))
    if !bad then done s s'
    else
      let s' := s'.emit 0x0041 srcTension (leBytes 2 (uChannel n) ++ leBytes 1 eye ++ leBytes 1 (c.fails + 1))
      if c'.stopped ∧ (s'.unit (uChannel n)).state ≠ .suspect then done s (s'.setUnit (uChannel n) .suspect 0x06 true) else done s s'

/-! ### Links -/

/-- What an eye check makes of an active lane: its consecutive low checks, and whether it is degrading (R279). -/
def laneCheck (low opening corrected : Nat) : Nat × Bool :=
  let k := if opening < 12 then low + 1 else 0
  (k, 8 ≤ k || 16384 < corrected)

/-- The lane of a list with the lowest code, with that code; the lowest lane of several: R285. -/
def lowestEye (lanes : List (Nat × Nat)) : Nat × Nat := lanes.foldl (fun a l => if l.2 < a.2 then l else a) (0, 64)

/-- Eye margin codes and corrected counts of a port's lanes, the spare's ninth. A lane carried on the spare keeps its number (entry 34).
A degrading lane asks for the spare; with the spare in use it sets no_spare (R279, R281, R283, R285). A request is held while a replay
of the direction is in progress. The check of a port that is not UP, which has no active lane, is counted. -/
def execEyeCheck (port : PortId) (openings corrected : List Nat) (s : State) : Out :=
  let p := port.toNat
  let x := s.port p
  if !s.linksPowered then done s s
  else if x.state ≠ .up then done s (s.modCal (fun k => k.check 1))
  else
    let on (l : Nat) : Nat := if l = x.spareFor then 8 else l
    let seen := (List.range 8).map (fun l => (l, laneCheck (mget 0 x.lowChecks l) (openings.getD (on l) 63) (corrected.getD (on l) 0)))
    let e := lowestEye ((List.range 8).map (fun l => (l, openings.getD (on l) 63)))
    let s' := (s.modPort p (fun x =>
      { x with lowChecks := (seen.filter (fun r => r.2.1 != 0)).map (fun r => (r.1, r.2.1)), eyeLane := e.1, eyeMin := e.2,
               corrected := satAdd (2 ^ 32 - 1) x.corrected (sumN (corrected.take 9)) })).modCal (fun k => k.check 1)
    match seen.find? (fun r => r.2.2) with
    | none => done s s'
    | some (lane, _) =>
      if x.spareFor ≠ 15 then
        if x.noSpare then done s s'
        else done s ((s'.modPort p (fun x => { x with noSpare := true })).emit 0x0043 srcTension
          (leBytes 2 (uPort p) ++ leBytes 1 0 ++ leBytes 1 lane))
      else if x.swapReq.isSome || x.swapHeld.isSome then done s s'
      else if x.naked then done s (s'.modPort p (fun x => { x with swapHeld := some lane }))
      else done s (s'.askSwap p lane)

/-- The flit slot that a port's two directions are in, counted from link bring-up: 256 bytes at 200 GB/s take 1.28 ns, 64/25 units
(R253, R280; DEDUCED: entry 34). -/
def State.flitSlot (s : State) (p : Nat) : Nat := (s.clock.gt - (s.port p).aligned) * 25 / 64

/-- The transmitter takes a request for a lane that comes in flit slot `slot` and answers with the slot 64 after it; a request for the lane
already on the spare is ignored, and so is one that finds the spare in use (R280, R281). A slot that is not the present one changes nothing
(entry 7). -/
def execSwapReq (port : PortId) (lane slot : Nat) (s : State) : Out :=
  let p := port.toNat
  let x := s.port p
  if x.state ≠ .up ∨ x.txSpareFor ≠ 15 ∨ slot ≠ s.flitSlot p then done s s
  else
    let n := match x.swapTx with
      | some (_, m) => m
      | none => slot + 64
    if x.swapTx.any (fun t => t.1 != lane) then done s s
    else
      let s' := s.modPort p (fun x => { x with swapTx := some (lane, n) })
      done s { s' with linkOut := s'.linkOut ++ [(p, .swapAt lane n)] }

/-- The receiver learns the slot from which the lane comes on the spare: R280. -/
def execSwapAt (port : PortId) (lane slot : Nat) (s : State) : Out :=
  let p := port.toNat
  if (s.port p).swapReq = some lane then done s (s.modPort p (fun x => { x with swapRx := some (lane, slot) })) else done s s

/-- The chosen slot has come: the lane's data is on the spare from here on, the substitution is recorded, and a beacon pair of this epoch
on the port is invalid: one that came earlier is undone, one that comes later is passed over (R280, R281). `tx` tells the transmit direction from the receive direction (1 and 0 in the event: entry 34). -/
def execLaneSwap (port : PortId) (tx : Bool) (s : State) : Out :=
  let p := port.toNat
  let x := s.port p
  match (if tx then x.swapTx else x.swapRx) with
  | none => done s s
  | some (lane, n) =>
    if s.flitSlot p < n then done s s
    else
      let s' := s.modPort p (fun x =>
        if tx then { x with txSpareFor := lane, swapTx := none, swapped := true }
        else { x with spareFor := lane, swapRx := none, swapped := true, lowChecks := mdel x.lowChecks lane })
      done s ((s'.modClock (fun c => c.unpaired p)).emit 0x0042 srcTension (leBytes 2 (uPort p) ++ leBytes 1 (b2n tx) ++ leBytes 1 lane))

/-- The receiver has aligned the spare and confirms it: R280. -/
def execSwapDone (port : PortId) (s : State) : Out :=
  let p := port.toNat
  let x := s.port p
  match x.swapReq with
  | none => done s s
  | some lane =>
    if x.spareFor ≠ lane then done s s
    else
      let s' := s.modPort p (fun x => { x with swapReq := none })
      done s { s' with linkOut := s'.linkOut ++ [(p, .swapDone lane)] }

/-- GT units after which a missing SWAP_AT makes the receiver ask again, 10 µs: R281. -/
def swapTimeout : Nat := 20000

/-- No SWAP_AT has come within 10 µs: the request goes out again, unless a replay holds it (R281). -/
def execSwapReqResend (port : PortId) (s : State) : Out :=
  let p := port.toNat
  let x := s.port p
  match x.swapReq with
  | none => done s s
  | some lane =>
    if x.swapRx.isSome ∨ x.naked ∨ x.spareFor = lane ∨ s.clock.gt < x.swapGt + swapTimeout then done s s else done s (s.askSwap p lane)

/-! ### The summary -/

/-- GT stands on a multiple of 2^37: the sums are recorded, then cleared (R282, R283, R286). -/
def execCalSummary (s : State) : Out := if s.summaryDue then done s s.summarise else done s s

end Sys2Proof.Machine
end

