-- ==== Sys2Proof/Machine/Packet.lean ====
section
/-!
DEFINITION. Packets and sessions (R345 to R357): the header and its CRC, replies and the reply window, out-of-band replies, what a
client's seq_ack covers (R361), and the end of a session (R347).
-/

namespace Sys2Proof.Machine

/-! ### Status codes and opcodes -/

/-- Status OK: R367. -/
def stOk : Nat := 0
/-- Status ACCEPTED: R367. -/
def stAccepted : Nat := 1
/-- Status PENDING: R367. -/
def stPending : Nat := 3
/-- Status BAD_OPCODE: R367. -/
def stBadOpcode : Nat := 0x10
/-- Status NO_SUCH_PATTERN: R367. -/
def stNoPattern : Nat := 0x12
/-- Status REFUSED_FIT: R367. -/
def stRefusedFit : Nat := 0x13
/-- Status REFUSED_VERIFY: R367. -/
def stRefusedVerify : Nat := 0x14
/-- Status NO_SUCH_TASK: R367. -/
def stNoTask : Nat := 0x15
/-- Status NO_SUCH_OBJECT: R367. -/
def stNoObject : Nat := 0x16
/-- Status BUSY: R367. -/
def stBusy : Nat := 0x20
/-- Status SEQ_GAP: R367. -/
def stSeqGap : Nat := 0x21
/-- Status NO_SPACE: R367. -/
def stNoSpace : Nat := 0x22
/-- Status AUTH: R367. -/
def stAuth : Nat := 0x50

/-- Bytes of parameters a packet holds: R345, R349. -/
def maxParams : Nat := 8160

/-! ### The header -/

end Sys2Proof.Machine

namespace Sys2Proof

open Machine

/-- Header bytes 0 to 27: R349. -/
def Packet.head (p : Packet) : List Byte :=
  beBytes 2 p.magic.toNat ++ [p.version, p.flags] ++ beBytes 2 p.session.toNat ++ beBytes 2 p.opcode.toNat ++
    beBytes 4 p.seqOut.toNat ++ beBytes 4 p.seqAck.toNat ++ beBytes 4 p.tag.toNat ++ beBytes 4 p.paramLen.toNat ++
    beBytes 2 p.status.toNat ++ beBytes 2 p.reserved.toNat

/-- The CRC a packet should carry: R349. -/
def Packet.crcOf (p : Packet) : BitVec 32 := crc32c (p.head ++ p.params)

/-- Flag REPLY: R350. -/
def Packet.isReply (p : Packet) : Bool := p.flags.getLsbD 0
/-- Flag MORE: R350. -/
def Packet.more (p : Packet) : Bool := p.flags.getLsbD 1
/-- Flag OOB: R350. -/
def Packet.oob (p : Packet) : Bool := p.flags.getLsbD 4

/-- Whether the record's length, magic and CRC are good: R351. A record longer than a packet may be is discarded like one of a wrong length
(R345, R349; entry 38). -/
def Packet.intact (p : Packet) : Bool :=
  p.paramLen.toNat == p.params.length && decide (p.params.length ≤ maxParams) && p.magic == 0x504C && p.crc == p.crcOf

/-- Whether version, flags, reserved fields and status are as a command's: R350, R351. -/
def Packet.clean (p : Packet) : Bool :=
  p.version == 1 && !p.isReply && !p.flags.getLsbD 3 && p.flags.toNat < 32 && p.session.toNat < 16384 && p.reserved == 0 &&
    p.status == 0

end Sys2Proof

namespace Sys2Proof.Machine

/-! ### Serial numbers -/

/-- How far a sequence number lies ahead of another, modulo 2^32: R353. -/
def serialDiff (a b : BitVec 32) : Nat := (a - b).toNat

/-- Whether an acknowledgement covers a sequence number, in the arithmetic of RFC 1982: R353, R361. -/
def covers (ack seq : BitVec 32) : Bool := serialDiff ack seq < 2 ^ 31

/-! ### Replies -/

/-- A reply packet of a session: R349, R350, R354. -/
def State.replyPacket (s : State) (cid : Nat) (x : Session) (opcode : Nat) (tag : BitVec 32) (status : Nat) (params : List Byte)
    (seq : BitVec 32) (oob : Bool) : Packet :=
  let p : Packet := { cid := cid, src := x.peer,
                      flags := BitVec.ofNat 8 (1 + (if s.degraded then 8 else 0) + (if oob then 16 else 0)),
                      session := BitVec.ofNat 16 cid, opcode := BitVec.ofNat 16 opcode, seqOut := seq, seqAck := x.expected - 1,
                      tag := tag, paramLen := BitVec.ofNat 32 params.length, status := BitVec.ofNat 16 status, params := params }
  { p with crc := p.crcOf }

/-- A record goes out on a session: R345, R346. -/
def State.transmit (s : State) (cid : Nat) (p : Packet) : State :=
  let s := s.modSession cid (fun x => { x with sent := x.sent + 1 })
  { s with out := s.out ++ [p] }

/-- A numbered reply is sent and kept in the window of the last 256; it answers the command with this seq_out (R353, R354). -/
def State.reply (s : State) (cid opcode : Nat) (tag : BitVec 32) (cmdSeq : Option (BitVec 32)) (status : Nat) (params : List Byte) : State :=
  match s.session cid with
  | none => s
  | some x =>
    let p := s.replyPacket cid x opcode tag status params x.devNext false
    let s := s.modSession cid (fun x =>
      let w := x.window ++ [(cmdSeq, p)]
      { x with devNext := x.devNext + 1, window := w.drop (w.length - 256),
               unanswered := x.unanswered.filter (fun u => cmdSeq.all (fun q => u != (tag, q))) })
    s.transmit cid p

/-- An out-of-band reply: not numbered and not kept: R355. -/
def State.replyOob (s : State) (cid opcode : Nat) (tag : BitVec 32) (status : Nat) (params : List Byte) : State :=
  match s.session cid with
  | none => s
  | some x => s.transmit cid (s.replyPacket cid x opcode tag status params 0 true)

/-- A reply of the window is sent again with RESENT: R353, R356. -/
def State.resend (s : State) (cid : Nat) (p : Packet) : State :=
  let p := { p with flags := p.flags ||| 4 }
  s.transmit cid { p with crc := p.crcOf }

/-- A SEQ_GAP notice that carries e: R353. -/
def State.seqGap (s : State) (cid opcode : Nat) (tag : BitVec 32) : State :=
  match s.session cid with
  | none => s
  | some x => s.replyOob cid opcode tag stSeqGap (beBytes 4 x.expected.toNat)

/-! ### Delivery -/

/-- Bytes of a task's result: R360. -/
def Task.bytes (k : Task) : Nat := if k.released then k.resultLen else k.result.length

/-- A delivered task: its retained copy and its result are released (R323, R361). -/
def Task.delivered (k : Task) (gt : Nat) : Task :=
  { k with state := .delivered, input := [], resultLen := k.bytes, result := [], released := true, deliverSeq := none, deliveredAt := gt }

/-- A client's seq_ack is taken; tasks whose last result byte it covers are delivered: R356, R361. -/
def State.takeAck (s : State) (cid : Nat) (ack : BitVec 32) : State :=
  let s := s.modSession cid (fun x => { x with clientAck := ack })
  { s with tasks := s.tasks.map (fun t =>
      if t.session = cid ∧ t.state = .complete ∧ t.deliverSeq.any (fun q => covers ack q) then t.delivered s.clock.gt else t) }

end Sys2Proof.Machine
end

