-- ==== Sys2Proof/Machine/Client.lean ====
section
/-!
DEFINITION. What the commands of a client answer (R358 to R364, R318, R320 to R323): PING, SUBMIT, QUERY_STATUS, FETCH_RESULT, CANCEL
and the pattern commands. A handler takes the parameters and answers a status with reply parameters, or none where the reply comes
later.
-/

namespace Sys2Proof.Machine

/-- A reply of a handler: its status and its parameters. -/
abbrev Answer := Nat × List Byte

/-- A status without parameters. -/
def bare (status : Nat) : Answer := (status, [])

/-! ### PING -/

/-- PING returns the bytes it carries, 64 at most: R358. -/
def pingAnswer (b : List Byte) : Answer := if b.length ≤ 64 then (stOk, b) else bare stBadParam

/-! ### Tasks -/

/-- State code of a task: R360. -/
def TState.code : TState → Nat
  | .queued => 0
  | .running => 1
  | .replaying => 2
  | .complete => 3
  | .delivered => 4

/-- Whether a task has ended: R360. -/
def Task.ended (k : Task) : Bool := k.state == .complete || k.state == .delivered

/-- A session's own task: R360. -/
def State.ownTask (s : State) (cid n : Nat) : Option Task :=
  (s.task n).bind (fun k => if k.session = cid then some k else none)

/-- Bytes of the retention pool: R323. -/
def retentionPool : Nat := 2 ^ 31

/-- Bytes that a retained input takes with its seed block and P: R323. -/
def retainedBytes (len : Nat) : Nat := len + 112

/-- Bytes that the retained copies of the module take: R323. -/
def State.retained (s : State) : Nat := sumN ((s.tasks.filter Task.retained).map (fun k => retainedBytes k.input.length))

/-- Undelivered tasks a session may hold: R359. -/
def maxTasks : Nat := 1024

/-- Tasks of a session that are not delivered: R359. -/
def State.undelivered (s : State) (cid : Nat) : Nat :=
  (s.tasks.filter (fun k => k.session == cid && k.state != .delivered)).length

/-- The fields of a SUBMIT: R359. -/
def submitHandle (b : List Byte) : Nat := beAt b 0 8
/-- in_len: R359. -/
def submitLen (b : List Byte) : Nat := beAt b 8 4
/-- options: R359. -/
def submitOptions (b : List Byte) : Nat := leAt b 12 1
/-- P: R318, R359. -/
def submitP (b : List Byte) : Hash := hashOf (slice b 16 48)

/-- What stands against a SUBMIT, in the order of R359; an unfit pattern, and a P under STATE_LOST, are answered DEGRADED (R376, R378).
DESIGN CHOICE: where the handle names no pattern and a reserved field is not 0, the answer is NO_SUCH_PATTERN; R9 and R359 give both answers
and no order between them (entry 38). -/
def State.submitBreach (s : State) (cid : Nat) (lead : List Byte) : Option Nat :=
  match s.pattern (submitHandle lead) with
  | none => some stNoPattern
  | some p =>
    let o := submitOptions lead
    if p.man.inMax < submitLen lead ∨ 4 ≤ o ∨ o = 2 ∨ slice lead 13 3 ≠ zeros 3 then some stBadParam
    else if p.unfit || (p.stateLost && submitP lead != 0) then some stDegraded
    else if retentionPool < s.retained + retainedBytes (submitLen lead) then some stBusy
    else if !s.config.formed then some stBusy
    else if maxTasks ≤ s.undelivered cid then some stBusy
    else none

/-- A task is created, and the module serves: R309, R318, R359. -/
def State.submit (s : State) (cid : Nat) (tag : BitVec 32) (lead input : List Byte) : State × Answer :=
  match s.submitBreach cid lead with
  | some st => (s, bare st)
  | none =>
    let n := s.nextTask
    let h := submitHandle lead
    let ahead := (s.tasks.filter (fun k => k.handle == h && k.state == .queued)).length
    let k : Task := { num := n, session := cid, tag := tag, handle := h, options := submitOptions lead, input := input,
                      seeds := slice lead 64 64, p := submitP lead, accepted := s.clock.gt }
    let s := { s with tasks := s.tasks ++ [k], nextTask := (n + 1) % 2 ^ 32 }.wake
    (s.modPower (fun w => { w with idleSince := s.clock.gt }), (stAccepted, beBytes 4 n ++ beBytes 4 ahead))

/-- QUERY_STATUS: R360. -/
def State.queryStatus (s : State) (cid : Nat) (b : List Byte) : Answer :=
  if b.length ≠ 4 then bare stBadParam
  else match s.ownTask cid (beNat b) with
    | none => bare stNoTask
    | some k =>
      (stOk, leBytes 1 k.state.code ++ [0] ++ beBytes 2 (if k.ended then k.status else stAccepted) ++
        beBytes 4 (if k.ended then k.flags else 0) ++ beBytes 4 (if k.ended then k.bytes else 0) ++ beBytes 4 k.replays)

/-- Whether a task has a result: R361. -/
def Task.hasResult (k : Task) : Bool := k.status == 0 || k.status == 2

/-- The result statement: R321, R322. -/
def Task.statement (k : Task) : List Byte :=
  let d := if k.hasResult then hashBytes k.digest ++ hashBytes k.qHash else zeros 96
  [0x50, 0x4C, 0x52, 0x53, 1, 0] ++ leBytes 2 k.status ++ leBytes 4 k.flags ++ zeros 4 ++ leBytes 8 k.gtCastoff ++ d ++
    leBytes 8 k.bytes

/-- The number of the lead module's identity key (entry 18): the own key is 0, those of other modules are 16 and up. -/
def State.leadKey (s : State) : Nat := if s.config.lead = s.config.module then 0 else 16 + s.config.lead

/-- The signature of a statement under the lead module's identity key; a result of a DEBUG load and a task without a result have
none: R250, R322. -/
def State.statementSig (s : State) (k : Task) : List Byte :=
  if k.hasResult && !k.flags.testBit 4 then signBy s.leadKey k.statement else []

/-- FETCH_RESULT: a chunk of the result, with the statement and the signature at offset 0; the reply that carries the last byte delivers
the task once it is acknowledged (R361). -/
def State.fetchResult (s : State) (cid : Nat) (b : List Byte) : State × Answer :=
  if b.length ≠ 12 then (s, bare stBadParam)
  else
    let off := beAt b 4 4
    match s.ownTask cid (beAt b 0 4) with
    | none => (s, bare stNoTask)
    | some k =>
      if k.state = .delivered ∨ k.released then (s, bare stNoTask)
      else if k.state ≠ .complete then (s, bare stPending)
      else if k.bytes < off then (s, bare stBadParam)
      else
        let ev := if off = 0 ∧ k.options.testBit 0 then
            k.statement ++ (if k.options.testBit 1 then s.statementSig k else []) else []
        let chunk := slice k.result off (min (beAt b 8 4) (maxParams - 16 - ev.length))
        let last := (k.result.isEmpty && off == 0) || (!chunk.isEmpty && off + chunk.length == k.bytes)
        let s := if last && k.deliverSeq.isNone then
            match s.session cid with
            | some x => s.modTask k.num (fun k => { k with deliverSeq := some x.devNext })
            | none => s
          else s
        (s, (k.status, beBytes 4 k.flags ++ beBytes 4 k.bytes ++ beBytes 4 off ++ beBytes 4 chunk.length ++ ev ++ chunk))

/-- CANCEL, by the state of the task: R362. -/
def State.cancel (s : State) (cid : Nat) (b : List Byte) : State × Answer :=
  if b.length ≠ 4 then (s, bare stBadParam)
  else match s.ownTask cid (beNat b) with
    | none => (s, bare stNoTask)
    | some k =>
      match k.state with
      | .queued | .running | .replaying => (s.cancelTask k.num, bare stOk)
      | .complete => (s.modTask k.num (fun k => { k with released := true, resultLen := k.bytes, result := [], input := [] }), bare stOk)
      | .delivered => (s, bare stOk)

/-- GT units for which a delivered task stays known, 300 s: R360. -/
def forgetAfter : Nat := 600000000000

/-- A delivered task is forgotten, and one whose session has ended as soon as it has ended: R360. -/
def execTaskForgotten (task : Nat) (s : State) : Out :=
  match s.task task with
  | none => done s s
  | some k =>
    if (k.state = .delivered ∧ k.deliveredAt + forgetAfter ≤ s.clock.gt) ∨ (k.session = orphan ∧ k.ended) then
      done s { s with tasks := s.tasks.filter (fun t => t.num != task) }
    else done s s

/-! ### Patterns -/

/-- The fields of a LOAD_PATTERN: R363. -/
def loadOptions (b : List Byte) : Nat := leAt b 0 1
/-- batch_max: R363. -/
def loadBatch (b : List Byte) : Nat := leAt b 1 1
/-- window_us: R363. -/
def loadWindow (b : List Byte) : Nat := beAt b 2 2
/-- image_len: R363. -/
def loadLen (b : List Byte) : Nat := beAt b 8 8
/-- name: R363. -/
def loadName (b : List Byte) : Hash := hashOf (slice b 16 48)

/-- Whether a load names its image: R363. -/
def loadByName (b : List Byte) : Bool := (loadOptions b).testBit 2

/-- Bytes of image that a LOAD_PATTERN carries: none by name (R363). -/
def loadInline (b : List Byte) : Nat := if loadByName b then 0 else loadLen b

/-- Whether the leading parameters of a LOAD_PATTERN are valid: R246, R363. -/
def loadLeadOk (b : List Byte) : Bool :=
  let o := loadOptions b
  o < 8 && (!o.testBit 1 || o.testBit 0) && 1 ≤ loadBatch b && loadBatch b ≤ 64 && loadWindow b ≤ 2000 && slice b 4 4 == zeros 4 &&
    (loadByName b || loadName b == 0)

/-- Whether the first role-1 and role-2 ranges of an image hold a batch: R363, R370. A range that is absent is phase B's to refuse. -/
def batchFits (img : List Byte) (batch : Nat) : Bool :=
  let m := manifestOf img
  batch ≤ 1 || ((m.firstRange 1).all (fun r => batch * m.inSlot ≤ r.len) && (m.firstRange 2).all (fun r => batch * m.outSlot ≤ r.len))

/-- Loads that may be with the loader at once, one running and four waiting; staged loads count as the one running: R234. -/
def maxLoads : Nat := 5

/-- Whether the loader takes no further load: R234. -/
def State.loaderFull (s : State) : Bool :=
  maxLoads ≤ (s.loads.filter (fun l => l.staged.isNone)).length + b2n (s.loads.any (fun l => l.staged.isSome))

/-- A whole LOAD_PATTERN: refused at once, or handed to the loader, which answers it later (R234, R309, R363). -/
def State.loadPattern (s : State) (cid : Nat) (tag : BitVec 32) (lead data : List Byte) : State × Option Answer :=
  if !loadLeadOk lead then (s, some (bare stBadParam))
  else match (if loadByName lead then s.object (loadName lead) else some data) with
    | none => (s, some (bare stNoObject))
    | some img =>
      if loadByName lead ∧ loadLen lead ≠ img.length then (s, some (bare stBadParam))
      else if !batchFits img (loadBatch lead) then (s, some (bare stBadParam))
      else if s.loaderFull then (s, some (bare stBusy))
      else
        let l : Load := { reply := some (cid, tag), options := loadOptions lead, batchMax := loadBatch lead,
                          windowUs := loadWindow lead, image := img }
        ({ s with loads := s.loads ++ [l] }.wake, none)

/-- UNLOAD_PATTERN: R364. -/
def State.unloadPattern (s : State) (b : List Byte) : State × Answer :=
  if b.length ≠ 8 then (s, bare stBadParam)
  else
    let h := beNat b
    match s.pattern h with
    | none => (s, bare stNoPattern)
    | some _ =>
      if s.tasks.any (fun k => k.handle == h && k.state != .delivered && (k.session != orphan || k.live)) then (s, bare stBusy)
      else ({ s with patterns := s.patterns.filter (fun p => p.handle != h), debug := (s.debug).filter (fun d => d.handle != h) }.refit,
            bare stOk)

/-- Options of a pattern as loaded: R363, R364. -/
def Pattern.options (p : Pattern) : Nat := b2n p.debug + 2 * b2n p.lax + 4 * b2n p.byName

/-- LIST_PATTERNS: R364. -/
def State.listPatterns (s : State) (b : List Byte) : Answer :=
  if !b.isEmpty then bare stBadParam
  else
    (stOk, beBytes 2 s.patterns.length ++ zeros 6 ++ s.patterns.flatMap (fun p =>
      beBytes 8 p.handle ++ hashBytes p.hash ++ leBytes 1 p.options ++ leBytes 1 p.batchMax ++ beBytes 2 p.windowUs ++
        beBytes 4 (s.tasks.filter (fun k => k.handle == p.handle && (k.state == .queued || k.live))).length))

end Sys2Proof.Machine
end

