-- ==== Sys2Proof/Machine/Control.lean ====
section
/-!
DEFINITION. The control slot: scoreboard ranges, branches, loops, tallies, bank flips, breakpoints and the end of the
task (R24, R31 to R34, R51, R175 to R177, R183, R184, R190). All but `tally.sig` and `task.end` act as their row passes the
check stage (R29).
-/

namespace Sys2Proof

open Machine

/-- The row pointer takes a branch: R31. -/
def CSlot.branch (c : CSlot) (taken : BitVec 64 → Bool) (s : State) : State :=
  let n := c.core.toNat
  if taken ((s.core n).readChk c.sa) then s.modCore n (fun k => { k with next := some c.row12 }) else s

/-- The loop counter a loop row names: R24. -/
def CSlot.lc (c : CSlot) : Nat := (c.x.extractLsb' 0 2).toNat

/-- A loop of `count` iterations over the rows after the loop row, up to its last row: R32. A count of 0 skips the
body. -/
def CSlot.loop (c : CSlot) (count : Nat) (s : State) : State :=
  s.modCore c.core.toNat (fun k =>
    if count = 0 then
      let (ls, r) := afterRow c.row12 k.loops
      { k with loops := ls, next := some r }
    else { k with loops := { lc := c.lc, idx := 0, count := count, first := k.pc + 1, last := c.row12 } :: k.loops })

/-- An acquire that the check stage found satisfied without a hold: an own tally, whose entries are marked in that
cycle; a take subtracts 1 (R176, R177, R184). One granted in a held turn has done both (R39). -/
def CSlot.satisfied (c : CSlot) (tally scope : Nat) (take : Bool) (s : State) : State :=
  let n := c.core.toNat
  match (s.core n).held with
  | some _ => s
  | none => (if take then s.setTally n tally (s.tally n tally - 1) else s).acquire n scope

/-- Range x[4:0] ← [sa, sb), enabled; outstanding is unchanged: R24, R34. -/
def Machine.actSbDef (c : CSlot) (s : State) : State :=
  let k := s.core c.core.toNat
  s.modCore c.core.toNat (fun k' => { k' with ranges := mset k'.ranges c.x.toNat { (mget {} k'.ranges c.x.toNat : Range) with
    base := k.chk c.sa, fin := k.chk c.sb, enable := true } })

/-- `SB_DEF` as a command: R34. -/
def Machine.execSbDef (c : CSlot) (s : State) : Out := s.slotExec c.core (.sbDef c) "SB_DEF" (Machine.actSbDef c)

/-- Next row is imm[11:0]: R24, R31. -/
def Machine.actBr (c : CSlot) (s : State) : State :=
  c.branch (fun _ => true) s

/-- `BR` as a command: R31. -/
def Machine.execBr (c : CSlot) (s : State) : Out := s.slotExec c.core (.br c) "BR" (Machine.actBr c)

/-- Next row is imm[11:0] if sa = 0: R24, R31. -/
def Machine.actBrZ (c : CSlot) (s : State) : State :=
  c.branch (fun a => a == 0) s

/-- `BR_Z` as a command: R31. -/
def Machine.execBrZ (c : CSlot) (s : State) : Out := s.slotExec c.core (.brZ c) "BR_Z" (Machine.actBrZ c)

/-- Next row is imm[11:0] if sa ≠ 0: R24, R31. -/
def Machine.actBrNz (c : CSlot) (s : State) : State :=
  c.branch (fun a => a != 0) s

/-- `BR_NZ` as a command: R31. -/
def Machine.execBrNz (c : CSlot) (s : State) : Out := s.slotExec c.core (.brNz c) "BR_NZ" (Machine.actBrNz c)

/-- Next row is imm[11:0] if sa < 0 as signed: R24, R31. -/
def Machine.actBrNeg (c : CSlot) (s : State) : State :=
  c.branch (fun a => a.msb) s

/-- `BR_NEG` as a command: R31. -/
def Machine.execBrNeg (c : CSlot) (s : State) : Out := s.slotExec c.core (.brNeg c) "BR_NEG" (Machine.actBrNeg c)

/-- Loop with count imm[31:12]: R24, R32. -/
def Machine.actLoopI (c : CSlot) (s : State) : State :=
  c.loop (c.imm.extractLsb' 12 20).toNat s

/-- `LOOP_I` as a command: R32. -/
def Machine.execLoopI (c : CSlot) (s : State) : Out := s.slotExec c.core (.loopI c) "LOOP_I" (Machine.actLoopI c)

/-- Loop with count sa, a check operand: R24, R32. -/
def Machine.actLoopR (c : CSlot) (s : State) : State :=
  c.loop ((s.core c.core.toNat).chk c.sa) s

/-- `LOOP_R` as a command: R32. -/
def Machine.execLoopR (c : CSlot) (s : State) : Out := s.slotExec c.core (.loopR c) "LOOP_R" (Machine.actLoopR c)

/-- A release of v = s[sb][31:0] + imm to a tally of the panel: R175, R177, R183. -/
def Machine.actTallySig (c : CSlot) (s : State) : State :=
  let n := c.core.toNat
  s.release n (tallyAddr c.owner c.x.toNat) (((s.core n).readChk c.sb).setWidth 32 + c.addend) (s.outbound n c.scope) (.release n 0)

/-- `TALLY_SIG` as a command: R175. -/
def Machine.execTallySig (c : CSlot) (s : State) : Out := s.slotExec c.core (.tallySig c) "TALLY_SIG" (Machine.actTallySig c)

/-- The wait is met: an acquire of its scope (R176, R184). -/
def Machine.actTallyWait (c : CSlot) (s : State) : State :=
  c.satisfied c.x.toNat c.scope false s

/-- `TALLY_WAIT` as a command: R176. -/
def Machine.execTallyWait (c : CSlot) (s : State) : Out := s.slotExec c.core (.tallyWait c) "TALLY_WAIT" (Machine.actTallyWait c)

/-- The take is granted: it subtracts 1 once, and is an acquire of its scope (R39, R176, R184). -/
def Machine.actTallyTake (c : CSlot) (s : State) : State :=
  c.satisfied c.x.toNat c.scope true s

/-- `TALLY_TAKE` as a command: R176. -/
def Machine.execTallyTake (c : CSlot) (s : State) : Out := s.slotExec c.core (.tallyTake c) "TALLY_TAKE" (Machine.actTallyTake c)

/-- A take on `TALLY_63`, then the other bank is active and its row imm[11:0] is next: R51, R55. The loader's writes of the next
segment enter flight (R193, R236). -/
def Machine.actBankFlip (c : CSlot) (s : State) : State :=
  ((c.satisfied 63 0 true s).modCore c.core.toNat (fun k =>
    { k with bank := 1 - k.bank, flips := wrap 16 (k.flips + 1), next := some c.row12 })).stir c.core.toNat

/-- `BANK_FLIP` as a command: R51. -/
def Machine.execBankFlip (c : CSlot) (s : State) : Out := s.slotExec c.core (.bankFlip c) "BANK_FLIP" (Machine.actBankFlip c)

/-- A breakpoint row that has been resumed does nothing more: R24, R249. -/
def Machine.actBrk (c : CSlot) (s : State) : State :=
  s.modCore c.core.toNat (fun k => k)

/-- `BRK` as a command: R24. -/
def Machine.execBrk (c : CSlot) (s : State) : Out := s.slotExec c.core (.brk c) "BRK" (Machine.actBrk c)

/-- The check stage passes no row behind a `task.end`: R29, R190. -/
def Machine.passTaskEnd (c : CSlot) (s : State) : State :=
  s.modCore c.core.toNat (fun k => { k with fetchEnd := true })

/-- The core issues no later row of the task: R24, R190. -/
def Machine.actTaskEnd (c : CSlot) (s : State) : State :=
  s.modCore c.core.toNat (fun k => { k with phase := .ended })

/-- `TASK_END` as a command: R190. -/
def Machine.execTaskEnd (c : CSlot) (s : State) : Out := s.slotExec c.core (.taskEnd c) "TASK_END" (Machine.actTaskEnd c)

end Sys2Proof
end

