-- ==== Sys2Proof/Machine/Ecc.lean ====
section
/-!
DEFINITION. Errors in the memories (R40, R135 to R139, R372 to R376): re-reads of SRAM words, the scrubber, lines that fail, and
sectors of HBM that do not decode. A single-bit error on an ordinary read changes nothing but its count (R135).
-/

namespace Sys2Proof.Machine

/-- The spare lines of the line's buffer or group, and their key: R124. None where the spec names no number (entry 25). -/
def spareLines (w : EccWord) : Nat × Option Nat :=
  match w.buffer with
  | .wb => (10 + w.bank / 16, some 16)
  | .ab => (1, some 32)
  | .pb => (2, some 8)
  | .acc => (3, some 4)
  | .imem => (4, none)

/-- `ECC_LAST`[31:0] for a word: R139. -/
def eccLastOf (w : EccWord) (persisted : Bool) : BitVec 32 :=
  BitVec.ofNat 32 (pack [(0, bufferCode w.buffer), (3, b2n persisted), (4, b2n w.accTag), (8, w.line % 4096),
    (20, if w.accTag then 0 else w.bank % 512)])

/-- An uncorrectable first read is counted, and its re-reads leave their mark: R136, R139. -/
def Phys.uncorrectable (p : Phys) (w : EccWord) (outcome : Reread) : Phys :=
  let p := { p with uncorr := satAdd (2 ^ 8 - 1) p.uncorr 1, eccLast := eccLastOf w (outcome == .failed) }
  if outcome = .good true then (p.corrected w.buffer).weaken w else p

/-- A word has failed for good (R136): the event is recorded, the task of the core replayed, the line remapped to a spare line of
its buffer and the core returned to its panel's spare pool; without a spare line it is retired, once it has drained (R375, R386). -/
def State.lineFailed (s : State) (p : Nat) (w : EccWord) (cause : Nat) : State :=
  let s := s.coreError p cause
  let (key, limit) := spareLines w
  let used : Nat := mget 0 (s.ph p).spares key
  if limit.any (fun l => l ≤ used) then
    s.retire p cause
  else s.modPh p (fun x => { x with spares := mset x.spares key (used + 1), passed := true })

/-- SRAM_UNCORR of a physical core: R136, R416. -/
def State.sramUncorr (s : State) (p : Nat) : State :=
  s.emit 0x0060 p (leBytes 8 (s.ph p).eccLastWord ++ leBytes 1 ((s.logicalOf p).getD 0xFF))

/-- A rescale sequence is longer by the re-reads inside it: R76. -/
def Core.lengthen (c : Core) (cycles : Nat) : Core :=
  { c with late := c.late.map (fun l => if l.rescaling then { l with left := l.left + cycles } else l) }

/-- The gang of a core is to be frozen while a word is re-read: inside a rescale sequence the cycles are part of it, and a port that a
running cable owns holds no turn (R40, R76, R164). -/
def State.rereadHold (s : State) (n : Nat) (word : EccWord) (time : RereadTime) : State :=
  if time.cable && (s.core n).cable.isSome then s
  else if (s.core n).late.any Late.rescaling then s.modCore n (fun c => c.lengthen time.cycles)
  else s.lateHold n { cause := 0xB, detail := bufferCode word.buffer, left := time.cycles }

/-- Held cycles of a turn that the end of the task cuts: they count all the same (R41, R53). -/
def State.lostTurn (s : State) (n cycles : Nat) : State :=
  if ((s.core n).phase = .running ∨ (s.core n).phase = .ended) ∧ 0 < cycles then
    (s.members n).foldl (fun s m => s.modP m (fun p =>
      { p with holdCount := if (s.core m).turn.isNone then p.holdCount + 1 else p.holdCount, holdCycles := p.holdCycles + cycles })) s
  else s

/-- The engine port of a core reads an uncorrectable word: its gang is frozen while the word is re-read; the task stops where both re-reads fail (R40, R53, R136, R164). Instruction memory has no engine port. -/
def execEccReread (core : CoreId) (word : EccWord) (outcome : Reread) (time : RereadTime) (s : State) : Out :=
  let n := core.toNat
  let p := s.physOf n
  if word.buffer = .imem then done s s
  else
    let s' := s.modPh p (fun x => x.uncorrectable word outcome)
    match outcome with
    | .good _ => done s (s'.rereadHold n word time)
    | .failed =>
      let s' := if time.cable && (s.core n).cable.isSome then s' else s'.lostTurn n time.cycles
      done s ((s'.sramUncorr p).lineFailed p word 0x02)

/-- An external-port read meets an uncorrectable word, which is re-read at its home: the requester sees only later completion, and
a word that fails acts as R136 says. -/
def execExternalReread (phys : PhysId) (word : EccWord) (outcome : Reread) (s : State) : Out :=
  let p := phys.toNat
  let s' := s.modPh p (fun x => x.uncorrectable word outcome)
  match outcome with
  | .good _ => done s s'
  | .failed => done s ((s'.sramUncorr p).lineFailed p word (if word.buffer = .imem then 0x03 else 0x02))

/-- Bursts of a scrubber's sweep: R138. -/
def scrubBursts : Nat := 51200

/-- The scrubber of a core outside NAP reads one burst and writes back a corrected word, or the good re-read of an uncorrectable
one; a word that fails acts as R136 says (R138, R307). It reads WB, AB, PB and the instruction banks. -/
def execScrubRead (phys : PhysId) (word : EccWord) (result : EccResult) (outcome : Reread) (s : State) : Out :=
  let p := phys.toNat
  let back (x : Phys) : Phys := { x with scrubCorr := satAdd (2 ^ 16 - 1) x.scrubCorr 1 }
  if (s.ph p).nap ∨ word.buffer = .acc then done s s
  else
    let s' := s.modPh p (fun x => { x with scrubPos := (x.scrubPos + 1) % scrubBursts })
    match result with
    | .clean => done s s'
    | .corrected => done s (s'.modPh p (fun x => { back x with weak := x.weak.filter (fun w => w != word) }))
    | .uncorrectable =>
      let s' := s'.modPh p (fun x => x.uncorrectable word outcome)
      match outcome with
      | .good _ => done s (s'.modPh p (fun x => { back x with weak := x.weak.filter (fun w => w != word) }))
      | .failed => done s ((s'.sramUncorr p).lineFailed p word (if word.buffer = .imem then 0x03 else 0x02))

/-! ### HBM -/

/-- The role of an address in a pattern's ranges: R233. -/
def Pattern.roleAt (p : Pattern) (a : Nat) : Option Nat :=
  (p.man.hbm.find? (fun r => r.base ≤ a && a < r.base + r.len)).map (fun r => r.role)

/-- A sector of HBM fails after two re-reads (R373, R376). Tasks with work on it are replayed; its row is repaired at the channel's
next task boundary, or the channel becomes SUSPECT where no repair is left. Weights, inputs and the firmware's own bytes are
restored; work and results are lost until the replay rewrites them; carried state without a twin is lost with its task. A sector of the
firmware's top 4 GiB, whose parts are not laid out, replays every task that runs (DESIGN CHOICE: entry 55).
`readFirst`: the pattern reads these role-3 bytes before it writes them. -/
def execHbmUncorr (addr : Nat) (sparesLeft readFirst : Bool) (s : State) : Out :=
  let a := addr / 32 * 32
  let c := hbmChannel a
  let s' := s.emit 0x0062 (uChannel c) (leBytes 8 a ++ leBytes 1 (b2n (!sparesLeft)))
  let hit := s.patterns.filter (fun p => (p.roleAt a).isSome)
  let carried (p : Pattern) : Bool := (p.roleAt a == some 4 || (p.roleAt a == some 3 && readFirst)) && !(s.twinLinked && p.twin != 0)
  let lost := hit.any (fun p => carried p || p.roleAt a == some 2 || (p.roleAt a == some 3 && !readFirst))
  let s' := if lost then
      let (k, t) := s'.freeIndex
      { t with hbm := Memory.writeN t.hbm a ((List.range 32).map (Config.freeHbm k)) }
    else s'
  let s' := hit.foldl (fun s p =>
    let live := (s.tasks.filter (fun t => t.handle == p.handle && t.live && t.check == .none)).map (fun t => t.num)
    if carried p then (live.foldl (fun s t => s.endTask t stDegraded) s).loseState p.handle
    else live.foldl (fun s t => s.detected t 0x05 (uChannel c)) s) s'
  let s' := if hbmEnd - 2 ^ 32 ≤ a then
      ((s'.tasks.filter Task.live).map (fun t => t.num)).foldl (fun s t => s.detected t 0x05 (uChannel c)) s'
    else s'
  let b := hbmWithin a
  if sparesLeft then done s (s'.modChannel c (fun x => { x with repairs := if x.repairs.contains b then x.repairs else x.repairs ++ [b] }))
  else if (s'.unit (uChannel c)).state = .suspect then done s s' else done s (s'.setUnit (uChannel c) .suspect 0x05 true)

end Sys2Proof.Machine
end

