-- ==== Sys2Proof/Machine/Scalar.lean ====
section
/-!
DEFINITION. The scalar slot: arithmetic, loads and stores, register reads (R24, R27, R52).
-/

namespace Sys2Proof

open Machine

/-- A two-operand scalar row of latency `lat`: sd receives f of sa and B (R24). -/
def CSlot.alu (c : CSlot) (lat : Nat) (f : BitVec 64 → BitVec 64 → BitVec 64) (s : State) : State :=
  let k := s.core c.core.toNat
  s.writeS c.core.toNat c.sd lat (f (k.readS c.sa) (c.operandB k))

/-- 1 or 0. -/
def Machine.ofFlag (b : Bool) : BitVec 64 := if b then 1 else 0

/-- sd ← sa + B, modulo 2^64: R24. -/
def Machine.actSAdd (c : CSlot) (s : State) : State := c.alu 1 (fun a b => a + b) s

/-- `S_ADD` as a command: R24. -/
def Machine.execSAdd (c : CSlot) (s : State) : Out := s.slotExec c.core (.sAdd c) "S_ADD" (Machine.actSAdd c)

/-- sd ← sa − B, modulo 2^64: R24. -/
def Machine.actSSub (c : CSlot) (s : State) : State := c.alu 1 (fun a b => a - b) s

/-- `S_SUB` as a command: R24. -/
def Machine.execSSub (c : CSlot) (s : State) : Out := s.slotExec c.core (.sSub c) "S_SUB" (Machine.actSSub c)

/-- sd ← sa AND B: R24. -/
def Machine.actSAnd (c : CSlot) (s : State) : State := c.alu 1 (fun a b => a &&& b) s

/-- `S_AND` as a command: R24. -/
def Machine.execSAnd (c : CSlot) (s : State) : Out := s.slotExec c.core (.sAnd c) "S_AND" (Machine.actSAnd c)

/-- sd ← sa OR B: R24. -/
def Machine.actSOr (c : CSlot) (s : State) : State := c.alu 1 (fun a b => a ||| b) s

/-- `S_OR` as a command: R24. -/
def Machine.execSOr (c : CSlot) (s : State) : Out := s.slotExec c.core (.sOr c) "S_OR" (Machine.actSOr c)

/-- sd ← sa XOR B: R24. -/
def Machine.actSXor (c : CSlot) (s : State) : State := c.alu 1 (fun a b => a ^^^ b) s

/-- `S_XOR` as a command: R24. -/
def Machine.execSXor (c : CSlot) (s : State) : Out := s.slotExec c.core (.sXor c) "S_XOR" (Machine.actSXor c)

/-- sd ← sa shifted left by B[5:0]: R24. -/
def Machine.actSShl (c : CSlot) (s : State) : State := c.alu 1 (fun a b => a <<< (b.extractLsb' 0 6).toNat) s

/-- `S_SHL` as a command: R24. -/
def Machine.execSShl (c : CSlot) (s : State) : Out := s.slotExec c.core (.sShl c) "S_SHL" (Machine.actSShl c)

/-- sd ← sa shifted right logically by B[5:0]: R24. -/
def Machine.actSShr (c : CSlot) (s : State) : State := c.alu 1 (fun a b => a >>> (b.extractLsb' 0 6).toNat) s

/-- `S_SHR` as a command: R24. -/
def Machine.execSShr (c : CSlot) (s : State) : Out := s.slotExec c.core (.sShr c) "S_SHR" (Machine.actSShr c)

/-- sd ← sa shifted right arithmetically by B[5:0]: R24. -/
def Machine.actSSra (c : CSlot) (s : State) : State := c.alu 1 (fun a b => a.sshiftRight (b.extractLsb' 0 6).toNat) s

/-- `S_SRA` as a command: R24. -/
def Machine.execSSra (c : CSlot) (s : State) : Out := s.slotExec c.core (.sSra c) "S_SRA" (Machine.actSSra c)

/-- sd ← 1 if sa < B as signed, else 0: R24. -/
def Machine.actSSlt (c : CSlot) (s : State) : State := c.alu 1 (fun a b => ofFlag (a.slt b)) s

/-- `S_SLT` as a command: R24. -/
def Machine.execSSlt (c : CSlot) (s : State) : Out := s.slotExec c.core (.sSlt c) "S_SLT" (Machine.actSSlt c)

/-- sd ← 1 if sa < B as unsigned, else 0: R24. -/
def Machine.actSSltu (c : CSlot) (s : State) : State := c.alu 1 (fun a b => ofFlag (a.ult b)) s

/-- `S_SLTU` as a command: R24. -/
def Machine.execSSltu (c : CSlot) (s : State) : Out := s.slotExec c.core (.sSltu c) "S_SLTU" (Machine.actSSltu c)

/-- sd ← 1 if sa = B, else 0: R24. -/
def Machine.actSSeq (c : CSlot) (s : State) : State := c.alu 1 (fun a b => ofFlag (a == b)) s

/-- `S_SEQ` as a command: R24. -/
def Machine.execSSeq (c : CSlot) (s : State) : Out := s.slotExec c.core (.sSeq c) "S_SEQ" (Machine.actSSeq c)

/-- sd ← low 64 bits of sa × B, latency 3: R24. -/
def Machine.actSMul (c : CSlot) (s : State) : State := c.alu 3 (fun a b => a * b) s

/-- `S_MUL` as a command: R24. -/
def Machine.execSMul (c : CSlot) (s : State) : Out := s.slotExec c.core (.sMul c) "S_MUL" (Machine.actSMul c)

/-- sd ← sign-extended imm: R24. -/
def Machine.actSLi (c : CSlot) (s : State) : State :=
  s.writeS c.core.toNat c.sd 1 (c.imm.signExtend 64)

/-- `S_LI` as a command: R24. -/
def Machine.execSLi (c : CSlot) (s : State) : Out := s.slotExec c.core (.sLi c) "S_LI" (Machine.actSLi c)

/-- sd ← (imm << 32) OR (sa AND 0xFFFF_FFFF): R24. -/
def Machine.actSLui (c : CSlot) (s : State) : State :=
  s.writeS c.core.toNat c.sd 1 (c.imm ++ ((s.core c.core.toNat).readS c.sa).setWidth 32)

/-- `S_LUI` as a command: R24. -/
def Machine.execSLui (c : CSlot) (s : State) : Out := s.slotExec c.core (.sLui c) "S_LUI" (Machine.actSLui c)

/-- sd ← 8 bytes at sa + imm in own WB, AB or PB, latency 6: R24. -/
def Machine.actSLd (c : CSlot) (s : State) : State :=
  let n := c.core.toNat
  s.writeS n c.sd 6 (BitVec.ofNat 64 (leNat (s.bufRead n (c.addr (s.core n)) 8)))

/-- `S_LD` as a command: R24. -/
def Machine.execSLd (c : CSlot) (s : State) : Out := s.slotExec c.core (.sLd c) "S_LD" (Machine.actSLd c)

/-- 8 bytes of sb → sa + imm in own WB, AB or PB, visible after 4 cycles: R24. -/
def Machine.actSSt (c : CSlot) (s : State) : State :=
  let n := c.core.toNat
  s.store n (c.addr (s.core n)) 4 (leBytes 8 ((s.core n).readS c.sb).toNat)

/-- `S_ST` as a command: R24. -/
def Machine.execSSt (c : CSlot) (s : State) : Out := s.slotExec c.core (.sSt c) "S_ST" (Machine.actSSt c)

/-- sd ← core register with index imm[11:0], latency 2: R24, R52. -/
def Machine.actSRdreg (c : CSlot) (s : State) : State :=
  let n := c.core.toNat
  s.writeS n c.sd 2 (BitVec.ofNat 64 (s.rdreg n c.row12))

/-- `S_RDREG` as a command: R52. -/
def Machine.execSRdreg (c : CSlot) (s : State) : Out := s.slotExec c.core (.sRdreg c) "S_RDREG" (Machine.actSRdreg c)

end Sys2Proof
end

