-- ==== Sys2Proof/Machine/Referee.lean ====
section
/-!
DEFINITION. The referee of a DEBUG load (R247): the registers and bytes a slot reads and writes, and the events found in a row
that issues. It changes no bit of the computation.
-/

namespace Sys2Proof

open Machine

/-- Scalar registers that a slot reads in its issue cycle: R24, R143, R156, R213. -/
def Instr.issueReads : Instr → List (BitVec 5)
  | .sAdd c | .sSub c | .sAnd c | .sOr c | .sXor c | .sShl c | .sShr c | .sSra c | .sSlt c | .sSltu c | .sSeq c | .sMul c =>
    c.sa :: (if c.x.getLsbD 0 then [] else [c.sb])
  | .sLui c => [c.sa]
  | .sSt c => [c.sb]
  | .vSetvl v => [v.rs]
  | .spWord b | .spSig b | .fifoPush b => [b.cnt]
  | .dmaGet d | .dmaPut d => [d.rr]
  | _ => []

/-- Scalar registers that a slot reads at its check stage: R23, R29. -/
def Instr.checkReads : Instr → List (BitVec 5)
  | .sLd c | .sSt c | .brZ c | .brNz c | .brNeg c | .loopR c | .tallyWait c => [c.sa]
  | .tallySig c => [c.sb]
  | .sbDef c => [c.sa, c.sb]
  | .mmPass m | .mmDiag m => m.xa :: (if m.keepS then [] else [m.wa])
  | .mmTile m => [m.xa, m.wa, m.pa, m.ta]
  | .mmDrain m => [m.pa]
  | .mmMon m => [m.xa]
  | .vLd v | .vSt v => v.ab :: (if v.am = 1 ∨ v.am = 2 then [v.st] else [])
  | .ribPut b | .bMove b | .spPut b | .spGet b => [b.src, b.dst]
  | .spWord b | .spSig b => [b.dst]
  | .dmaGet d => [d.desc, d.dst]
  | .dmaPut d => [d.desc, d.src]
  | .strandSend d => [d.src]
  | .cableRun d => [d.desc]
  | _ => []

/-- Vector registers that a slot reads: R114. -/
def Instr.vectorReads : Instr → List (BitVec 5)
  | .vAdd v | .vSub v | .vMul v | .vMin v | .vMax v | .vAnd v | .vOr v | .vXor v | .vSel v | .vCeq v | .vClt v | .vCle v => [v.va, v.vb]
  | .vFma v | .vFnma v | .vWfma v => [v.va, v.vb, v.vc]
  | .vShl v | .vShr v | .vSra v => v.va :: (if v.fl then [v.vb] else [])
  | .vCvt v => v.va :: (if cvtHasF v.ty v.dty && !v.fl then [v.vb] else [])
  | .vAbs v | .vNeg v | .vPopc v | .vCvtbs v | .vExp v | .vLog v | .vRcp v | .vRsqrt v | .vTanh v | .vErf v
  | .vCompress v | .vExpand v | .vRedsum v | .vRedmax v | .vRedmin v => [v.va]
  | .vSieve v => [v.va, v.vb, v.vd, v.vd + 1]
  | .vSt v => [v.va]
  | _ => []

/-- Mask registers that a slot reads: R110, R114. -/
def Instr.maskReads (i : Instr) : List (BitVec 3) :=
  match i with
  | .mAnd v | .mOr v | .mXor v | .mAndn v => [v.va.setWidth 3, v.vb.setWidth 3]
  | _ => match i.vslot with
    | some v => if v.maskEn then [v.mask] else []
    | none => []

/-- Whether a slot reads VL: a V slot other than `v.setvl` (R109; entry 53). -/
def Instr.readsVl (i : Instr) : Bool :=
  i.vslot.isSome && (match i with
    | .vSetvl _ => false
    | _ => true)

/-- The bytes of the header, the stage descriptors, the program, the constant area and the rings: R163. -/
def Machine.Cable.ownedBytes (k : Cable) : List (Nat × Nat) :=
  k.area ++ [k.ringA, k.ringB, k.ringC].map (fun r => (r.base, r.slot * r.slots))

/-- Deliveries in progress into a core's own window, as spans: its gets, moves and reads, what it puts there itself, the outputs of
`mm.tile` and `mm.drain`, the bursts others have on their way, and granted messages (R35, R37, R72). -/
def Machine.State.deliveries (s : State) (n : Nat) : List (Nat × Nat) :=
  let c := s.core n
  let gets := (c.queues.flatMap (fun q => q.2)).filterMap (fun e => if e.isGet && e.landed != e.desc.bursts.length then
      some (e.desc.localSpan true) else none)
  let shorts := (c.short.filter (fun o => (o.kind == 1 || o.kind == 9) && !o.done)).map (fun o => (o.loc, o.len))
  let puts := (c.queues.flatMap (fun q => q.2)).flatMap (fun e => if e.isGet || e.written then [] else s.ownWrites n e.desc)
  let outs := c.pipe.filterMap (fun p => match p.dst with
    | .mout k off b => if s.cycle n < p.due ∧ c.mx.work.any (fun w => w.id == k && w.output) then some (off, b.length) else none
    | _ => none)
  let others := s.flight.filterMap (fun x => match x.kind, (if x.origin == .outside then localPlace (x.dst % 2 ^ 56) else s.place x.core x.dst) with
    | .write, .win m off => if m = n ∧ x.core ≠ n then some (off, x.data.length) else none
    | _, _ => none)
  let grants := c.skeins.flatMap (fun k => k.2.grants.map (fun g => (k.2.base + g.pos, 64 * g.req.g)))
  gets ++ shorts ++ puts ++ outs ++ others ++ grants

/-- Whether an enabled range holds a whole span. -/
def Machine.Core.tracked (c : Core) (off len : Nat) : Bool :=
  c.ranges.any (fun r => r.2.enable && decide (r.2.base ≤ off ∧ off + len ≤ r.2.fin))

/-- The static bytes of a descriptor or a cable header, where a resident entry of the core places them: R233, R247 (entry 26). -/
def Machine.State.staticBytes (s : State) (n off len : Nat) : Option (List Byte) :=
  match (s.core n).task.bind s.task with
  | none => none
  | some t => match (s.pattern t.handle).bind (fun p => (recFor p.image n).map (fun r => (p, r))) with
    | none => none
    | some (p, r) => (r.residents.find? (fun e => e.win ≤ off && off + len ≤ e.win + e.len)).map (fun e =>
        Memory.readN s.hbm ((wrefAt p.image e.ref).addr + e.off + (off - e.win)) len)

/-- The events the referee finds in a slot that issues, each with its window offset or register: R247. A neighbour's rib write counts among
the writes that are not yet visible, and a descriptor is read at the check stage, four cycles before (R30, R47, R144). -/
def Machine.State.refereeSlot (s : State) (n : Nat) (i : Instr) : List (Nat × Nat) :=
  let c := s.core n
  let t := s.cycle n
  let late := c.pipe.filter (fun p => t < p.due)
  let reads := s.readsFrom n i
  let copies := s.copySpans n i
  let writes : List (Nat × Nat × Nat) := ((s.writesTo n i ++ s.delivers n i).map (fun w => (n, w.1, w.2)) ++
    (match i with
     | .ribPut b => (s.ribTargets n b).map (fun m => (m, b.ribDst c, 64))
     | _ => [])).eraseDups
  let early := late.filterMap (fun p => match p.dst with
    | .sreg r _ => if i.issueReads.contains r then some r.toNat else none
    | .sview r _ => if i.checkReads.contains r then some r.toNat else none
    | .vreg r _ _ => if i.vectorReads.contains r then some r.toNat else none
    | .mreg r _ _ => if i.maskReads.contains r then some r.toNat else none
    | .vlview _ => if i.readsVl then some 0 else none
    | .vl _ => none
    | .mout _ off b => if reads.any (fun r => overlaps r.1 r.2 off b.length) then some off else none
    | .bytes _ _ _ | .fifoWord _ _ _ | .credit _ _ => none)
  let stores := (s.members n).flatMap (fun m => ((s.core m).pipe.filter (fun p => s.cycle m < p.due)).filterMap (fun p => match p.dst with
    | .bytes k off b => if k = n ∧ reads.any (fun r => overlaps r.1 r.2 off b.length) then some off else none
    | _ => none))
  let old := (c.chkOld.filter (fun e => t < e.1 && copies.any (fun r => overlaps r.1 r.2 e.2.1 e.2.2.length))).map (fun e => e.2.1)
  let early := early ++ stores ++ old
  let untracked := (s.deliveries n).filterMap (fun d => ((s.touches n i).find? (fun r => overlaps r.1 r.2 d.1 d.2)).bind (fun r =>
    let lo := max r.1 d.1
    if c.tracked lo (min (r.1 + r.2) (d.1 + d.2) - lo) then none else some lo))
  let unacq := if i.readsAtPort then c.unacquired.filter (fun b => reads.any (fun r => overlaps r.1 r.2 (256 * b) 256)) else []
  let owned := writes.filter (fun w => (s.core w.1).cable.any (fun k => k.ownedBytes.any (fun r => overlaps w.2.1 w.2.2 r.1 r.2)))
  let payload := writes.filter (fun w => (s.core w.1).sends.any (fun e => e.2.queue.any (fun m =>
    overlaps w.2.1 w.2.2 m.payload (64 * m.g - 16))))
  let desc := copies.filterMap (fun a => match s.staticBytes n a.1 a.2 with
    | some b => if s.chkRead n a.1 a.2 = b then none else some a.1
    | none => none)
  early.map (fun r => (1, r)) ++ untracked.map (fun r => (2, r)) ++ unacq.map (fun b => (3, 256 * b)) ++
    owned.map (fun w => (4, w.2.1)) ++ payload.map (fun w => (5, w.2.1)) ++ desc.map (fun a => (6, a))

/-- An entry of the referee log: R247 names its contents; its byte layout is the model's (entry 26). -/
def Machine.State.refereeEntry (s : State) (n : Nat) (x : Issue) (e : Nat × Nat) : List Byte :=
  let c := s.core n
  leBytes 1 e.1 ++ leBytes 1 n ++ leBytes 2 (mget 0 c.segs (if x.fetched then x.bank else c.bank)) ++
    leBytes 2 (if x.fetched then x.pc else c.pc) ++ leBytes 1 x.tag ++ [0] ++ leBytes 8 e.2 ++ leBytes 8 s.clock.gt ++ zeros 8

/-- The referee watches a row of a DEBUG load: events are logged, in 256 entries that wrap, and under STOP or a breakpoint of kind 6
the row at the check stage takes a BREAK hold, which starts at the fourth issue cycle after (R247, R248). -/
def Machine.State.watch (s : State) (n : Nat) (x : Issue) : State :=
  match s.debugOf n with
  | none => s
  | some d =>
    let es := x.row.flatMap (s.refereeSlot n)
    if es.isEmpty then s
    else
      let log := s.referee ++ es.map (s.refereeEntry n x)
      let hit (b : Break) : Bool := b.kind == 6 && (b.core == 0xFF || b.core == n) && es.any (fun e => b.sel == 0 || b.sel == e.1)
      let stop := d.stop || d.breaks.any hit
      let s : State := { s with
        referee := log.drop (log.length - 256),
        debug := (s.debug).map (fun e => if e = d then { e with breaks := e.breaks.filter (fun b => !(hit b && b.oneShot)) } else e) }
      if stop then s.modCore n (fun c => { c with stepLeft := some 0 }) else s

end Sys2Proof
end

