-- ==== Sys2Proof/Machine/Issue.lean ====
section
/-!
DEFINITION. The issue cycle of a gang (R27 to R29, R38 to R45): the check stage fetches and decodes the rows that are due four cycles on,
and stays on them while any member finds a condition; the rows it let through four cycles before act together; and the cycles of a
held turn.
-/

namespace Sys2Proof.Machine

/-! ### A row passes the check stage -/

/-- What a slot does as its row passes the check stage: ranges, branches, loops, waits, takes and bank flips, the credit of a push, and
the end of the task's rows (R24, R29, R31, R32, R34, R51, R176, R190, R213). -/
def State.passSlot (s : State) (i : Instr) : State :=
  match i with
  | .sbDef c => actSbDef c s
  | .br c => actBr c s
  | .brZ c => actBrZ c s
  | .brNz c => actBrNz c s
  | .brNeg c => actBrNeg c s
  | .loopI c => actLoopI c s
  | .loopR c => actLoopR c s
  | .tallyWait c => actTallyWait c s
  | .tallyTake c => actTallyTake c s
  | .bankFlip c => actBankFlip c s
  | .taskEnd c => passTaskEnd c s
  | .fifoPush b => passFifoPush b s
  | _ => s

/-- A row passes the check stage of core `m`: its deliveries are counted, its descriptors copied, its control flow decided, and it
takes its place among the rows that wait to issue (R29, R31, R32, R35, R144, R249). `h` is the hold it met, if any. DESIGN CHOICE: what the row
itself touches and delivers is counted with the ranges as they were before its own `sb.def` (entry 54). -/
def State.passRow (s : State) (m : Nat) (x : Issue) (h : Option (Nat × Nat)) : State :=
  let v := s.checkView m x.due
  let c := s.core m
  let counts := x.row.map (v.deliverRanges m)
  let k : Checked :=
    { row := x.row, pips := x.pips, tag := x.tag, pc := x.pc, bank := x.bank, loops := c.loops, counts := counts,
      queues := x.row.flatMap (v.takesQueues m), copied := (x.row.flatMap (v.copySpans m)).map (fun a => (a.1, v.chkRead m a.1 a.2)),
      breach := x.row.findSome? (v.checkBreach m), hold := h }
  let v := v.readWeak m (x.row.flatMap (v.copySpans m))
  let t := x.row.foldl State.passSlot (v.modCore m (fun c => c.countUp counts.flatten))
  t.modCore m (fun y => { y.nextRow with sChk := c.sChk, vlChk := c.vlChk, chkOld := c.chkOld, held := none,
                                         skid := y.skid ++ [some k], stepLeft := y.stepLeft.map (fun j => j - 1) })

/-! ### The check stage of a gang -/

/-- The row at a core's row pointer, decoded: R22, R49. -/
def State.fetchRow (s : State) (m : Nat) : Option Row :=
  let c := s.core m
  decodeRow (BitVec.ofNat 8 m) (mget 0 (s.pcore m).imem (4096 * c.bank + c.pc % 4096))

/-- The count of rows issued before the row at the check stage: R27, R53. `now` is 1 while a row issues in the cycle now open. -/
def State.dueAt (s : State) (m now : Nat) : Nat := s.cycle m + now + (s.core m).pastCheck.length

/-- The row at a core's check stage: the one it holds, else the one at the row pointer; none where that is a reserved encoding (R22,
R29, R39). -/
def State.checkRow (s : State) (m now : Nat) : Option Issue :=
  let c := s.core m
  match c.held with
  | some h => some { row := h.row, pips := h.pips, tag := h.tag, fetched := true, due := s.dueAt m now, pc := c.pc, bank := c.bank }
  | none => (s.fetchRow m).map (fun w =>
      { row := w.slots, pips := w.pips.toNat, tag := w.tag.toNat, fetched := true, due := s.dueAt m now, pc := c.pc, bank := c.bank })

/-- A gang's check stage stays on its rows, and no row will issue four cycles on: rows held for the first time begin their hold, and the
others are checked again (R39, R45). -/
def State.stayOn (s : State) (rows : List (Nat × Issue)) : State :=
  let again := rows.filter (fun r => (s.core r.1).held.isSome)
  let s' := again.foldl (fun s' r => s'.modCore r.1 (fun c =>
    { c with held := c.held.map (fun h => h.again (s.checkHolds r.1 r.2)) })) s
  let s' := s'.beginHold (rows.filter (fun r => (s.core r.1).held.isNone))
  rows.foldl (fun s r => s.modCore r.1 (fun c => { c with skid := c.skid ++ [none] })) s'

/-- The word of the instruction memory that core `m` fetches next. -/
def State.fetchWord (s : State) (m : Nat) : EccWord :=
  { buffer := .imem, line := (s.core m).pc % 4096, bank := (s.core m).bank }

/-- What the fetch of the row at a core's row pointer meets: an error that is stored in the row, or one that has appeared by now (R135,
R137). -/
def State.rowFetched (s : State) (m : Nat) (fetch : List FetchFact) : EccResult :=
  let met := (fetch.find? (fun f => f.core.toNat == m && f.row == (s.core m).pc % 4096)).elim .clean (fun f => f.result)
  if met == .clean && (s.pcore m).weak.contains (s.fetchWord m) then .corrected else met

/-- A corrected fetch is counted, and the row stays as it is: R135, R139. -/
def State.noteFetch (s : State) (fetch : List FetchFact) (m : Nat) : State :=
  if s.rowFetched m fetch = .corrected then s.modP m (fun p => (p.corrected .imem).weaken (s.fetchWord m)) else s

/-- An uncorrectable instruction word stops the task: its row is remapped, and the replay's cast-on loads the bank again (R137). -/
def State.imemFailed (s : State) (n : Nat) : State :=
  let c := s.core n
  let p := s.physOf n
  let w := s.fetchWord n
  let s := s.modPh p (fun x => { x with uncorr := satAdd (2 ^ 8 - 1) x.uncorr 1, eccLast := eccLastOf w false })
  (s.emit 0x0061 p (leBytes 1 c.bank ++ leBytes 2 (c.pc % 4096) ++ leBytes 1 n)).lineFailed p w 0x03

/-- A lending core whose check stage finds no hold cause other than PIPS requests its pips back: R293, R296. -/
def State.askPips (s : State) (n : Nat) (hs : List (Nat × Nat)) : State :=
  if (s.core n).lent ≠ 0 ∧ hs.all (fun x => x.1 == 0xA) = true then s.modCore n (fun c => { c with reclaiming := true }) else s

/-- One cycle of the check stage of a gang: a condition at any member keeps every member on its row; else every member's row passes (R29,
R39, R45). A row that is fetched may be uncorrectable: its task stops (R137). None where a member meets a reserved encoding. -/
def State.checkStage (s : State) (n now : Nat) (fetch : List FetchFact) : Option State :=
  let new := (s.checking n).filter (fun m => (s.core m).held.isNone)
  match new.find? (fun m => s.rowFetched m fetch == .uncorrectable) with
  | some m => some (s.imemFailed m)
  | none =>
    let found := (s.checking n).map (fun m => (m, s.checkRow m now))
    if found.any (fun r => r.2.isNone) then none
    else
      let s := new.foldl (fun s m => s.noteFetch fetch m) s
      let rows := found.filterMap (fun r => r.2.map (fun x => (r.1, x)))
      let s := rows.foldl (fun t r => t.askPips r.1 (s.checkHolds r.1 r.2)) s
      if rows.any (fun r => !(s.checkHolds r.1 r.2).isEmpty) then some (s.stayOn rows)
      else some (rows.foldl (fun s' r => s'.passRow r.1 r.2 (s.core r.1).ownHeld) s)

/-- The check stage runs until four cycles lie between it and issue, as it has before a core's first row: R29. -/
def State.fillSkid (s : State) (n : Nat) (fetch : List FetchFact) : Nat → Option State
  | 0 => some s
  | k + 1 =>
    if (s.checking n).any (fun m => (s.core m).skid.length < 4) then (s.checkStage n 0 fetch).bind (fun s => s.fillSkid n fetch k) else some s

/-! ### Rows issue -/

/-- What a control slot does in its issue cycle: those that act at the check stage have acted (R24, R29). -/
def actC (i : Instr) (s : State) : State :=
  match i with
  | .sAdd c => actSAdd c s
  | .sSub c => actSSub c s
  | .sAnd c => actSAnd c s
  | .sOr c => actSOr c s
  | .sXor c => actSXor c s
  | .sShl c => actSShl c s
  | .sShr c => actSShr c s
  | .sSra c => actSSra c s
  | .sSlt c => actSSlt c s
  | .sSltu c => actSSltu c s
  | .sSeq c => actSSeq c s
  | .sMul c => actSMul c s
  | .sLi c => actSLi c s
  | .sLui c => actSLui c s
  | .sLd c => actSLd c s
  | .sSt c => actSSt c s
  | .sRdreg c => actSRdreg c s
  | .tallySig c => actTallySig c s
  | .brk c => actBrk c s
  | .taskEnd c => actTaskEnd c s
  | _ => s

/-- What a slot of the M, B or D kind does in its issue cycle, its deliveries counted into `ranges`: R61, R156, R143. -/
def actMBD (i : Instr) (ranges : List Nat) (s : State) : State :=
  match i with
  | .mmPass m => actMmPass m s
  | .mmTile m => actMmTile m ranges s
  | .mmDiag m => actMmDiag m s
  | .mmDrain m => actMmDrain m ranges s
  | .mmMon m => actMmMon m s
  | .ribPut b => actRibPut b s
  | .bMove b => actBMove b ranges s
  | .spPut b => actSpPut b s
  | .spGet b => actSpGet b ranges s
  | .spSig b => actSpSig b s
  | .spWord b => actSpWord b s
  | .fifoPush b => actFifoPush b s
  | .fifoPop b ok => actFifoPop b ok s
  | .fifoStat b => actFifoStat b s
  | .dmaGet d => actDmaGet d ranges s
  | .dmaPut d => actDmaPut d ranges s
  | .strandSend d => actStrandSend d s
  | .cableRun d => actCableRun d s
  | _ => s

/-- What a slot of a row does in its issue cycle. -/
def actSlot (s : State) (x : Instr × List Nat) : State :=
  if (opC x.1).isSome then actC x.1 s else if x.1.vslot.isSome then actV x.1 s else actMBD x.1 x.2 s

/-- The parity of the head word that a `fifo.pop` of the row meets: R214, R215. -/
def withParity (ok : Bool) : Instr → Instr
  | .fifoPop b _ => .fifoPop b ok
  | i => i

/-- The rows that are due at a gang's members in the cycle now open: R29, R44. -/
def State.dueRows (s : State) (n : Nat) : List (Nat × Checked) :=
  (s.issuing n).filterMap (fun m => match (s.core m).skid with
    | some k :: _ => some (m, k)
    | _ => none)

/-- The first breach in rows that are to issue, found at their check stage or now, with its core: R167. -/
def State.rowBreach (s : State) (rows : List (Nat × Checked)) : Option (Nat × Nat × Nat) :=
  rows.findSome? (fun r => (r.2.breach.or (r.2.row.findSome? (s.issueBreach r.1))).map (fun b => (r.1, b.1, b.2)))

/-- The row as the referee logs it. -/
def Checked.issue (k : Checked) (due : Nat) : Issue :=
  { row := k.row, pips := k.pips, tag := k.tag, fetched := true, due := due, pc := k.pc, bank := k.bank }

/-- Descriptors and headers read as they were copied: R144, R161. -/
def Core.overlay (c : Core) (k : Checked) : Core := { c with chkOld := k.copied.map (fun e => (0, e.1, e.2)) ++ c.chkOld }

/-- The copies of a row that has issued are gone. -/
def Core.unlay (c : Core) (k : Checked) : Core := { c with chkOld := c.chkOld.drop k.copied.length, rowFrom := none }

/-- Rows issue in every member at once: a breach ends the task; else the referee watches, and the slots act (R27, R44, R167, R247). -/
def State.issueRows (s : State) (rows : List (Nat × Checked)) : State × Bool :=
  let t := rows.foldl (fun t r => t.modCore r.1 (fun c => { c.overlay r.2 with rowFrom := some s.nextId })) s
  match t.rowBreach rows with
  | some (n, rule, d) => (s.programFault n rule d, false)
  | none =>
    let t := rows.foldl (fun t r => t.watch r.1 (r.2.issue (s.cycle r.1))) t
    let t := rows.foldl (fun t r => (r.2.row.zip r.2.counts).foldl actSlot t) t
    (rows.foldl (fun t r => t.modCore r.1 (fun c => c.unlay r.2)) t, true)

/-- The engine ports of the rows that are due read: words that hold a stored error are corrected again (R135, R139). -/
def State.portReads (s : State) (n : Nat) : State :=
  (s.dueRows n).foldl (fun t r => t.readWeak r.1 (r.2.row.flatMap (s.portSpans r.1))) s

/-- Whether the words popped at a core have the right parity. -/
def parityAt (ports : List PortFact) (m : Nat) : Bool := (ports.filter (fun x => x.core.toNat == m)).all (fun x => x.parityOk)

/-- The rows of a gang whose check stage found no hold four cycles before issue together, while its check stage goes on (R27, R29, R39,
R44). `fetch` is what the members' fetches meet (R137), and `ports` what has become of their memories and FIFOs (R135, R210); a row whose
encoding is reserved never passes the loader (R240). -/
def execIssueCycle (core : CoreId) (fetch : List FetchFact) (ports : List PortFact) (s : State) : Out :=
  let n := core.toNat
  let s' := s.appear ports
  if (s.core n).phase ≠ .running then done s s'
  else match s'.fillSkid n fetch 4 with
  | none => .refused (.reservedEncoding "ISSUE_CYCLE")
  | some s' =>
    if (s'.core n).phase ≠ .running ∨ s'.stalled n then done s s'
    else
      let s' := s'.portReads n
      let rows := (s'.dueRows n).map (fun r => (r.1, { r.2 with row := r.2.row.map (withParity (parityAt ports r.1)) }))
      let ms := s'.issuing n
      let (t, ok) := s'.issueRows rows
      if !ok then done s t
      else match ((s'.members n).foldl (fun t m => t.modCore m Core.popSkid) t).checkStage n 1 fetch with
        | none => .refused (.reservedEncoding "ISSUE_CYCLE")
        | some u => done s (u.advance n ms)

/-! ### Held turns -/

/-- A slot command's held cycle: its conditions are evaluated again, and where none is left it acts (R39; entry 5). -/
def State.slotCycle (s : State) (n : Nat) : State :=
  let rows := (s.members n).filterMap (fun m => (s.core m).held.bind (fun h =>
    if h.fetched then none else some (m, ({ row := h.row, pips := h.pips, tag := h.tag } : Issue))))
  let found := rows.map (fun r => (r.1, s.rowHolds r.1 r.2))
  let s := found.foldl (fun s f => s.askPips f.1 f.2) s
  if found.any (fun f => !f.2.isEmpty) then
    found.foldl (fun s f => s.modCore f.1 (fun c => { c with held := c.held.map (fun h => h.again f.2) })) s
  else
    match rows.findSome? (fun r => (r.2.row.findSome? (s.slotBreach r.1)).map (fun b => (r.1, b.1, b.2))) with
    | some (m, rule, d) => s.programFault m rule d
    | none =>
      let counts := rows.map (fun r => r.2.row.map (s.deliverRanges r.1))
      let s := rows.foldl (fun s r => r.2.row.foldl State.passSlot s) s
      let s := (rows.zip counts).foldl (fun s r => (s.modCore r.1.1 (fun c => c.countUp r.2.flatten))) s
      let s := rows.foldl (fun t r => t.readWeak r.1 (r.2.row.flatMap (s.portSpans r.1))) s
      let s := (rows.zip counts).foldl (fun s r => (r.1.2.row.zip r.2).foldl actSlot s) s
      rows.foldl (fun s r => s.modCore r.1 (fun c => { c with held := none })) s

/-- A held cycle of a gang: it is counted, the tally network goes on, and unless a late hold freezes the check stage too, the check stage
evaluates its row again (R39 to R41, R45). None where it meets a reserved encoding. -/
def State.heldCycle (s : State) (n : Nat) (fetch : List FetchFact) : Option State :=
  let ms := s.members n
  let s := s.heldStep n
  if s.lateIn n then some (s.lateStep n)
  else if ms.any (fun m => (s.core m).slotHeld) then some (s.slotCycle n)
  else (ms.foldl (fun s m => s.modCore m Core.popSkid) s).checkStage n 0 fetch |>.map (fun s =>
    ms.foldl (fun s m => s.modCore m Core.lateNearer) s)

/-- Held cycles pass, `cycles` at most, until the gang's rows may issue or a rescale sequence asks for its own command (R39, R40, R75). -/
def State.heldCycles (s : State) (n : Nat) (fetch : List FetchFact) : Nat → Option State
  | 0 => some s
  | k + 1 => if s.stalled n ∧ s.mayPass n then (s.heldCycle n fetch).bind (fun s => s.heldCycles n fetch k) else some s

/-- Cycles pass at a core that issues no row: its quiet and waiting cycles count, and its pipelines go on, unless they go on with the rows of
its gang (R44, R190, R192, R294). -/
def State.idlePass (s : State) (n cycles : Nat) : State :=
  let s := s.countQuiet n cycles
  if (s.issuing n).isEmpty then s.drainPass n cycles else s

/-- Held cycles of a gang pass, and its turn ends once a row is due that meets no hold (R39, R41, R45, R53, R54). On a core that issues no
row and is in no held turn, the cycles pass without one (R190, R192, R294). -/
def execHeldTurnEnd (core : CoreId) (held : HeldFacts) (s : State) : Out :=
  let n := core.toNat
  if !(s.members n).contains n ∨ (s.core n).phase ≠ .running ∧ !s.stalled n then done s (s.idlePass n held.cycles)
  else match s.heldCycles n held.fetch held.cycles with
    | none => .refused (.reservedEncoding "HELD_TURN_END")
    | some t => done s (if t.stalled n then t else t.closeTurn n)

end Sys2Proof.Machine
end

