-- ==== Sys2Proof/Machine/Genqual.lean ====
section
/-!
DEFINITION. The Genqualer's phases A and B (R229 to R234, R237 to R240): the refusal record, the checks of the image and of the
manifest.
-/

namespace Sys2Proof.Machine

/-! ### The refusal record -/

/-- A refusal or a warning: R239. -/
structure Refuse where
  code : Nat
  slot : Nat := 0
  context : Nat := 0
  core : Nat := 0
  segment : Nat := 0xFFFF
  row : Nat := 0xFFFF
  detail : Nat := 0
  deriving DecidableEq, Repr

/-- Its place in the order core, segment, row, slot, code: R239. -/
def Refuse.key (r : Refuse) : Nat := (((r.core * 2 ^ 16 + r.segment) * 2 ^ 16 + r.row) * 2 ^ 8 + r.slot) * 2 ^ 16 + r.code

/-- The 16 bytes of the record: R239. -/
def Refuse.record (r : Refuse) (count : Nat) : List Byte :=
  leBytes 2 r.code ++ leBytes 1 r.slot ++ leBytes 1 r.context ++ leBytes 1 r.core ++ [0] ++ leBytes 2 r.segment ++ leBytes 2 r.row ++
    leBytes 2 (min 65535 count) ++ leBytes 4 r.detail

/-- The refusal that 16 bytes record. -/
def Refuse.ofRecord (v : Nat) : Refuse :=
  { code := field v 15 0, slot := field v 23 16, context := field v 31 24, core := field v 39 32, segment := field v 63 48,
    row := field v 79 64, detail := field v 127 96 }

/-- The lowest of the refusals of a phase: R239. -/
def firstRefusal (rs : List Refuse) : Option Refuse :=
  rs.foldl (fun a r => match a with
    | some b => if r.key < b.key then some r else some b
    | none => some r) none

/-- A refusal of the image: context 5 (R239). -/
def imgRefuse (code detail : Nat) : Refuse := { code := code, context := 5, detail := detail }

/-- A refusal of the manifest: context 4 (R239). -/
def manRefuse (code core detail : Nat) : Refuse := { code := code, context := 4, core := core, detail := detail }

/-- Refuse where a condition fails. -/
def need (ok : Bool) (r : Refuse) : List Refuse := if ok then [] else [r]

/-- The offset of the first byte of a reserved area that is not 0. -/
def firstSet (b : List Byte) (off n : Nat) : Option Nat := (List.range n).findSome? (fun i => if leAt b (off + i) 1 = 0 then none else some (off + i))

/-! ### Phase A: the image -/

/-- The bytes of the signature block: R229. -/
def sigLen : Nat := 192

/-- Whether a table lies on a 64-byte boundary inside the signed part of the image: R229. -/
def tableOk (b : List Byte) (off n : Nat) : Bool := off % 64 == 0 && decide (64 ≤ off ∧ off + n ≤ imgSigOff b)

/-- Offsets in the image at which its form is broken: R229, R233 (IMG_FORMAT). The tables are looked at once the header stands. -/
def imgFormat (b : List Byte) : List Nat :=
  if b.length < 64 + sigLen then [0]
  else
    let m := imgMan b
    let tables : List (Nat × Nat × Nat) :=
      [(16, m, leAt b 20 4), (24, imgSegOff b, 16 * imgSegCount b), (32, imgWrefOff b, 64 * imgWrefCount b),
       (m + 40, leAt b (m + 40) 4, 4 * leAt b (m + 6) 2), (m + 44, leAt b (m + 44) 4, 1024 * leAt b m 2),
       (m + 48, leAt b (m + 48) 4, leAt b (m + 52) 4), (m + 56, leAt b (m + 56) 4, 16 * leAt b (m + 60) 2)]
    let header :=
      (if b.take 4 = [0x50, 0x4C, 0x50, 0x54] then [] else [0]) ++
      [(6, 2), (38, 2), (44, 4)].filterMap (fun z => firstSet b z.1 z.2) ++
      (if imgLen b = b.length then [] else [8]) ++ (if leAt b 20 4 < 128 then [20] else []) ++
      (if imgSegCount b = 0 ∨ 65535 < imgSegCount b then [28] else []) ++ (if 4096 < imgWrefCount b then [36] else []) ++
      (if imgSigOff b + sigLen = b.length ∧ imgSigOff b % 64 = 0 then [] else [40])
    if !header.isEmpty then header
    else
      let bad := (tables.filter (fun t => !tableOk b t.2.1 t.2.2)).map (fun t => t.1)
      if !bad.isEmpty then bad
      else (List.range (imgSegCount b)).flatMap (fun i =>
        let g := segAt b i
        let e := imgSegOff b + 16 * i
        (if 1 ≤ g.rows ∧ g.rows ≤ 4096 then [] else [e + 2]) ++ (if tableOk b g.off (64 * g.rows) then [] else [e + 4]))

/-- Whether the image's signature is good: an enrolled key signed the hash the loader computed (R230). -/
def State.signatureOk (s : State) (b : List Byte) : Bool :=
  let k := hashOf (slice b (imgSigOff b + 144) 48)
  s.mgmt.keys.any (fun c => c.keyId == k) && Config.verify k (imgHash b) (BitVec.ofNat 768 (beAt b (imgSigOff b + 48) 96))

/-- An object as the loader has it: from the own cartridges, else from a peer's (R365). -/
def State.loaderObject (s : State) (h : Hash) : Option (List Byte) :=
  (s.object h).or ((s.peerObjects.find? (fun e => e.1 == h)).map (fun e => e.2))

/-- Whether a weight reference stands: its object is there with its length and its hash, and its placement names a module of the pattern and no
reserved bit (R233, R240, R317). -/
def State.wrefOk (s : State) (b : List Byte) (w : WRef) : Bool :=
  (s.loaderObject w.hash).any (fun d => d.length == w.len && sha384 d == w.hash) && !w.place.testBit 62 && field w.place 55 40 == 0 &&
    (!w.place.testBit 63 || decide (field w.place 61 56 < (manifestOf b).modules))

/-- Phase A: R229, R230, R233, R240. -/
def State.phaseA (s : State) (b : List Byte) : List Refuse :=
  let bad := (imgFormat b).map (imgRefuse 0x0101)
  let arch := [4, 5].flatMap (fun o => need (leAt b o 1 == 1) (imgRefuse 0x0104 (leAt b o 1)))
  if !bad.isEmpty then bad ++ arch
  else
    need (hashOf (slice b (imgSigOff b) 48) == imgHash b) (imgRefuse 0x0102 0) ++ need (s.signatureOk b) (imgRefuse 0x0103 0) ++ arch ++
      (List.range (imgWrefCount b)).flatMap (fun i => need (s.wrefOk b (wrefAt b i)) (imgRefuse 0x0105 i))

/-! ### Phase B: spans -/

/-- A reservation of a core, as offset and length: R232. -/
def CoreRec.spans (r : CoreRec) : List (Nat × Nat) := r.reserved.filter (fun x => x.2 != 0)

/-- Whether spans, given as offset and length, cover every byte from one offset up to another. -/
def coversBytes (spans : List (Nat × Nat)) (off fin : Nat) : Bool :=
  decide (fin ≤ spans.foldl (fun p _ => spans.foldl (fun p x => if x.1 ≤ p then max p (x.1 + x.2) else p) p) off)

/-- Whether every byte of a span lies in a reservation of its core: R232, R240. -/
def CoreRec.holds (r : CoreRec) (off fin : Nat) : Bool := coversBytes r.spans off fin

/-- Whether entry `i` of a list shares bytes with an earlier one; an entry without bytes shares none (R130). -/
def meetsEarlier (l : List (Nat × Nat)) (i : Nat) : Bool :=
  let x := l.getD i (0, 0)
  decide (x.1 < x.2) && (l.take i).any (fun y => decide (y.1 < y.2 ∧ x.1 < y.2 ∧ y.1 < x.2))

/-- The buffers that the three reservations are for: WB, AB, PB (R124, R232). -/
def reserveArea : List (Nat × Nat) := [(0, 0x600000), (0x600000, 0xA00000), (0xA00000, 0xC00000)]

/-! ### Phase B: a core record -/

/-- Whether a scoreboard range meets R34, whatever the others are. -/
def Range.sound (r : Range) : Bool := r.base % 256 == 0 && r.fin % 256 == 0 && decide (r.base ≤ r.fin ∧ r.fin ≤ 0xC00000)

/-- Whether a checkerboard region meets R130, whatever the others are. -/
def CbRegion.sound (r : CbRegion) : Bool :=
  decide (r.width ≤ 5) && r.base % 1024 == 0 && decide (0x600000 ≤ r.base ∧ r.base ≤ r.fin ∧ r.fin ≤ 0xA00000) &&
    (r.fin - r.base) % blockBytes (widthOf r.width) == 0

/-- Whether a skein meets R196 and R198, whatever the others are. -/
def Skein.sound (k : Skein) : Bool :=
  let n := 2 ^ k.log2
  decide (10 ≤ k.log2 ∧ k.log2 ≤ 20) && k.base % n == 0 && (inAB k.base n || inPB k.base n) && decide (k.notify ≤ 62)

/-- The raw register image at an offset of a core record. -/
def recWord (b : List Byte) (e off i : Nat) : Nat := leAt b (e + off + 8 * i) 8

/-- Fields of a core record that are not as R232 says, and its tables' reserved fields, by byte offset: MAN_FIELD (R232, R233, R240). -/
def recFields (b : List Byte) (m : Manifest) (e : Nat) (r : CoreRec) : List Nat :=
  let fo := leAt b (e + 4) 4
  let ro := leAt b (e + 56) 4
  let inAux (off n : Nat) : Bool := off % 64 == 0 && (n == 0 || decide (m.auxOff ≤ off ∧ off + n ≤ m.auxOff + m.auxLen))
  let rate := leAt b (e + 12) 2
  let depth := leAt b (e + 14) 2
  let bad (ok : Bool) (off : Nat) : List Nat := if ok then [] else [off]
  bad (leAt b (e + 1) 1 ≤ 1) (e + 1) ++ bad (decide (r.entryRow ≤ 4095)) (e + 2) ++ bad (inAux fo (2 * r.flips.length)) (e + 4) ++
  bad (!r.flips.isEmpty && r.flips.all (fun k => decide (k < imgSegCount b) && (segAt b k).core == r.core)) (e + 8) ++
  bad (decide (1 ≤ r.pipAllot ∧ r.pipAllot ≤ 255)) (e + 10) ++ bad (decide (rate ≤ 1024)) (e + 12) ++
  bad (depth == 0 || decide (64 ≤ depth)) (e + 14) ++ bad (decide (leAt b (e + 16) 1 < 16)) (e + 16) ++
  (List.range 4).flatMap (fun k => bad (field (r.fifoW.getD k 0) 6 5 == 0) (e + 17 + k)) ++
  bad (!r.tallyMask.testBit 63) (e + 31) ++ bad (inAux ro (16 * r.residents.length)) (e + 56) ++
  [(21, 3), (62, 2), (892, 132)].filterMap (fun z => firstSet b (e + z.1) z.2) ++
  (List.range r.residents.length).flatMap (fun k =>
    let x := r.residents.getD k { ref := 0, off := 0, win := 0, len := 0 }
    let w := wrefAt b x.ref
    bad (decide (x.ref < imgWrefCount b) && !w.place.testBit 63) (ro + 16 * k) ++ bad (leAt b (ro + 16 * k + 2) 2 == 0) (ro + 16 * k + 2) ++
      bad (decide (x.off + x.len ≤ w.len)) (ro + 16 * k + 4) ++ bad (x.len % 256 == 0) (ro + 16 * k + 12)) ++
  (List.range 32).flatMap (fun k => bad (field (recWord b e 64 k) 62 48 == 0) (e + 64 + 8 * k)) ++
  (List.range 8).flatMap (fun k => bad (field (recWord b e 320 k) 62 51 == 0) (e + 320 + 8 * k)) ++
  (List.range 63).flatMap (fun k => bad (r.tallyMask.testBit k || r.tallyInit.getD k 0 == 0) (e + 640 + 4 * k))

/-- What is wrong with the ranges, regions, skeins, endpoints, FIFO writers and reservations of a core record: RANGE_DEF, CB_DEF,
SKEIN_DEF, FIFO_DEF, RESERVE (R34, R130, R196, R198, R211, R232, R240). -/
def recTables (b : List Byte) (m : Manifest) (recs : List CoreRec) (e : Nat) (r : CoreRec) : List Refuse :=
  let refuse (code detail : Nat) : Refuse := manRefuse code r.core detail
  let rs := r.ranges.map (fun x => if x.enable then (x.base, x.fin) else (0, 0))
  let gs := r.regions.map (fun x => if x.enable then (x.base, x.fin) else (0, 0))
  let ks := r.skeins.map (fun x => if x.enable then (x.base, x.base + 2 ^ x.log2) else (0, 0))
  let held (l : List (Nat × Nat)) : List Refuse := (l.filter (fun x => !r.holds x.1 x.2)).map (fun x => refuse 0x0209 x.1)
  (List.range 32).flatMap (fun i => match r.ranges[i]? with
    | some x => need (!x.enable || (x.sound && !meetsEarlier rs i)) (refuse 0x0203 i)
    | none => []) ++
  (List.range 8).flatMap (fun i => match r.regions[i]? with
    | some x => need (!x.enable || (x.sound && !meetsEarlier gs i)) (refuse 0x0204 i)
    | none => []) ++
  (List.range 16).flatMap (fun i => match r.skeins[i]? with
    | some x => let w := recWord b e 384 i
      need (field w 29 29 == 0 && field w 62 37 == 0 && (!x.enable || (x.sound && !meetsEarlier ks i))) (refuse 0x0205 i)
    | none => []) ++
  (List.range 16).flatMap (fun i => match r.sends[i]? with
    | some x => need (field (recWord b e 512 i) 62 18 == 0 && (!x.enable || (decide (x.tModule < m.modules) &&
        (recs.find? (fun q => q.core == x.tCore)).any (fun q => (q.skeins.getD x.tSkein {}).enable)))) (refuse 0x0205 i)
    | none => []) ++
  (List.range m.modules).flatMap (fun k =>
    let n := sumN (recs.map (fun q => (q.sends.filter (fun x => x.enable && x.tCore == r.core && x.tModule == k)).length))
    need (decide (n * m.modules ≤ 128)) (refuse 0x0205 0)) ++
  (List.range 4).flatMap (fun k =>
    let w := r.fifoW.getD k 0
    need (!w.testBit 7 || m.coreSet.contains (32 * (r.core / 32) + field w 4 0)) (refuse 0x0206 (k + 1))) ++
  (List.range 3).flatMap (fun k =>
    let x := r.reserved.getD k (0, 0)
    let a := reserveArea.getD k (0, 0)
    need (if x.2 = 0 then x.1 == 0 else x.1 % 256 == 0 && x.2 % 256 == 0 && decide (a.1 ≤ x.1 ∧ x.1 + x.2 ≤ a.2)) (refuse 0x0209 x.1)) ++
  held rs ++ held gs ++ held ks ++ held (r.residents.map (fun x => (x.win, x.win + x.len)))

/-! ### Phase B: the manifest -/

/-- Fields of the manifest header and its tables that are not as R231 and R233 say, by byte offset: MAN_FIELD. -/
def manFields (b : List Byte) (man : Manifest) (recs : List CoreRec) : List Nat :=
  let m := imgMan b
  let g := leAt b (m + 40) 4
  let h := leAt b (m + 56) 4
  let hbmCount := leAt b (m + 60) 2
  let bad (ok : Bool) (off : Nat) : List Nat := if ok then [] else [off]
  bad (decide (1 ≤ man.cores ∧ man.cores ≤ 256) && man.coreSet.length == man.cores) m ++
  bad (decide (1 ≤ man.modules ∧ man.modules ≤ 32)) (m + 2) ++ bad (leAt b (m + 3) 1 ≤ 1) (m + 3) ++ bad (decide (man.twin ≤ 2)) (m + 4) ++
  bad (leAt b (m + 5) 1 ≤ 1) (m + 5) ++ bad (decide (man.gangs.length ≤ 128)) (m + 6) ++ bad (recs.map (fun r => r.core) == man.coreSet) (m + 8) ++
  bad (decide (1 ≤ hbmCount ∧ hbmCount ≤ 16)) (m + 60) ++ bad (man.pipsTotal == sumN (recs.map (fun r => r.pipAllot))) (m + 84) ++
  [(m + 62, 2), (m + 65, 1), (m + 88, 40)].filterMap (fun z => firstSet b z.1 z.2) ++
  (List.range man.gangs.length).filterMap (fun i => firstSet b (g + 4 * i + 2) 2) ++
  (List.range hbmCount).filterMap (fun i => firstSet b (h + 16 * i + 15) 1) ++
  (List.range (imgSegCount b)).flatMap (fun i =>
    let e := imgSegOff b + 16 * i
    bad (man.coreSet.contains (segAt b i).core) e ++ (firstSet b (e + 1) 1).toList ++ (firstSet b (e + 8) 8).toList)

/-- The top of the HBM that patterns may name: R233. -/
def hbmTop : Nat := 0xBF00000000

/-- What is wrong with the HBM ranges: HBM_RANGE (R233, R240, R370). -/
def hbmFaults (man : Manifest) : List Nat :=
  let spans := man.hbm.map (fun h => (h.base, h.base + h.len))
  let n := man.hbm.length
  let short (role size : Nat) : List Nat :=
    match (List.range n).find? (fun i => (man.hbm[i]?).any (fun h => h.role == role)) with
    | some i => if (man.hbm[i]?).any (fun h => decide (size ≤ h.len)) then [] else [i]
    | none => [n]
  (List.range n).filter (fun i => match man.hbm[i]? with
    | some h => h.base % 4096 != 0 || h.len % 4096 != 0 || h.len == 0 || decide (hbmTop < h.base + h.len) || decide (4 < h.role) || meetsEarlier spans i
    | none => false) ++
  short 1 man.inSlot ++ short 2 man.outSlot ++
  (if man.ruleId = 0 ∨ man.hbm.any (fun h => h.role == 4 && decide (h.base ≤ man.fmtArea ∧ man.fmtArea + 64 + 512 * man.layers ≤ h.base + h.len)) then []
   else [n])

/-- What is wrong with the gang table, by gang: GANG_DEF (R44). -/
def gangFaults (man : Manifest) : List Nat :=
  let spans := man.gangs.map (fun g => (g.1, g.1 + g.2))
  (List.range man.gangs.length).filter (fun i => match man.gangs[i]? with
    | some g => g.2 < 2 || 32 < g.2 || g.1 / 32 != (g.1 + g.2 - 1) / 32 || meetsEarlier spans i ||
        !(List.range g.2).all (fun k => man.coreSet.contains (g.1 + k))
    | none => false)

/-- The byte of HBM that some weight object of the image places on this module, if one does: R233. -/
def State.placedByte (s : State) (b : List Byte) (a : Nat) : Option Byte :=
  ((wrefs b).filter (fun w => w.placesOn s.config.module && decide (w.addr ≤ a ∧ a < w.addr + w.len))).findSome? (fun w =>
    (s.object w.hash).bind (fun d => d[a - w.addr]?))

/-- Whether candidate codes are a list of R101: in ascending width, none of them BIN, PM1 or reserved, and at least one. -/
def candidatesOk (cs : List Nat) : Bool :=
  let l := cs.takeWhile (fun c => c != 0)
  !l.isEmpty && l.all (fun c => xFmtOk c && c != 1 && c != 2) && (List.range (l.length - 1)).all (fun i => xBits (l.getD i 0) < xBits (l.getD (i + 1) 0))

/-- What is wrong with the format rule: FORMAT_AREA, by entry. A candidate list is known at load where a weight object places it (R101,
R240). -/
def State.formatFaults (s : State) (b : List Byte) (man : Manifest) : List Nat :=
  if 2 < man.ruleId then [0]
  else if man.ruleId = 0 then (if man.layers = 0 then [] else [0])
  else if man.layers = 0 ∨ 1024 < man.layers then [0]
  else (List.range man.layers).filter (fun i =>
    let bytes := (List.range 4).map (fun k => s.placedByte b (man.fmtArea + 64 + 512 * i + 264 + k))
    bytes.all Option.isSome && !candidatesOk (bytes.map (fun x => (x.getD 0).toNat)))

/-- Phase B: R231 to R233, R240. -/
def State.phaseB (s : State) (b : List Byte) : List Refuse :=
  let man := manifestOf b
  let recs := coreRecs b
  (manFields b man recs).map (manRefuse 0x0201 0) ++ (gangFaults man).map (manRefuse 0x0202 0) ++
  (s.formatFaults b man).map (manRefuse 0x0207 0) ++ (hbmFaults man).map (manRefuse 0x0208 0) ++
  ((List.range recs.length).zip recs).flatMap (fun x =>
    let e := man.coreOff + 1024 * x.1
    (recFields b man e x.2).map (manRefuse 0x0201 x.2.core) ++ recTables b man recs e x.2)

end Sys2Proof.Machine
end

