-- ==== Sys2Proof/Machine/Rowcheck.lean ====
section
/-!
DEFINITION. The Genqualer's phase C (R238 to R240): the encodings of every row and the control structure of each core's row stream; and
the registers and latencies of a slot.
-/

namespace Sys2Proof

open Machine

/-! ### Latencies -/

/-- Latency of the registers a slot writes: R24, R112, R114, R212. -/
def Instr.latency : Instr → Nat
  | .sMul _ => 3
  | .sLd _ => 6
  | .sRdreg _ | .fifoPop _ _ | .fifoStat _ => 2
  | .vSetvl _ => 1
  | .vMul _ | .vCvt _ => 5
  | .vFma _ | .vFnma _ | .vWfma _ => 6
  | .vCvtbs _ | .vRedsum _ | .vRedmax _ | .vRedmin _ => 9
  | .vExp _ | .vLog _ | .vRcp _ | .vRsqrt _ | .vTanh _ | .vErf _ => 14
  | .vCompress _ | .vExpand _ => 7
  | .vSieve _ => 8
  | .vLd v => v.loadLat
  | i => match i.vslot with
    | some _ => 4
    | none => 1

/-- Registers by one number: scalars from 0, vector registers from 32, mask registers from 64, VL at 72. -/
def Machine.vlKey : Nat := 72

/-- The registers a slot names as its destinations: R26, R109, R114. -/
def Instr.destKeys (i : Instr) : List Nat :=
  i.scalarDest.toList.map (fun r => r.toNat) ++ i.vectorDests.map (fun r => 32 + r.toNat) ++
    i.maskDest.toList.map (fun r => 64 + r.toNat) ++ (if i.writesVl then [vlKey] else [])

/-- The registers a slot writes: s0 discards every write (R25). -/
def Instr.writeKeys (i : Instr) : List Nat := i.destKeys.filter (fun k => k != 0)

/-- The registers a slot reads, and whether at its check stage: R29, R109. DESIGN CHOICE: `v.setvl` is no reader of VL, here and for the
referee, since its result does not depend on it (entry 53). -/
def Instr.readKeys (i : Instr) : List (Nat × Bool) :=
  i.issueReads.map (fun r => (r.toNat, false)) ++ i.checkReads.map (fun r => (r.toNat, true)) ++
    i.vectorReads.map (fun r => (32 + r.toNat, false)) ++ i.maskReads.map (fun r => (64 + r.toNat, false)) ++
    (if i.readsVl then [(vlKey, true)] else [])

end Sys2Proof

namespace Sys2Proof.Machine

/-! ### A row as the image holds it -/

/-- A slot of a row before its encoding is checked: its number in R239, its lowest row bit, its width, its bits, whether it is valid,
and the command its opcode and fields spell. -/
structure RawSlot where
  num : Nat
  low : Nat
  width : Nat
  bits : Nat
  valid : Bool
  spare : Nat
  cmd : Option Instr

/-- The six slots of a row, in order: R20 to R23. `spare` masks the bits that the frame reserves. -/
def rawSlots (n : Nat) (w : BitVec 512) : List RawSlot :=
  let core : CoreId := BitVec.ofNat 8 n
  [{ num := 1, low := 32, width := 64, bits := (w.extractLsb' 32 64).toNat, valid := w.getLsbD 16, spare := 7 * 2 ^ 29,
     cmd := rawC core (w.extractLsb' 32 64) },
   { num := 2, low := 96, width := 96, bits := (w.extractLsb' 96 96).toNat, valid := w.getLsbD 17, spare := 15 * 2 ^ 28,
     cmd := rawM core (w.extractLsb' 96 96) },
   { num := 3, low := 192, width := 80, bits := (w.extractLsb' 192 80).toNat, valid := w.getLsbD 18, spare := 0,
     cmd := rawV core false (w.extractLsb' 192 80) },
   { num := 4, low := 272, width := 80, bits := (w.extractLsb' 272 80).toNat, valid := w.getLsbD 19, spare := 0,
     cmd := rawV core true (w.extractLsb' 272 80) },
   { num := 5, low := 352, width := 64, bits := (w.extractLsb' 352 64).toNat, valid := w.getLsbD 20, spare := 511 * 2 ^ 23,
     cmd := rawB core (w.extractLsb' 352 64) },
   { num := 6, low := 416, width := 96, bits := (w.extractLsb' 416 96).toNat, valid := w.getLsbD 21, spare := 127 * 2 ^ 25,
     cmd := rawD core (w.extractLsb' 416 96) }]

/-- The lowest set bit of a number, at or above `lo`. -/
def lowBit (v lo width : Nat) : Nat := (((List.range width).filter (fun i => decide (lo ≤ i) && v.testBit i)).head?).getD 0

/-- Whether a V slot would be admitted with some other type or slice: then its type is what is refused (R107, R114, R117). -/
def typeOnly (i : Instr) : Bool :=
  match opV i with
  | none => false
  | some (op, v) =>
    (List.range 16).any (fun ty => (List.range 16).any (fun dty => (List.range 16).any (fun part =>
      (ofV op.toNat { v with f := v.op ++ v.f.extractLsb' 12 2 ++ BitVec.ofNat 4 part ++ BitVec.ofNat 4 dty ++ BitVec.ofNat 4 ty }).any
        Instr.wf)))

/-- The format code that is refused where a slot would be admitted with others: R57, R61, R118. -/
def formatOnly (i : Instr) : Option Nat :=
  match i with
  | .mmPass m | .mmDiag m =>
    let put (x s : Nat) : MSlot := { m with f := m.f.extractLsb' 18 46 ++ BitVec.ofNat 4 s ++ BitVec.ofNat 4 x ++ m.f.extractLsb' 0 10 }
    if !(put 5 5).wfPass then none else if !xFmtOk m.xFmt then some m.xFmt else some m.sFmt
  | .vCvtbs v =>
    let v' : VSlot := { v with f := v.op.extractLsb' 4 20 ++ (0x8 : BitVec 4) ++ v.f.extractLsb' 12 2 ++ (0 : BitVec 4) ++ v.f.extractLsb' 0 8 }
    if v'.wfCvtbs ∧ !(8 ≤ v.bs && v.bs ≤ 0xC) then some v.bs else none
  | _ => none

/-- The register index, loop count or tally that is refused where a C slot would be admitted with another: its code and detail (R32,
R51, R52). -/
def operandOnly (i : Instr) : Option (Nat × Nat) :=
  match i with
  | .sRdreg c => if (Instr.sRdreg { c with imm := 0 }).wf then some (0x0305, c.imm.toNat) else none
  | .loopI c => if (Instr.loopI { c with imm := c.imm ||| 0x1000 }).wf then some (0x0306, c.row12) else none
  | .tallySig c => if (Instr.tallySig { c with x := 0 }).wf then some (0x030B, c.x.toNat) else none
  | .tallyWait c => if (Instr.tallyWait { c with x := 0 }).wf then some (0x030B, c.x.toNat) else none
  | .tallyTake c => if (Instr.tallyTake { c with x := 0 }).wf then some (0x030B, c.x.toNat) else none
  | _ => none

/-- The command of a valid slot whose encoding is admitted. -/
def RawSlot.good (x : RawSlot) : Option Instr := if x.valid && x.bits &&& x.spare == 0 then checkWf x.cmd else none

/-- The encoding refusal of a slot, as code and detail; a reserved bit is named by its position in the row (R9, R22, R23, R108, R240;
entry 35). -/
def RawSlot.refusal (x : RawSlot) : Option (Nat × Nat) :=
  if !x.valid then (if x.bits = 0 then none else some (0x0301, x.low + lowBit x.bits 0 x.width))
  else match x.cmd with
    | none => some (0x0301, x.low)
    | some i =>
      if x.bits &&& x.spare ≠ 0 then some (0x0301, x.low + lowBit (x.bits &&& x.spare) 0 x.width)
      else if i.wf then none
      else match formatOnly i, operandOnly i with
        | some c, _ => some (0x0304, c)
        | none, some r => some r
        | none, none => match i.vslot with
          | some v => if typeOnly i then some (0x0303, v.ty) else some (0x0301, x.low + lowBit x.bits 8 x.width)
          | none => some (0x0301, x.low + lowBit x.bits 8 x.width)

/-- A row of the graph: its declared pips and the admitted command of each slot with the slot's number. -/
structure GRow where
  pips : Nat := 0
  cmds : List (Nat × Instr) := []

/-- A row with its refused slots left out. -/
def gRow (n : Nat) (w : BitVec 512) : GRow :=
  { pips := (w.extractLsb' 0 8).toNat, cmds := (rawSlots n w).filterMap (fun x => x.good.map (fun i => (x.num, i))) }

/-- The command of a row's C slot. -/
def GRow.c (r : GRow) : Option Instr := (r.cmds.find? (fun x => x.1 == 1)).map (fun x => x.2)

/-! ### Loops of a segment -/

/-- A loop row of a segment: its row, its last row, its counter, its count if it is fixed. -/
structure GLoop where
  row : Nat
  last : Nat
  lc : Nat
  count : Option Nat

/-- A segment as the Genqualer reads it: its rows and its loops. -/
structure GSeg where
  core : Nat
  rows : List GRow
  loops : List GLoop

/-- A loop that a command makes. -/
def loopOf (row : Nat) (i : Instr) : Option GLoop :=
  match i with
  | .loopI c => some { row := row, last := c.row12, lc := c.x.toNat % 4, count := some (c.imm.extractLsb' 12 20).toNat }
  | .loopR c => some { row := row, last := c.row12, lc := c.x.toNat % 4, count := none }
  | _ => none

/-- A segment of the image: R233. -/
def gSeg (b : List Byte) (g : Segment) : GSeg :=
  let rows := (List.range g.rows).map (fun r => gRow g.core (segRow b g r))
  { core := g.core, rows := rows, loops := ((List.range g.rows).zip rows).filterMap (fun x => x.2.c.bind (loopOf x.1)) }

/-- A row of a segment; rows beyond it are empty (R233). -/
def GSeg.row (g : GSeg) (r : Nat) : GRow := g.rows.getD r {}

/-- The loops whose body holds a row, by their loop rows: R32. -/
def GSeg.enclosing (g : GSeg) (r : Nat) : List Nat := (g.loops.filter (fun l => decide (l.row < r ∧ r ≤ l.last))).map (fun l => l.row)

/-- Whether a command may not stand in the last row of a body: R32. -/
def endsBody (i : Option Instr) : Bool :=
  match i with
  | some (.br _) | some (.brZ _) | some (.brNz _) | some (.brNeg _) | some (.loopI _) | some (.loopR _) | some (.bankFlip _)
  | some (.taskEnd _) => true
  | _ => false

/-- The target of a branch, and whether it is always taken: R31. -/
def branchOf (i : Option Instr) : Option (Nat × Bool) :=
  match i with
  | some (.br c) => some (c.row12, true)
  | some (.brZ c) | some (.brNz c) | some (.brNeg c) => some (c.row12, false)
  | _ => none

/-! ### Phase C: rows -/

/-- Where a row's refusals stand: the image's tables, the record of its core, the load option, and its place. -/
structure GPlace where
  man : Manifest
  recs : List CoreRec
  debug : Bool
  core : Nat
  seg : Nat
  row : Nat

/-- A refusal of a row. -/
def GPlace.refuse (p : GPlace) (code slot detail : Nat) : Refuse :=
  { code := code, slot := slot, core := p.core, segment := p.seg, row := p.row, detail := detail }

/-- The record of a core. -/
def GPlace.rec? (p : GPlace) (n : Nat) : Option CoreRec := p.recs.find? (fun r => r.core == n)

/-- The first register that two slots of a row both write, and the later slot: R26. -/
def conflicts : List (Nat × Instr) → List Nat → List (Nat × Nat)
  | [], _ => []
  | (n, i) :: xs, seen => (i.destKeys.filter (fun k => seen.contains k)).map (fun k => (n, k)) ++ conflicts xs (seen ++ i.destKeys)

/-- The number of a register in its file. -/
def keyReg (k : Nat) : Nat := if k < 64 then k % 32 else k - 64

/-- What is refused in a slot whose encoding is admitted: R31, R32, R46, R51, R52, R175, R200, R211. -/
def GPlace.slotRefusals (p : GPlace) (g : GSeg) (num : Nat) (i : Instr) : List Refuse :=
  match i with
  | .sRdreg c => need (p.debug || !rdregDebugOnly c.row12) (p.refuse 0x0305 num c.row12)
  | .brk _ => need p.debug (p.refuse 0x0305 num 0)
  | .tallySig c | .tallyWait c | .tallyTake c =>
    need (p.man.coreSet.contains (32 * (p.core / 32) + c.sd.toNat)) (p.refuse 0x030B num c.x.toNat)
  | .bankFlip _ => need (g.enclosing p.row).isEmpty (p.refuse 0x0307 num 0)
  | .ribPut b =>
    let dir := b.cnt.toNat % 4
    need (match gangOf p.man.gangs p.core with
      | none => false
      | some (pos, last) => last == 31 || ((!dir.testBit 0 || pos != 0) && (!dir.testBit 1 || pos != last))) (p.refuse 0x0309 num dir)
  | .fifoPush b =>
    need ((p.rec? (32 * (p.core / 32) + b.bits 7 3)).any (fun r => r.fifoW.getD (b.bits 2 0 - 1) 0 == 0x80 + p.core % 32))
      (p.refuse 0x030A num (b.bits 2 0))
  | .strandSend d =>
    let ep := d.bits 19 16
    need ((p.rec? p.core).any (fun r => (r.sends.getD ep {}).enable)) (p.refuse 0x030C num ep) ++
      need (d.bits 37 32 != 63) (p.refuse 0x030B num 63)
  | _ => match branchOf (some i) with
    | some (t, _) => need (g.enclosing p.row == g.enclosing t) (p.refuse 0x0306 num t)
    | none => []

/-- What is refused in a loop row: R32. -/
def GPlace.loopRefusals (p : GPlace) (g : GSeg) (l : GLoop) : List Refuse :=
  need (decide (l.row < l.last) && decide ((g.enclosing l.row).length < 4)) (p.refuse 0x0306 1 l.last) ++
  (if endsBody (g.row l.last).c then [{ (p.refuse 0x0306 1 l.last) with row := l.last }] else []) ++
  (g.loops.filter (fun k => decide (l.row < k.row ∧ k.row ≤ l.last) && (decide (l.last < k.last) || k.lc == l.lc))).map (fun k =>
    { (p.refuse 0x0306 1 k.last) with row := k.row })

/-- What is refused in a row of a segment, whether or not a path reaches it: R9, R22, R26. -/
def GPlace.rowRefusals (p : GPlace) (g : GSeg) (w : BitVec 512) : List Refuse :=
  let r := g.row p.row
  (if w.extractLsb' 22 10 = 0 then [] else [p.refuse 0x0301 0 (lowBit (w.extractLsb' 22 10).toNat 0 10 + 22)]) ++
  (rawSlots p.core w).flatMap (fun x => (x.refusal.map (fun e => p.refuse e.1 x.num e.2)).toList) ++
  (conflicts r.cmds []).map (fun e => p.refuse 0x0302 e.1 (keyReg e.2)) ++
  r.cmds.flatMap (fun x => p.slotRefusals g x.1 x.2) ++
  (g.loops.filter (fun l => l.row == p.row)).flatMap (fun l => p.loopRefusals g l)

/-! ### Phase C: paths -/

/-- A point of a core's row stream: the place in the flip list and the row. -/
structure GNode where
  k : Nat
  row : Nat
  deriving DecidableEq

/-- The row stream of a core: its record and the segments of its flip list. -/
structure GCore where
  rcd : CoreRec
  segs : List GSeg

/-- The segment of a place in the flip list. -/
def GCore.seg (g : GCore) (k : Nat) : GSeg := g.segs.getD k { core := 0, rows := [], loops := [] }

/-- The rows that may follow a row: R31, R32, R51, R238. -/
def GCore.next (g : GCore) (x : GNode) : List GNode :=
  let sg := g.seg x.k
  let c := (sg.row x.row).c
  match c with
  | some (.taskEnd _) => []
  | some (.bankFlip i) => if x.k + 1 < g.segs.length then [{ k := x.k + 1, row := i.row12 }] else []
  | _ => match branchOf c with
    | some (t, true) => [{ k := x.k, row := t }]
    | b =>
      (match b with
       | some (t, _) => [{ k := x.k, row := t }]
       | none => []) ++
      (match c with
       | some (.loopR i) => [{ k := x.k, row := i.row12 + 1 }]
       | _ => []) ++
      (sg.loops.filter (fun l => l.last == x.row && l.count != some 1)).map (fun l => { k := x.k, row := l.row + 1 }) ++
      [{ k := x.k, row := x.row + 1 }]

/-- What the walk along the paths finds at a row; `vl`: a `v.setvl` has been passed (R31, R51, R109, R238). -/
def GCore.pathRefusals (g : GCore) (x : GNode) (vl : Bool) : List Refuse :=
  let r := (g.seg x.k).row x.row
  let refuse (code slot detail : Nat) : Refuse :=
    { code := code, slot := slot, core := g.rcd.core, segment := g.rcd.flips.getD x.k 0, row := x.row, detail := detail }
  ((r.cmds.filter (fun s => (match s.2 with
      | .vSetvl _ => false
      | i => i.vslot.isSome) && !vl)).head?.map (fun s => refuse 0x0308 s.1 0)).toList ++
  (match r.c with
   | some (.bankFlip _) => need (decide (x.k + 1 < g.segs.length)) (refuse 0x0307 1 (x.k + 1))
   | some (.taskEnd _) => need (x.k + 1 == g.segs.length) (refuse 0x0307 1 x.k)
   | _ => []) ++
  ((g.next x).filter (fun y => decide (4095 < y.row))).map (fun y => refuse 0x0306 0 y.row)

/-- Whether a row sets VL by `v.setvl`. -/
def GRow.setsVl (r : GRow) : Bool := r.cmds.any (fun s => match s.2 with
  | .vSetvl _ => true
  | _ => false)

/-- The rows that paths reach, each with whether a `v.setvl` has been passed; `seen` gathers them. -/
def GCore.walk (g : GCore) : Nat → List (GNode × Bool) → List (GNode × Bool) → List (GNode × Bool)
  | 0, _, seen => seen
  | _ + 1, [], seen => seen
  | f + 1, (x, vl) :: rest, seen =>
    if seen.contains (x, vl) then GCore.walk g f rest seen
    else
      let vl' := vl || ((g.seg x.k).row x.row).setsVl
      GCore.walk g f (((g.next x).filter (fun y => decide (y.row ≤ 4095))).map (fun y => (y, vl')) ++ rest) (seen ++ [(x, vl)])

/-- The rows of a core that paths reach from its entry row, with whether a `v.setvl` has been passed: R238. -/
def GCore.reached (g : GCore) : List (GNode × Bool) :=
  GCore.walk g (8 * 2 * 4096 * (g.segs.length + 1)) [({ k := 0, row := g.rcd.entryRow }, false)] []

/-- The row streams of an image. -/
def gCores (b : List Byte) : List GCore := (coreRecs b).map (fun r => { rcd := r, segs := r.flips.map (fun k => gSeg b (segAt b k)) })

/-- Phase C: R9, R22 to R24, R26, R31, R32, R46, R51, R52, R57, R107 to R109, R114, R175, R200, R211, R240. -/
def phaseC (b : List Byte) (debug : Bool) : List Refuse :=
  let man := manifestOf b
  let recs := coreRecs b
  (List.range (imgSegCount b)).flatMap (fun i =>
    let sg := segAt b i
    let g := gSeg b sg
    (List.range sg.rows).flatMap (fun r =>
      ({ man := man, recs := recs, debug := debug, core := sg.core, seg := i, row := r } : GPlace).rowRefusals g (segRow b sg r))) ++
  (gCores b).flatMap (fun g => g.reached.flatMap (fun x => g.pathRefusals x.1 x.2))

end Sys2Proof.Machine
end

