-- ==== Sys2Proof/Machine/Schedule.lean ====
section
/-!
DEFINITION. The Genqualer's phase D (R237 to R242): each core's row stream is simulated in issue cycles, with no hold, along every path,
with the values that the image alone fixes; and what the simulation finds is refused. What a slot does, touches and breaches is taken from
the machine itself, on a core as cast-on installs it. The choices are those of entry 36.
-/

namespace Sys2Proof.Machine

/-! ### What a simulation holds -/

/-- The row a write or a use comes from: its place, the issue cycles since, and whether a back edge of a loop lies between. -/
structure GFrom where
  k : Nat
  row : Nat
  age : Nat := 0
  back : Bool := false
  deriving DecidableEq

/-- A register write that not every view sees yet: R27, R30. `val` is none where the value is run-time (R237). -/
structure GReg where
  key : Nat
  lat : Nat
  val : Option (BitVec 64) := none
  src : GFrom
  deriving DecidableEq

/-- A write to the core's own buffers that not every view sees yet: R27, R65, R79, R112. -/
structure GMem where
  off : Nat
  len : Nat
  lat : Nat
  src : GFrom
  deriving DecidableEq

/-- Bytes that a matrix row reads `left` issue cycles from now: R59, R60. -/
structure GSpan where
  off : Nat
  len : Nat
  left : Nat
  src : GFrom
  deriving DecidableEq

/-- A vector pipe that is occupied for `left` more cycles; `port` is 1 for its read port, 2 for its write port (R112). -/
structure GPort where
  pipe : Bool
  port : Nat
  left : Nat
  src : GFrom
  deriving DecidableEq

/-- A write whose home is another core's to read: its address, its length, and the path whose writes to a window stay in order: 1 the
short path, 2 to 5 the queues, 0 none of these (R153, R157, R182). -/
structure GStore where
  addr : Nat
  len : Nat
  path : Nat := 0
  deriving DecidableEq

/-- An active cable: the row that ran it, what is static of it (none where its header is run-time), and the g of its tile, if that is
static (R163, R289, R291). -/
structure GCable where
  row : Nat
  head : Option Cable
  g : Option Nat := none
  deriving DecidableEq

/-- Whether it may have a stage. -/
def GCable.has (k : GCable) (stage : Nat) : Bool := k.head.all (fun h => h.has stage)

/-- A point of a simulation: what a core's rows have done that later rows can meet. -/
structure GSim where
  k : Nat := 0
  row : Nat
  /-- active loops, innermost first, each with whether its count is static: R32, R237 -/
  loops : List (Loop × Bool) := []
  /-- static values of registers, as every view sees them: R237 -/
  base : List (Nat × BitVec 64) := []
  regW : List GReg := []
  memW : List GMem := []
  spans : List GSpan := []
  ports : List GPort := []
  /-- the matrix engine's timing, cycle 0 being the cycle now open: R59 to R62 -/
  mx : Matrix := {}
  /-- the g codes of outstanding matrix rows, none for a row that has none, with the cycles they have left and their rows: R289 -/
  busy : List (Option Nat × Nat × GFrom) := []
  /-- an `mm.tile` with a run-time descriptor has issued: the engine's timing is run-time -/
  tile : Bool := false
  /-- the `mm.tile` rows with a run-time descriptor that are still charged, each with its output span as far as that is static: R291 -/
  tiles : List (Option (Nat × Nat)) := []
  /-- the active cable: R163, R291 -/
  cable : Option GCable := none
  /-- the ranges whose bounds are static: R34 -/
  ranges : List (Nat × Range) := []
  /-- static writes so far, and the acquires passed, as owner, tally and scope: R187 -/
  wrote : List GStore := []
  acquired : List (Nat × Nat × Nat) := []
  /-- issue cycles since cast-on, while the path fixes them, and those up to the last back edge -/
  clock : Option Nat := some 0
  turnedAt : Option Nat := none
  deriving DecidableEq

/-- What is not static although a single path would have it so: bytes of core windows that something may write, and registers that some
other path leaves run-time at a row (R237). -/
structure GKnow where
  spoiled : List (Nat × Nat × Nat) := []
  dropped : List (Nat × Nat × Nat × Nat) := []
  deriving DecidableEq

/-- What the simulation of a core rests on. -/
structure GEnv where
  man : Manifest
  recs : List CoreRec
  core : GCore
  /-- the core alone, as cast-on installs it with its resident contents: R189, R235 -/
  s : State
  know : GKnow

/-- The number of the core. -/
def GEnv.n (e : GEnv) : Nat := e.core.rcd.core

/-- A core alone in its module as cast-on installs it, its buffers holding the resident entries: R189, R232, R235. -/
def State.castAlone (s : State) (b : List Byte) (man : Manifest) (r : CoreRec) : State :=
  let conf : Conf := { s.config with n := man.modules }
  let t : Task := { num := 1, session := 0, tag := 0, handle := 0, options := 0, input := [], seeds := [], p := 0, state := .running,
                    ranges := man.hbm.map (fun h => (h.base, h.len, h.role)), coreSet := man.coreSet, share := man.twin == 2 }
  let a : State := { config := conf, tasks := [t], cores := [(r.core, Core.install {} r man conf 1 0 0)] }
  r.residents.foldl (fun a e => a.bufWrite r.core e.win (slice ((s.object (wrefAt b e.ref).hash).getD []) e.off e.len)) a

/-! ### Static values -/

/-- A register as a row reads it, at its check stage or at issue, where its value is static: the newest write that the view sees (R26 to
R30, R237). -/
def GSim.value (x : GSim) (key : Nat) (chk : Bool) : Option (BitVec 64) :=
  if key = 0 then some 0
  else
    let seen := x.regW.filter (fun w => w.key == key && decide (w.lat + (if chk then 4 else 0) ≤ w.src.age))
    match seen.foldl (fun (a : Option GReg) w => match a with
      | some v => if v.src.age - v.lat < w.src.age - w.lat then some v else some w
      | none => some w) none with
    | some w => w.val
    | none => mfind x.base key

/-- A scalar register's static value. -/
def GSim.scalar (x : GSim) (r : BitVec 5) (chk : Bool) : Option (BitVec 64) := x.value r.toNat chk

/-- The machine with the core as the row at a point finds it. -/
def GEnv.at (e : GEnv) (x : GSim) : State :=
  let file (chk : Bool) := (List.range 32).filterMap (fun r => (x.value r chk).map (fun v => (r, v)))
  let vl (chk : Bool) := (x.value vlKey chk).map BitVec.toNat
  e.s.modCore e.n (fun c => { c with s := file false, sChk := file true, vl := vl false, vlChk := vl true, loops := x.loops.map (fun l => l.1),
                                     ranges := x.ranges, mx := x.mx })

/-- Whether bytes of the core's buffers are static: a resident entry places them, and nothing may write them (R237). -/
def GEnv.fixed (e : GEnv) (off len : Nat) : Bool :=
  coversBytes (e.core.rcd.residents.map (fun r => (r.win, r.len))) off (off + len) &&
    !e.know.spoiled.any (fun w => w.1 == e.n && overlaps w.2.1 w.2.2 off len)

/-- The register that gives the address of a slot's descriptor or header: R143. -/
def descReg : Instr → Option (BitVec 5)
  | .mmTile m => some m.ta
  | .dmaGet d | .dmaPut d | .cableRun d => some d.desc
  | _ => none

/-- Whether the descriptor or header of a slot, if it has one, is static: R237. -/
def GEnv.descFixed (e : GEnv) (x : GSim) (i : Instr) : Bool :=
  match descReg i with
  | none => true
  | some r => (x.scalar r true).isSome && ((e.at x).copySpans e.n i).all (fun a => e.fixed a.1 a.2)

/-- The scalar registers that one side of a slot's accesses rests on: side 0 is the X operand, the source, or the local end; side 1 the S
operand, the destination, or the remote end; side 2 the output of `mm.tile` (R23, R61, R68, R143, R156, R200). -/
def sideRegs (i : Instr) (side : Nat) : List (BitVec 5) :=
  match i, side with
  | .sLd c, 0 | .sSt c, 0 => [c.sa]
  | .mmPass m, 0 | .mmDiag m, 0 | .mmTile m, 0 | .mmMon m, 0 => [m.xa]
  | .mmPass m, 1 | .mmDiag m, 1 => if m.keepS then [] else [m.wa]
  | .mmTile m, 1 => [m.wa]
  | .mmTile m, 2 | .mmDrain m, 0 => [m.pa]
  | .vLd v, 0 | .vSt v, 0 => v.ab :: (if v.am = 1 ∨ v.am = 2 then [v.st] else [])
  | .ribPut b, 0 | .bMove b, 0 | .spPut b, 0 => [b.src]
  | .ribPut b, 1 | .bMove b, 1 | .spPut b, 1 | .spSig b, 1 | .spWord b, 1 => [b.dst]
  | .spGet b, 0 => [b.dst]
  | .spGet b, 1 => [b.src]
  | .dmaGet d, 0 => [d.dst]
  | .dmaPut d, 0 | .strandSend d, 0 => [d.src]
  | _, _ => []

/-- Whether VL decides which bytes a slot meets: R112, R113. -/
def needsVl (i : Instr) : Bool :=
  match i with
  | .vLd v | .vSt v => v.am != 3
  | _ => false

/-- Whether one side of a slot's accesses is static: R237. -/
def GEnv.knows (e : GEnv) (x : GSim) (i : Instr) (side : Nat) : Bool :=
  e.descFixed x i && (sideRegs i side).all (fun r => (x.scalar r true).isSome) && (!needsVl i || (x.value vlKey true).isSome) &&
  match i with
  | .dmaGet d | .dmaPut d => side != 1 || (x.scalar d.rr false).isSome
  | _ => true

/-- The side to which a slot writes: a core's own bytes or another's. -/
def writeSide (i : Instr) : Nat :=
  match i with
  | .mmTile _ => 2
  | .ribPut _ | .bMove _ | .spPut _ | .spSig _ | .spWord _ | .dmaPut _ => 1
  | _ => 0

/-- Whether everything that a slot's addresses rest on is static: R237. -/
def GEnv.placed (e : GEnv) (x : GSim) (i : Instr) : Bool :=
  i.checkReads.all (fun r => (x.scalar r true).isSome) && e.descFixed x i &&
  match i with
  | .dmaGet d | .dmaPut d => (x.scalar d.rr false).isSome
  | .vLd _ | .vSt _ => !needsVl i || (x.value vlKey true).isSome
  | _ => true

/-- Whether the scalar register and VL that a slot writes are static: C-slot arithmetic, VL and `CORE_ID`, the counters of loops with
static counts, and bytes that nothing writes (R24, R52, R109, R237). A VL is so where `v.setvl` reads a static register; `v.getvl` forms no
static register, being no C-slot arithmetic. -/
def GEnv.computes (e : GEnv) (x : GSim) (i : Instr) : Bool :=
  i.issueReads.all (fun r => (x.scalar r false).isSome) && i.checkReads.all (fun r => (x.scalar r true).isSome) &&
  match i with
  | .sAdd _ | .sSub _ | .sAnd _ | .sOr _ | .sXor _ | .sShl _ | .sShr _ | .sSra _ | .sSlt _ | .sSltu _ | .sSeq _ | .sMul _ | .sLi _ | .sLui _
  | .vSetvl _ => true
  | .sRdreg c => c.row12 == 0 || (0x40 ≤ c.row12 && c.row12 ≤ 0x43 && x.loops.all (fun l => l.1.lc != c.row12 - 0x40 || l.2))
  | .sLd c => e.fixed (c.addr ((e.at x).core e.n)) 8
  | _ => false

/-- The value a slot writes to the scalar register or VL of a key: what its action writes. -/
def GEnv.result (e : GEnv) (x : GSim) (i : Instr) (key : Nat) : Option (BitVec 64) :=
  if e.computes x i then
    ((actSlot (e.at x) (i, [])).core e.n).pipe.findSome? (fun p => match p.dst with
      | .sreg r v => if r.toNat = key then some v else none
      | .vl n => if key = vlKey then some (BitVec.ofNat 64 n) else none
      | _ => none)
  else none

/-! ### Matrix rows -/

/-- The matrix row of a slot as the engine performs it, without rescale: its data are zeros, and its descriptor is the static one (R59 to
R76, R238). None where its descriptor is run-time. -/
def GEnv.matrix (e : GEnv) (x : GSim) (i : Instr) : Option Core :=
  if (opM i).isNone || !e.descFixed x i then none
  else
    let s := e.at x
    let copied := (s.copySpans e.n i).map (fun a => (0, a.1, s.chkRead e.n a.1 a.2))
    some ((actMBD i [] ((s.modP e.n (fun p => { p with mem := [] })).modCore e.n (fun c => { c with chkOld := copied }))).core e.n)

/-- The reads of a pass of row `src`: its S operand slice by slice from `sAddr`, none where the plane is kept, and the spans of its X rows, each
as far as it is static (R59, R60, R237). -/
def PassAt.reads (p : PassAt) (src : GFrom) (sAddr : Option Nat) (step : Nat) (row : Nat → List (Nat × Nat)) : List GSpan :=
  (match sAddr with
   | some a => (List.range p.xfer).map (fun k => { off := a + k * step, len := step, left := p.begin_ + k, src := src })
   | none => []) ++
    (List.range p.rows).flatMap (fun i => (row i).map (fun a => { off := a.1, len := a.2, left := p.start + i * p.b, src := src }))

/-- The spans of an X row of `w`-bit containers: a checkerboard column, or packed bytes (R57, R133). -/
def xSpans (cb : Bool) (fmt base m addr : Nat) : List (Nat × Nat) :=
  if cb then (List.range 128).map (columnByte (xContainer fmt) base m) else [(addr, xRowBytes fmt)]

/-- What a matrix row reads, with the cycles in which it does: R59, R60, R69, R77. `c` is the core before it, `t` the core after it. -/
def GEnv.matrixReads (e : GEnv) (x : GSim) (c t : Core) (i : Instr) : List GSpan :=
  let src : GFrom := { k := x.k, row := x.row }
  let xKnown := e.knows x i 0
  let s (a : Nat) : Option Nat := if e.knows x i 1 then some a else none
  let pass (m : MSlot) (diag : Bool) : List GSpan := match t.mx.log.getLast? with
    | some p => p.reads src (s (m.sBase c)) (planeSteps m.sFmt diag).2 (fun i =>
        if xKnown then xSpans m.xCb m.xFmt (m.xBase c) i (m.xBase c + i * xRowBytes m.xFmt) else [])
    | none => []
  match i with
  | .mmPass m => pass m false
  | .mmDiag m => pass m true
  | .mmTile m =>
    let d := parseTile ((e.at x).chkRead e.n (m.tileAddr c) 64)
    let b := m.tileBase c d
    let order := (List.range d.nc).flatMap (fun nc => (List.range d.w).flatMap (fun w => (List.range d.blockPasses).map (fun j => (nc, w, j))))
    ((t.mx.log.drop (t.mx.log.length - order.length)).zip order).flatMap (fun z =>
      let (p, nc, w, j) := z
      let kc := if d.split then j / 2 else j
      let hi := d.split && j % 2 == 1
      p.reads src (s (d.planeAddr b nc kc hi)) (planeSteps (if d.split then (if hi then 5 else 6) else d.sFmt) false).2 (fun i =>
        let m := 256 * w + i
        if xKnown then xSpans d.xCb d.xFmt (d.blocks b kc) m (b.x + m * d.xStride + kc * xRowBytes d.xFmt) else []))
  | _ => []

/-- The bytes that a slot writes to the core's own buffers at a latency the schedule fixes: R24, R65, R79, R112. -/
def GEnv.stores (e : GEnv) (x : GSim) (i : Instr) : List (Nat × Nat × Nat) :=
  if !e.knows x i (writeSide i) then []
  else match i, e.matrix x i with
    | .sSt _, _ => ((e.at x).writesTo e.n i).map (fun a => (a.1, a.2, 4))
    | .vSt v, _ => ((e.at x).writesTo e.n i).map (fun a => (a.1, a.2, v.storeLat))
    | _, some t => if x.tile then [] else t.pipe.filterMap (fun p => match p.dst with
        | .bytes _ o bs | .mout _ o bs => some (o, bs.length, p.due)
        | _ => none)
    | _, none => []

/-- What a slot reads of the core's own buffers: each span with the cycles from its check stage to the read (R29, R59, R60, R144). -/
def GEnv.loads (e : GEnv) (x : GSim) (i : Instr) : List (Nat × Nat × Nat) :=
  let s := e.at x
  let c := s.core e.n
  let copied := if e.descFixed x i then (s.copySpans e.n i).map (fun a => (a.1, a.2, 0)) else []
  let rest : List (Nat × Nat × Nat) := match e.matrix x i with
    | some t => if x.tile then [] else (e.matrixReads x c t i).map (fun r => (r.off, r.len, r.left + 4))
    | none =>
      if (opM i).isSome || !e.knows x i 0 then []
      else ((s.readsFrom e.n i).filter (fun a => !(s.copySpans e.n i).contains a)).map (fun a => (a.1, a.2, 4))
  copied ++ rest

/-- The deliveries that a slot starts into the core's own buffers, as far as they are static: R35. -/
def GEnv.delivers (e : GEnv) (x : GSim) (i : Instr) : List (Nat × Nat) :=
  if e.knows x i (writeSide i) then (e.at x).delivers e.n i else []

/-- The output span of an `mm.tile` whose descriptor is run-time, where the fields that give it are static: R68, R72, R237, R291. -/
def GEnv.tileOut (e : GEnv) (x : GSim) (m : MSlot) : Option (Nat × Nat) :=
  let s := e.at x
  let c := s.core e.n
  let a := m.tileAddr c
  if (x.scalar m.ta true).isSome && (x.scalar m.pa true).isSome && e.fixed a 4 && e.fixed (a + 8) 4 && e.fixed (a + 14) 1 && e.fixed (a + 32) 8 then
    let t := parseTile (s.chkRead e.n a 64)
    some (t.oSpan (m.tileBase c t))
  else none

/-- What is static of the cable that a row runs: everything, its header alone, or nothing (R237, R289). -/
def GEnv.cableOf (e : GEnv) (x : GSim) (d : DSlot) : GCable :=
  let s := e.at x
  let a := d.descAddr (s.core e.n)
  let h := s.chkRead e.n a 64
  let t := a + 64 * leAt h 6 2
  let head : Cable := { stages := leAt h 0 1, pipe1 := leAt h 2 1 == 1, vregLo := leAt h 3 1, doneTally := leAt h 14 1 }
  if (x.scalar d.desc true).isNone || !e.fixed a 64 then { row := x.row, head := none }
  else { row := x.row, head := some (if e.descFixed x (.cableRun d) then (s.parseCable e.n a).getD head else head),
         g := if bitOf (leAt h 0 1) 1 && e.fixed (t + 14) 1 then some (field (leAt (s.chkRead e.n t 64) 14 1) 1 0) else none }

/-! ### One row -/

/-- The commands of the row at a point. -/
def GEnv.cmds (e : GEnv) (x : GSim) : List (Nat × Instr) := ((e.core.seg x.k).row x.row).cmds

/-- The bytes of the core's own buffers that a slot touches, as far as they are static: R36. -/
def GEnv.touched (e : GEnv) (x : GSim) (i : Instr) : List (Nat × Nat) :=
  let s := e.at x
  let c := s.core e.n
  let part (side : Nat) (a : Nat × Nat) : List (Nat × Nat) := if e.knows x i side then [a] else []
  match i with
  | .mmPass m => part 0 (m.xSpan c) ++ part 1 (m.sSpan c false)
  | .mmDiag m => part 0 (m.xSpan c) ++ part 1 (m.sSpan c true)
  | .mmTile m =>
    let t := parseTile (s.chkRead e.n (m.tileAddr c) 64)
    let b := m.tileBase c t
    part 0 (t.xSpan b) ++ part 1 (t.sSpan b) ++ part 2 (t.oSpan b)
  | _ => if e.knows x i 0 then s.touches e.n i else []

/-- A slot enters the simulation: its writes, its reads to come, and what it occupies. -/
def GEnv.slot (e : GEnv) (x0 x : GSim) (i : Instr) : GSim :=
  let src : GFrom := { k := x.k, row := x.row }
  let regs := i.writeKeys.map (fun k => { key := k, lat := i.latency, val := e.result x0 i k, src := src : GReg })
  let mems := (e.stores x0 i).map (fun a => { off := a.1, len := a.2.1, lat := a.2.2, src := src : GMem })
  let s := e.at x0
  let c := s.core e.n
  let met := (e.touched x0 i).filter (fun a => a.2 != 0)
  let x := { x with regW := x.regW ++ regs, memW := x.memW ++ mems,
                    tiles := x.tiles.filter (fun t => !t.any (fun o => met.any (fun a => overlaps o.1 o.2 a.1 a.2))) }
  let x := match i.vslot with
    | some v =>
      let port := match i with
        | .vLd _ => 1
        | .vSt _ => 2
        | _ => 0
      { x with ports := x.ports ++ [{ pipe := v.pipe, port := port, left := if port = 0 then 1 else v.occupancy, src := src }] }
    | none => x
  let x := match e.matrix x0 i with
    | some t =>
      let g := match i with
        | .mmPass m | .mmDiag m => some m.g
        | .mmTile m => some (parseTile (s.chkRead e.n (m.tileAddr c) 64)).g
        | _ => none
      let left := maxN ((t.mx.work.drop (t.mx.work.length - 1)).map (fun w => w.doneAt))
      { x with mx := t.mx, busy := x.busy ++ [(g, left, src)], spans := x.spans ++ (if x.tile then [] else e.matrixReads x0 c t i) }
    | none => match i with
      | .mmTile m => { x with tile := true, tiles := x.tiles ++ [e.tileOut x0 m] }
      | _ => x
  match i with
  | .sbDef k => { x with ranges := if e.placed x0 i then mset x.ranges k.x.toNat { base := c.chk k.sa, fin := c.chk k.sb, enable := true }
                                   else mdel x.ranges k.x.toNat }
  | .cableRun d => { x with cable := some (e.cableOf x0 d) }
  | .tallyWait k =>
    { x with cable := if x.cable.any (fun z => k.owner == e.n && z.head.any (fun h => h.doneTally == k.x.toNat)) then none else x.cable,
             acquired := if x.acquired.contains (k.owner, k.x.toNat, k.scope) then x.acquired else x.acquired ++ [(k.owner, k.x.toNat, k.scope)] }
  | .tallyTake k =>
    { x with acquired := if x.acquired.contains (k.owner, k.x.toNat, k.scope) then x.acquired else x.acquired ++ [(k.owner, k.x.toNat, k.scope)] }
  | _ => x

/-- The matrix engine's timing one cycle on. -/
def Matrix.passed (x : Matrix) : Matrix :=
  { xferEnd := x.xferEnd - 1, start := x.start - 1, streamEnd := x.streamEnd - 1,
    entLast := (x.entLast.filter (fun a => a.2 != 0)).map (fun a => (a.1, a.2 - 1)),
    work := ((x.work.filter (fun w => decide (1 < w.doneAt))).map (fun w => { id := 0, doneAt := w.doneAt - 1, output := false })) }

/-- An issue cycle passes: R27. -/
def GSim.pass (x : GSim) : GSim :=
  let older (f : GFrom) : GFrom := { f with age := f.age + 1 }
  let ws := x.regW.map (fun w => { w with src := older w.src })
  let seen (w : GReg) : Bool := decide (w.lat + 4 ≤ w.src.age)
  { x with
    base := (ws.filter seen).foldl (fun m w => match w.val with
      | some v => mset m w.key v
      | none => mdel m w.key) x.base
    regW := ws.filter (fun w => !seen w)
    memW := (x.memW.map (fun w => { w with src := older w.src })).filter (fun w => decide (w.src.age < w.lat + 4))
    spans := (x.spans.filter (fun r => r.left != 0)).map (fun r => { r with left := r.left - 1, src := older r.src })
    ports := (x.ports.filter (fun p => decide (1 < p.left))).map (fun p => { p with left := p.left - 1, src := older p.src })
    busy := (x.busy.filter (fun b => decide (1 < b.2.1))).map (fun b => (b.1, b.2.1 - 1, older b.2.2))
    mx := x.mx.passed
    clock := x.clock.map (fun t => t + 1) }

/-- A back edge of a loop is taken: what went before lies in another iteration (R238). -/
def GSim.turned (x : GSim) : GSim :=
  let back (f : GFrom) : GFrom := { f with back := true }
  { x with regW := x.regW.map (fun w => { w with src := back w.src }), memW := x.memW.map (fun w => { w with src := back w.src }),
           spans := x.spans.map (fun r => { r with src := back r.src }), ports := x.ports.map (fun p => { p with src := back p.src }),
           busy := x.busy.map (fun b => (b.1, b.2.1, back b.2.2)), turnedAt := x.clock }

/-- The rows of a segment from one to another run a number of times that is run-time: what they write is run-time (R237). -/
def GEnv.widen (e : GEnv) (x : GSim) (lo hi : Nat) : GSim :=
  let keys := (List.range (hi + 1 - lo)).flatMap (fun r => (((e.core.seg x.k).row (lo + r)).cmds.flatMap (fun s => s.2.writeKeys)))
  { x with base := x.base.filter (fun b => !keys.contains b.1),
           regW := x.regW.map (fun w => if keys.contains w.key then { w with val := none } else w), clock := none, turnedAt := none }

/-- After the row `row`: the next iterations of the loops that end there, and what follows them. A loop with a static count runs it out; of
another, one more iteration and the end are both simulated (R32, R238). -/
def GEnv.after (e : GEnv) (x : GSim) (row : Nat) : List (Loop × Bool) → List GSim
  | [] => [{ x with row := row + 1, loops := [] }]
  | (l, fixed) :: ls =>
    if l.last ≠ row then [{ x with row := row + 1, loops := (l, fixed) :: ls }]
    else if fixed then
      (if l.idx + 1 < l.count then [({ x with row := l.first, loops := ({ l with idx := l.idx + 1 }, true) :: ls } : GSim).turned]
       else GEnv.after e x row ls)
    else [({ (e.widen x l.first row) with row := l.first, loops := (l, false) :: ls } : GSim).turned] ++ GEnv.after e x row ls

/-- A point as it is reached: registers that another path leaves run-time there are not static (R237). -/
def GEnv.arrive (e : GEnv) (x : GSim) : GSim :=
  let keys := (e.know.dropped.filter (fun d => d.1 == e.n && d.2.1 == x.k && d.2.2.1 == x.row)).map (fun d => d.2.2.2)
  { x with base := x.base.filter (fun b => !keys.contains b.1),
           regW := x.regW.map (fun w => if keys.contains w.key then { w with val := none } else w) }

/-- The writes of a row whose homes others can read: R182, R187. -/
def GEnv.outbound (e : GEnv) (x : GSim) (i : Instr) : List GStore :=
  if !e.knows x i (writeSide i) then []
  else
    let s := e.at x
    let c := s.core e.n
    match i with
    | .spPut b => [{ addr := b.remote i c, len := b.bytes, path := 1 }]
    | .spWord b => [{ addr := b.remote i c, len := 8, path := 1 }]
    | .dmaPut d => ((s.dmaDesc e.n d false).bursts).map (fun u => { addr := u.dst, len := u.len, path := 2 + d.q.toNat })
    | .ribPut b => (s.ribTargets e.n b).map (fun m => { addr := winBase + m * 0x1000000 + b.ribDst c, len := 64 })
    | .cableRun d => (((s.parseCable e.n (d.descAddr c)).map (fun k => if k.has 3 then k.store.bursts else [])).getD []).map (fun u =>
        { addr := u.dst, len := u.len })
    | _ => (e.stores x i).map (fun a => { addr := winBase + e.n * 0x1000000 + a.1, len := a.2.1 })

/-- A row issues and its cycle passes. -/
def GEnv.issued (e : GEnv) (x : GSim) : GSim :=
  let y := (e.cmds x).foldl (fun y s => e.slot x y s.2) x
  let ws := (e.cmds x).flatMap (fun s => e.outbound x s.2)
  ({ y with wrote := y.wrote ++ (ws.filter (fun w => !y.wrote.contains w)).eraseDups } : GSim).pass

/-- The points that may follow a point: R31, R32, R51, R238. -/
def GEnv.next (e : GEnv) (x : GSim) : List GSim :=
  let y := e.issued x
  let c := ((e.core.seg x.k).row x.row).c
  let enter (l : CSlot) (fixed : Bool) : GSim :=
    { y with row := x.row + 1, loops := ({ lc := l.x.toNat % 4, idx := 0, count := if fixed then (l.imm.extractLsb' 12 20).toNat else 0,
                                           first := x.row + 1, last := l.row12 }, fixed) :: x.loops }
  let branch (t : Nat) : GSim := if t ≤ x.row then ({ (e.widen y t x.row) with row := t } : GSim).turned else { y with row := t }
  let zs := match c with
    | some (.taskEnd _) => []
    | some (.bankFlip i) => if x.k + 1 < e.core.segs.length then [{ y with k := x.k + 1, row := i.row12 }] else []
    | some (.loopI l) => [enter l true]
    | some (.loopR l) => [enter l false] ++ e.after y l.row12 x.loops
    | _ => match branchOf c with
      | some (t, true) => [branch t]
      | some (t, false) => [branch t, { y with row := x.row + 1 }]
      | none => e.after y x.row x.loops
  (zs.filter (fun z => decide (z.row ≤ 4095))).map e.arrive

/-- Engine cycles of a fold whose verification takes as long as that of a row, by the typical times of R242. -/
def foldsPerRow : Nat := 200000

/-- What the verification of a point takes, in the cycles of folds: a row, and the folds of its `mm.tile` slots with a static descriptor
(R238, R242). -/
def GEnv.effort (e : GEnv) (x : GSim) : Nat :=
  foldsPerRow + sumN ((e.cmds x).map (fun z => match z.2, e.matrix x z.2 with
    | .mmTile _, some t => maxN ((t.mx.work.drop (t.mx.work.length - 1)).map (fun w => w.doneAt))
    | _, _ => 0))

/-- What a simulation has reached: its points, what is left of the limit, and whether that stopped it (R242). -/
structure GRun where
  points : List GSim
  left : Nat
  stopped : Bool

/-- The points that the simulation reaches from those in `todo`, `seen` among them, while `left` lasts (R238, R242). -/
def GEnv.explore (e : GEnv) : Nat → Nat → List GSim → List GSim → GRun
  | 0, left, todo, seen => ⟨seen, left, !todo.isEmpty⟩
  | _ + 1, left, [], seen => ⟨seen, left, false⟩
  | f + 1, left, x :: todo, seen =>
    if seen.contains x then GEnv.explore e f left todo seen
    else if left < e.effort x then ⟨seen, left, true⟩
    else GEnv.explore e f (left - e.effort x) (e.next x ++ todo) (seen ++ [x])

/-- The points of a core's simulation from its entry row, with what the limit of the load still leaves: R238, R242. Every point has three
successors at most. -/
def GEnv.points (e : GEnv) (left : Nat) : GRun :=
  e.explore (3 * Config.verifyRows + 2) left [e.arrive { row := e.core.rcd.entryRow, ranges := (e.s.core e.n).ranges }] []

/-- The simulations of a load's cores one after another, under the one limit of the load: R242. -/
def explored : Nat → List GEnv → List (GEnv × GRun)
  | _, [] => []
  | left, e :: es => (e, e.points left) :: explored (e.points left).left es

/-- The limit of a load, in the cycles of folds: R242. -/
def verifyLimit : Nat := foldsPerRow * Config.verifyRows

/-! ### What is not static -/

/-- The bytes of core windows that a slot may write, or that are delivered by it: all that it can reach where its address is run-time
(R237). -/
def GEnv.reaches (e : GEnv) (x : GSim) (i : Instr) : List (Nat × Nat × Nat) :=
  let s := e.at x
  let c := s.core e.n
  let own (l : List (Nat × Nat)) : List (Nat × Nat × Nat) := l.map (fun a => (e.n, a.1, a.2))
  let all : List (Nat × Nat × Nat) := e.man.coreSet.map (fun m => (m, 0, bufEnd))
  let far (a len : Nat) : List (Nat × Nat × Nat) := match localPlace (a % 2 ^ 56) with
    | .win m off => [(m, off, len)]
    | _ => []
  let known := e.knows x i (writeSide i)
  match i with
  | .sSt _ => if known then own (s.writesTo e.n i) else own [(0, bufEnd)]
  | .vSt _ | .mmDrain _ | .mmMon _ | .mmTile _ => if known then own (s.writesTo e.n i) else own [(abBase, bufEnd - abBase)]
  | .bMove _ | .spGet _ | .dmaGet _ => if known then own (s.delivers e.n i) else own [(0, bufEnd)]
  | .ribPut b => (s.ribTargets e.n b).map (fun m => if known then (m, b.ribDst c, 64) else (m, abBase, bufEnd - abBase))
  | .spPut _ | .spWord _ | .dmaPut _ => if known then (e.outbound x i).flatMap (fun w => far w.addr w.len) else all
  | .cableRun d =>
    match if known then s.parseCable e.n (d.descAddr c) else none with
    | some k => own ([k.ringA, k.ringB, k.ringC].map (fun r => (r.base, r.slot * r.slots))) ++ (e.outbound x i).flatMap (fun w => far w.addr w.len)
    | none => all
  | _ => []

/-- What a core's simulation shows not to be static: bytes that something may write, the rings of its skeins among them, and registers
that differ between the paths to a row in being static (R237). -/
def GEnv.learn (e : GEnv) (xs : List GSim) : GKnow :=
  let rings := (e.core.rcd.skeins.filter (fun k => k.enable)).map (fun k => (e.n, k.base, k.size))
  let spoiled := rings ++ xs.flatMap (fun x => (e.cmds x).flatMap (fun s => e.reaches x s.2))
  let keys := List.range 32 ++ [vlKey]
  let dropped := xs.flatMap (fun x => (keys.filter (fun k => xs.any (fun y => y.k == x.k && y.row == x.row &&
      ((y.value k false).isNone || (y.value k true).isNone)))).map (fun k => (e.n, x.k, x.row, k)))
  { spoiled := spoiled.eraseDups, dropped := dropped.eraseDups }

/-- The cores of an image as the simulation finds them. -/
def State.gEnvs (s : State) (b : List Byte) (know : GKnow) : List GEnv :=
  let man := manifestOf b
  (gCores b).map (fun g => { man := man, recs := coreRecs b, core := g, s := s.castAlone b man g.rcd, know := know })

/-- What the image leaves run-time, found by simulating until nothing more turns out to be so: R237, R238. -/
def State.settleKnow (s : State) (b : List Byte) : Nat → GKnow → GKnow
  | 0, know => know
  | f + 1, know =>
    let found := (explored verifyLimit (s.gEnvs b know)).map (fun r => r.1.learn r.2.points)
    let next : GKnow := { spoiled := (know.spoiled ++ found.flatMap (fun k => k.spoiled)).eraseDups,
                          dropped := (know.dropped ++ found.flatMap (fun k => k.dropped)).eraseDups }
    if next = know then know else s.settleKnow b f next

end Sys2Proof.Machine
end

