-- ==== Sys2Proof/Machine/Hazard.lean ====
section
/-!
DEFINITION. What phase D refuses in the simulated points of an image (R237 to R242): early reads and colliding writes, busy ports, matrix
depth, written spans, static addresses and descriptors, cables and their epilogues, spill safety, message sizes, declared pips, and
static releases and acquires that miss each other. The choices are those of entry 36.
-/

namespace Sys2Proof.Machine

/-- A refusal of a slot at a point. -/
def GEnv.refuse (e : GEnv) (x : GSim) (code slot detail : Nat) (context : Nat := 0) : Refuse :=
  { code := code, slot := slot, context := context, core := e.n, segment := e.core.rcd.flips.getD x.k 0, row := x.row,
    detail := detail % 2 ^ 32 }

/-- The context of the path from a row to a point: R239. -/
def GEnv.context (e : GEnv) (f : GFrom) (x : GSim) : Nat :=
  if f.back then 2
  else
    let a := if f.k = x.k then (e.core.seg f.k).enclosing f.row else []
    let b := (e.core.seg x.k).enclosing x.row
    if b.any (fun l => !a.contains l) then 1 else if a.any (fun l => !b.contains l) then 3 else 0

/-- The detail of READ_EARLY: producer row, required distance, actual distance (R240). -/
def earlyDetail (row need age : Nat) : Nat := row % 4096 + need % 256 * 4096 + age % 256 * 2 ^ 20

/-! ### Registers and bytes -/

/-- READ_EARLY: R28, R30, R109, R144. -/
def GEnv.earlyReads (e : GEnv) (x : GSim) (num : Nat) (i : Instr) : List Refuse :=
  let found (f : GFrom) (need : Nat) : Refuse := e.refuse x 0x0401 num (earlyDetail f.row need f.age) (e.context f x)
  i.readKeys.flatMap (fun r => (x.regW.filter (fun w => w.key == r.1 && decide (w.src.age < w.lat + (if r.2 then 4 else 0)))).map (fun w =>
    found w.src (w.lat + (if r.2 then 4 else 0)))) ++
  (e.loads x i).flatMap (fun a => (x.memW.filter (fun w => overlaps w.off w.len a.1 a.2.1 && decide (w.src.age + a.2.2 < w.lat + 4))).map (fun w =>
    found w.src (w.lat + 4 - a.2.2)))

/-- WRITE_COLLIDE: two writes reach a register or a byte in one cycle; `row` holds what the earlier slots of the row store (R26, R111). -/
def GEnv.collisions (e : GEnv) (x : GSim) (row : List (Nat × Nat × Nat)) (num : Nat) (i : Instr) : List Refuse :=
  i.writeKeys.flatMap (fun k => (x.regW.filter (fun w => w.key == k && w.lat == w.src.age + i.latency)).map (fun w =>
    e.refuse x 0x0402 num (keyReg k) (e.context w.src x))) ++
  (e.stores x i).flatMap (fun a =>
    (x.memW.filter (fun w => overlaps w.off w.len a.1 a.2.1 && w.lat == w.src.age + a.2.2)).map (fun w =>
      e.refuse x 0x0402 num (max w.off a.1) (e.context w.src x)) ++
    (row.filter (fun w => overlaps w.1 w.2.1 a.1 a.2.1 && w.2.2 == a.2.2)).map (fun w => e.refuse x 0x0402 num (max w.1 a.1)))

/-- SPAN_WRITE: bytes that a running pass has yet to read become others first; a delivery may at any time (R62). `spans` are those bytes. -/
def GEnv.spanWrites (e : GEnv) (x : GSim) (spans : List GSpan) (num : Nat) (i : Instr) : List Refuse :=
  let late (off len lat : Nat) : List Refuse :=
    (spans.filter (fun r => overlaps r.off r.len off len && decide (lat ≤ r.left))).map (fun r => e.refuse x 0x0405 num (max r.off off) (e.context r.src x))
  (e.stores x i).flatMap (fun a => late a.1 a.2.1 a.2.2) ++
  (match i with
   | .dmaGet _ | .dmaPut _ | .bMove _ | .spGet _ => (e.delivers x i).flatMap (fun a => late a.1 a.2 0)
   | _ => [])

/-- PORT_BUSY: R113. -/
def GEnv.portBusy (e : GEnv) (x : GSim) (num : Nat) (i : Instr) : List Refuse :=
  let busy (pipe : Bool) (port : Nat) : List Refuse :=
    (x.ports.filter (fun p => p.pipe == pipe && p.port == port)).map (fun p => e.refuse x 0x0403 num p.src.row (e.context p.src x))
  match i with
  | .vLd v => busy v.pipe 1
  | .vSt v => busy v.pipe 2
  | _ => []

/-- MATRIX_DEPTH: R62. -/
def GEnv.depth (e : GEnv) (x : GSim) (num : Nat) (i : Instr) : List Refuse :=
  if (opM i).isSome && !x.tile && decide (4 ≤ x.mx.work.countP (fun w => decide (0 < w.doneAt))) then
    [e.refuse x 0x0404 num 0 (((x.busy.head?).map (fun b => e.context b.2.2 x)).getD 0)] else []

/-! ### Descriptors and addresses -/

/-- What is refused in a static `mm.tile` descriptor, or a cable's at byte `o` from its header; `a` is its window offset: R68, R70, R74, R133,
R240. -/
def tileRefusal (b : List Byte) (declared : Bool) (a o : Nat) : Option (Nat × Nat) :=
  let t := parseTile b
  match t.breach declared with
  | none => none
  | some 74 => if t.optimistic && !declared then some (0x040D, 0)
      else some (0x040C, if t.split then 1 else if t.p = 0 then t.kc else t.p)
  | some 133 => some (0x0406, a)
  | some _ => some (0x0408, o + tileFault b)

/-- The first operation of an epilogue program that R162 does not admit. -/
def epiRefused (core : CoreId) (pipe : Bool) (lo : Nat) : Nat → Nat → List Byte → Option Nat
  | 0, _, _ => none
  | k + 1, j, bs => match parseEpi core pipe lo 1 bs with
      | some _ => epiRefused core pipe lo k (j + 1) (bs.drop 16)
      | none => some j

/-- The first field of a cable header, or of a descriptor it names, at fault, as its byte from the header; 0 where its parts do not fit each
other (R159, R161, R240). -/
def cableFault (h : List Byte) (read : Nat → Nat → List Byte) : Nat :=
  let b (o : Nat) : Nat := leAt h o 1
  let has (i : Nat) : Bool := (b 0).testBit i
  let ring (o : Nat) (present : Bool) : Nat × Bool :=
    (o, if present then decide (2 ^ 44 ≤ leAt h o 8) || !(parseRing (leAt h o 8)).ok else leAt h o 8 != 0)
  let at_ (o : Nat) : Nat := 64 * leAt h o 2
  let all : List (Nat × Bool) :=
    [(0, decide (16 ≤ b 0) || decide ((List.range 4).countP has < 2) || (has 2 && !has 0 && !has 1)), (1, decide (16 ≤ b 1)), (2, decide (2 ≤ b 2)),
     (3, has 2 && (decide (b 3 < 8) || decide (31 < b 3))), (10, has 2 && (b 10 == 0 || decide (64 < b 10))), (14, decide (63 ≤ b 14)), (15, b 15 != 0),
     (20, has 2 && leAt h 20 2 == 0), (22, has 2 && leAt h 22 2 == 0), ring 24 (has 0), ring 32 (has 1), ring 40 (has 2),
     (48, has 2 && leAt h 48 4 % 64 != 0), (52, has 2 && leAt h 52 4 != 0 && !inAB (leAt h 48 4) (leAt h 52 4))] ++
    (List.range 8).map (fun i => (56 + i, b (56 + i) != 0))
  let stage (o : Nat) (isGet : Bool) : List (Nat × Bool) :=
    let d := read (at_ o) 64
    [(at_ o + descFault d isGet, descReserved d || ((parseDesc d true).valueBreach isGet).isSome)]
  ((((all ++ (if has 0 then stage 4 true else []) ++ (if has 3 then stage 12 false else [])).find? (fun f => f.2)).map (fun f => f.1))).getD 0

/-- Whether a side of a stage descriptor is misaligned: R147, R149. -/
def Cable.misaligned (k : Cable) : Bool :=
  (k.has 0 && (!k.load.aligned k.load.srcS k.load.src || !k.load.ringAligned k.load.dstS k.load.dst)) ||
    (k.has 3 && (!k.store.aligned k.store.dstS k.store.dst || !k.store.ringAligned k.store.srcS k.store.src))

/-- The window offset of a slot's descriptor or header: R61, R143. -/
def GEnv.descOff (e : GEnv) (x : GSim) (i : Instr) : Nat :=
  let c := (e.at x).core e.n
  match i with
  | .mmTile m => m.tileAddr c
  | .dmaGet d | .dmaPut d | .cableRun d => d.descAddr c
  | _ => 0

/-- Whether a descriptor or header lies where it may, as far as its address is static: R61, R143, R146. -/
def GEnv.descPlaced (e : GEnv) (x : GSim) (i : Instr) : Bool :=
  let a := e.descOff x i
  match descReg i with
  | none => true
  | some r => (x.scalar r true).isNone || (inAB a 64 && ((opM i).isSome || a % 64 == 0))

/-- What is refused in a static descriptor or header, whatever the registers it is added to: R68, R70, R74, R142, R143, R146, R147, R149,
R150, R159, R161, R162. The detail is the first byte at fault, counted from the descriptor or header (entry 36), its window offset, the
queue, or the operation. -/
def GEnv.described (e : GEnv) (x : GSim) (i : Instr) : Option (Nat × Nat × Bool) :=
  let s := e.at x
  let c := s.core e.n
  let desc (d : DSlot) (isGet : Bool) : Option (Nat × Nat × Bool) :=
    let a := d.descAddr c
    let b := s.chkRead e.n a 64
    let k := parseDesc b (c.sigmode.getLsbD d.q.toNat)
    if descReserved b || (k.valueBreach isGet).isSome then some (0x0408, descFault b isGet, false)
    else if !k.aligned k.srcS 0 || !k.aligned k.dstS 0 then some (0x0406, a, false) else none
  match i with
  | .dmaGet d => desc d true
  | .dmaPut d => desc d false
  | .mmTile m =>
    let a := m.tileAddr c
    (tileRefusal (s.chkRead e.n a 64) c.optimistic a 0).map (fun r => (r.1, r.2, false))
  | .cableRun d =>
    let a := d.descAddr c
    let h := s.chkRead e.n a 64
    let fault := cableFault h (fun o => s.chkRead e.n (a + o))
    match s.parseCable e.n a with
      | none => match if bitOf (leAt h 0 1) 2 then epiRefused d.core (leAt h 2 1 == 1) (leAt h 3 1) (leAt h 10 1) 0
            (s.chkRead e.n (a + 64 * leAt h 8 2) (16 * leAt h 10 1)) else none with
          | some j => some (0x040B, j, true)
          | none => some (0x0408, fault, false)
      | some k =>
        let tile := if k.has 1 then tileRefusal k.tile c.optimistic a (64 * leAt h 6 2) else none
        match tile.map (fun r => (r.1, r.2, false)), k.breach c, s.cableFar e.n a k with
        | some r, _, _ => some r
        | none, some 142, _ =>
          some (0x0407, if k.has 0 && queueClass k.load.src true != some (field k.queues 1 0) then field k.queues 1 0 else field k.queues 3 2, false)
        | none, some 133, _ => some (0x0406, a, false)
        | none, some r, _ =>
          if (r = 147 ∨ r = 149) ∧ k.misaligned then some (0x0406, a, false) else some (0x0408, fault, false)
        | none, none, some (150, _) => some (0x0409, 0, false)
        | none, none, some (147, z) => some (0x0406, z, false)
        | none, none, some (_, z) => some (0x0406, z, false)
        | none, none, none => none
  | _ => none

/-- The accesses of a descriptor at its far side, cut at the 256-byte boundaries there: R147, R149. -/
def Desc.farAccesses (d : Desc) (isGet : Bool) : List (Nat × Nat) :=
  d.indices.flatMap (fun i =>
    let a := (if isGet then d.piece d.srcS d.src i.1 i.2.1 i.2.2 else d.piece d.dstS d.dst i.1 i.2.1 i.2.2).toNat
    (cutPiece a a (d.len0 / 64 + 1) d.len0).map (fun u => (u.dst, u.len)))

/-- The accesses of a slot outside the core's own engine ports, with whether they write, as far as they are static: R46, R142, R156, R160. -/
def GEnv.accesses (e : GEnv) (x : GSim) (i : Instr) : List (Nat × Nat × Bool) :=
  if !e.knows x i 1 then []
  else
  let s := e.at x
  let c := s.core e.n
  let of (write : Bool) (l : List (Nat × Nat)) : List (Nat × Nat × Bool) := l.map (fun a => (a.1, a.2, write))
  match i with
  | .dmaGet d => of false ((s.dmaDesc e.n d true).farAccesses true)
  | .dmaPut d => of true ((s.dmaDesc e.n d false).farAccesses false)
  | .spPut b => [(b.remote i c, b.bytes, true)]
  | .spGet b => [(b.remote i c, b.bytes, false)]
  | .spSig b | .spWord b => [(b.remote i c, 8, true)]
  | .ribPut b => (s.ribTargets e.n b).map (fun m => (winBase + m * 0x1000000 + b.ribDst c, 64, true))
  | .cableRun d => match s.parseCable e.n (d.descAddr c) with
    | some k => (if k.has 0 then of false (k.load.farAccesses true) else []) ++ (if k.has 3 then of true (k.store.farAccesses false) else [])
    | none => []
  | _ => []

/-- The spans of the core's own buffers that a slot uses, as far as they are static: R36, R163, R240. -/
def GEnv.uses (e : GEnv) (x : GSim) (i : Instr) : List (Nat × Nat) :=
  let s := e.at x
  e.touched x i ++ e.delivers x i ++
  (match i with
   | .cableRun d => match s.parseCable e.n (d.descAddr (s.core e.n)) with
     | some k => k.ownedBytes
     | none => []
   | _ => [])

/-- Whether an access is one that the decoders admit, and, in a core's buffers, lies in what the image reserves there: R140, R141, R232,
R235, R240. -/
def GEnv.admits (e : GEnv) (x : GSim) (a len : Nat) (write : Bool) : Bool :=
  ((e.at x).accessBreach e.n a len write).isNone &&
  match localPlace (a % 2 ^ 56) with
  | .win m off => decide (bufEnd ≤ off) || e.recs.any (fun r => r.core == m && r.holds off (off + len))
  | _ => true

/-- What one side of a slot's accesses breaches, as its rule and the offset or address, as far as that side is static; a block-scaled X of a
checkerboard read stands in the row itself: R24, R34, R46, R61, R65, R113, R133, R142, R147 to R150, R156, R200, R237. -/
def GEnv.sideBreach (e : GEnv) (x : GSim) (i : Instr) (side : Nat) : Option (Nat × Nat) :=
  let s := e.at x
  let c := s.core e.n
  let part (b : Option (Nat × Nat)) : Option (Nat × Nat) := if e.knows x i side then b else none
  let known (r : BitVec 5) : Bool := (x.scalar r true).isSome
  match i, side with
  | .sbDef k, 0 => if known k.sa && known k.sb then s.checkBreach e.n i else none
  | .sLd k, 0 | .sSt k, 0 => part (if k.addr c % 8 = 0 ∧ inBuf (k.addr c) 8 then none else some (24, k.addr c))
  | .mmPass m, 0 | .mmDiag m, 0 => if m.xCb && isBS m.xFmt then some (133, if known m.xa then m.xBase c else 0) else part (m.xBreach c)
  | .mmPass m, 1 => part (m.sBreach c false)
  | .mmDiag m, 1 => part (m.sBreach c true)
  | .mmTile m, 0 => part (m.tileX c (parseTile (s.chkRead e.n (m.tileAddr c) 64)))
  | .mmTile m, 1 => part (m.tileS c (parseTile (s.chkRead e.n (m.tileAddr c) 64)))
  | .mmTile m, 2 => part (m.tileO c (parseTile (s.chkRead e.n (m.tileAddr c) 64)))
  | .mmDrain m, 0 => part (m.drainBreach c)
  | .mmMon m, 0 => part (m.monBreach c)
  | .vLd v, 0 | .vSt v, 0 =>
    let some_ := (!needsVl i || (x.value vlKey true).isSome) && decide (v.memCount c ≠ 0)
    (part (v.memBreach c)).or (((if some_ && known v.ab then (v.baseBreach c).or (v.blockBreach c) else none)).or
      (if some_ && known v.st then (v.strideBreach c).map (fun z => (z.1, if known v.ab then z.2 else 0)) else none))
  | .ribPut b, 0 | .bMove b, 0 | .spPut b, 0 | .spGet b, 0 => part (b.near i c)
  | .ribPut b, 1 | .bMove b, 1 | .spPut b, 1 | .spGet b, 1 | .spSig b, 1 | .spWord b, 1 => part (s.shortFar e.n i b)
  | .dmaGet d, 0 => part (s.dmaNear e.n (s.dmaDesc e.n d true) true)
  | .dmaPut d, 0 => part (s.dmaNear e.n (s.dmaDesc e.n d false) false)
  | .dmaGet d, 1 => part (s.dmaFar e.n d.q.toNat (s.dmaDesc e.n d true) true)
  | .dmaPut d, 1 => part (s.dmaFar e.n d.q.toNat (s.dmaDesc e.n d false) false)
  | .strandSend d, 0 => part (s.strandBreach e.n d)
  | _, _ => none

/-- RANGE_DEF, ADDRESS, QUEUE_CLASS, DESCRIPTOR, ORDERED_PATH, EPILOGUE, SPILL_UNSAFE and OPTIMISTIC of a slot, as far as its descriptor
and its registers are static: R24, R34, R46, R61, R65, R68, R70, R74, R113, R133, R142 to R150, R156, R159 to R162, R200, R235, R237. -/
def GEnv.breaches (e : GEnv) (x : GSim) (num : Nat) (i : Instr) : List Refuse :=
  if !e.descPlaced x i then [e.refuse x 0x0406 num (((descReg i).map (fun _ => e.descOff x i)).getD 0)]
  else if !e.descFixed x i then []
  else match e.described x i with
    | some (code, d, epi) => [e.refuse x code (if epi then 7 else num) d]
    | none =>
      let bad := (List.range 3).filterMap (e.sideBreach x i)
      if !bad.isEmpty then bad.map (fun z => match z.1, i with
        | 34, .sbDef k => e.refuse x 0x0203 num k.x.toNat
        | 142, .dmaGet d | 142, .dmaPut d => e.refuse x 0x0407 num d.q.toNat
        | 150, _ => e.refuse x 0x0409 num 0
        | _, _ => e.refuse x 0x0406 num z.2)
      else
        ((e.uses x i).filter (fun a => a.2 != 0 && !e.core.rcd.holds a.1 (a.1 + a.2))).map (fun a => e.refuse x 0x0406 num a.1) ++
        ((e.accesses x i).filter (fun a => !e.admits x a.1 a.2.1 a.2.2)).map (fun a => e.refuse x 0x0406 num a.1)

/-- MSG_SIZE: R203. -/
def GEnv.messages (e : GEnv) (x : GSim) (num : Nat) (i : Instr) : List Refuse :=
  match i with
  | .strandSend d =>
    let ep := e.core.rcd.sends.getD d.ep {}
    let size := ((e.recs.find? (fun r => r.core == ep.tCore)).map (fun r => (r.skeins.getD ep.tSkein {}).size)).getD 0
    need (decide (64 * d.granules ≤ size / 2)) (e.refuse x 0x040F num d.granules)
  | _ => []

/-! ### Cables -/

/-- CABLE_OWNED: a row meets what a cable owns, or runs another, without a wait on its done_tally between (R163). -/
def GEnv.owned (e : GEnv) (x : GSim) (num : Nat) (i : Instr) : List Refuse :=
  match x.cable with
  | none => []
  | some k => match k.head with
    | none => []
    | some h => need (!({ (e.at x).core e.n with cable := some h } : Core).cableBreach i) (e.refuse x 0x040A num k.row)

/-- What an epilogue operation reads and writes of a chunk: its base and bytes, when it is a store and when a load (R162). -/
def epiSpan (k : Cable) (i : Instr) : Option (Bool × Nat × Nat × Nat) :=
  let span (v : VSlot) : Nat × Nat × Nat :=
    let w := tyWidth v.ty
    (v.ab.toNat, 64 * v.off, (if v.am = 3 then 1 else min k.epiVl (2048 / w)) * (w / 8))
  match i with
  | .vLd v => some (false, span v)
  | .vSt v => some (true, span v)
  | _ => none

/-- Whether operation `i`, `d` cycles after operation `p`, meets it too early: it reads what `p` has yet to write, or both write at once
(R26, R28, R162). -/
def epiClash (k : Cable) (p i : Instr) (d : Nat) : Bool :=
  let w := p.writeKeys.filter (fun z => z != vlKey)
  w.any (fun z => i.readKeys.any (fun r => r.1 == z) && decide (d < p.latency)) ||
  w.any (fun z => i.writeKeys.contains z && p.latency == d + i.latency) ||
  (match epiSpan k p, epiSpan k i with
   | some (true, a), some (store, b) => a.1 == b.1 && overlaps a.2.1 a.2.2 b.2.1 b.2.2 && !store && decide (d < 4)
   | _, _ => false)

/-- EPILOGUE: hazards within a run of the program and between runs, which follow with no gap; the detail is the later operation (R162,
R238). -/
def GEnv.epilogue (e : GEnv) (x : GSim) (i : Instr) : List Refuse :=
  match i with
  | .cableRun d =>
    if !e.placed x i then []
    else match (e.at x).parseCable e.n (d.descAddr ((e.at x).core e.n)) with
      | none => []
      | some k =>
        if !k.has 2 then []
        else
          let n := k.prog.length
          k.prog.zipIdx.flatMap (fun p => k.prog.zipIdx.flatMap (fun q => (List.range 16).flatMap (fun m =>
            if m * n + q.2 ≤ p.2 then []
            else need (!epiClash k p.1 q.1 (m * n + q.2 - p.2)) (e.refuse x 0x040B 7 q.2 (if m = 0 then 0 else 2)))))
  | _ => []

/-! ### Pips -/

/-- What a core is charged in the issue cycle of a row: `y` is the point once its slots have entered (R289, R291). A matrix row without a
g, alone, is charged the least; what is run-time of a tile or a cable is charged the most that it may be (entry 36). -/
def GEnv.cost (e : GEnv) (x y : GSim) : Nat :=
  let cable := x.cable.or y.cable
  let has (stage : Nat) : Bool := cable.any (fun k => k.has stage)
  let gs := y.busy.map (fun b => gPips (b.1.getD 0)) ++ y.tiles.map (fun _ => gPips 2) ++
    (cable.toList.filter (fun k => k.has 1)).map (fun k => gPips (k.g.getD 2))
  let used (p : Bool) : Bool := y.ports.any (fun z => z.pipe == p) || (has 2 && cable.any (fun k => k.head.any (fun h => h.pipe1 == p)))
  let pipes := (if used false then 1 else 0) + (if used true then 1 else 0) + (if cable.any (fun k => k.head.isNone) then 1 else 0)
  maxN gs + 6 * min 2 pipes + (e.cmds x).countP (fun s => s.1 == 5 || s.1 == 6) + (if has 0 || has 3 then 2 else 0)

/-- ROW_PIPS: R291. -/
def GEnv.pips (e : GEnv) (x : GSim) : List Refuse :=
  let y := (e.cmds x).foldl (fun y s => e.slot x y s.2) x
  let pips := ((e.core.seg x.k).row x.row).pips
  need (decide (e.cost x y ≤ pips ∧ pips ≤ e.core.rcd.pipAllot)) (e.refuse x 0x0410 0 pips)

/-! ### A point -/

/-- What is refused at a point: R240. -/
def GEnv.pointRefusals (e : GEnv) (x : GSim) : List Refuse :=
  let cmds := e.cmds x
  let reads := cmds.flatMap (fun s => match e.matrix x s.2 with
    | some t => if !x.tile then e.matrixReads x ((e.at x).core e.n) t s.2 else []
    | none => [])
  cmds.flatMap (fun s =>
    let before := (cmds.takeWhile (fun z => z.1 != s.1)).flatMap (fun z => e.stores x z.2)
    e.earlyReads x s.1 s.2 ++ e.collisions x before s.1 s.2 ++ e.spanWrites x (x.spans ++ reads) s.1 s.2 ++ e.portBusy x s.1 s.2 ++
    e.depth x s.1 s.2 ++ e.breaches x s.1 s.2 ++ e.messages x s.1 s.2 ++ e.owned x s.1 s.2 ++ e.epilogue x s.2) ++ e.pips x

/-! ### Between cores -/

/-- A rib write that the schedule fixes: who makes it, where it lands, and in which cycle after cast-on it issues (R47). -/
structure GRib where
  core : Nat
  target : Nat
  off : Nat
  issue : Nat
  row : Nat
  deriving DecidableEq

/-- The rib writes at the points of a core. -/
def GEnv.ribs (e : GEnv) (xs : List GSim) : List GRib :=
  (xs.flatMap (fun x => (e.cmds x).flatMap (fun s => match s.2, x.clock with
    | .ribPut b, some t =>
      if e.knows x s.2 1 then ((e.at x).ribTargets e.n b).map (fun m =>
        { core := e.n, target := m, off := b.ribDst ((e.at x).core e.n), issue := t, row := x.row }) else []
    | _, _ => []))).eraseDups

/-- What a gang's rib writes do to a neighbour's row: it reads them before the third cycle, both write at once, or a pass has yet to read
the bytes (R26, R28, R47, R62). -/
def GEnv.ribRefusals (e : GEnv) (ribs : List GRib) (x : GSim) : List Refuse :=
  match x.clock with
  | none => []
  | some u =>
    let context (r : GRib) : Nat := if x.turnedAt.any (fun t => decide (r.issue < t)) then 2 else 0
    (e.cmds x).flatMap (fun s => (ribs.filter (fun r => r.target == e.n)).flatMap (fun r =>
      let reads := (e.loads x s.2).filter (fun a => overlaps a.1 a.2.1 r.off 64)
      (reads.filter (fun a => decide (r.issue < u ∧ u + a.2.2 < r.issue + 7))).map (fun a =>
        e.refuse x 0x0401 s.1 (earlyDetail r.row (7 - a.2.2) (u - r.issue)) (context r)) ++
      (reads.filter (fun a => decide (u ≤ r.issue ∧ 4 ≤ a.2.2 ∧ r.issue + 7 ≤ u + a.2.2) && (opM s.2).isSome)).map (fun a =>
        e.refuse x 0x0405 s.1 (max a.1 r.off) (context r)) ++
      ((e.stores x s.2).filter (fun a => overlaps a.1 a.2.1 r.off 64 && u + a.2.2 == r.issue + 3)).map (fun a =>
        e.refuse x 0x0402 s.1 (max a.1 r.off) (context r))))

/-- Two neighbours write the same bytes of a core by rib in one cycle: R26, R47. The higher one's row is refused. -/
def GEnv.ribMeets (e : GEnv) (ribs : List GRib) (x : GSim) : List Refuse :=
  (e.cmds x).flatMap (fun s => match s.2, x.clock with
    | .ribPut _, some u =>
      ((ribs.filter (fun q => q.core == e.n && q.issue == u && q.row == x.row)).flatMap (fun q =>
        (ribs.filter (fun r => decide (r.core < e.n) && r.target == q.target && r.issue == u && overlaps q.off 64 r.off 64)).map (fun r =>
          e.refuse x 0x0402 s.1 (max q.off r.off))))
    | _, _ => [])

/-- A release that the image fixes: the tally, the scope of its cover, its own writes, and the outbound writes before it (R182, R183,
R448). -/
structure GRelease where
  core : Nat
  owner : Nat
  tally : Nat
  scope : Option Nat
  /-- the ordered path its add takes: R183, R186 -/
  path : Nat := 0
  own : List GStore := []
  wrote : List GStore := []
  where_ : Refuse
  deriving DecidableEq

/-- The releases of a row, those of a cable's stages and the end of a strand message among them: R156, R159, R175, R183, R206, R448. -/
def GEnv.releases (e : GEnv) (x : GSim) : List GRelease :=
  let s := e.at x
  let c := s.core e.n
  let make (num : Nat) (t : Option (Nat × Nat)) (scope : Option Nat) (path : Nat) (own : List GStore) : List GRelease :=
    (t.map (fun t => { core := e.n, owner := t.1, tally := t.2, scope := scope, path := path, own := own, wrote := x.wrote ++ own,
                       where_ := e.refuse x 0x040E num (t.2 + 256 * t.1) : GRelease })).toList
  let ownStores (l : List (Nat × Nat)) : List GStore := l.map (fun a => { addr := winBase + e.n * 0x1000000 + a.1, len := a.2 })
  let desc (num : Nat) (d : DSlot) (isGet : Bool) (own : List GStore) : List GRelease :=
    let k := s.dmaDesc e.n d isGet
    if k.sigEn then make num (tallyAt (localPlace (k.signalAddr e.n isGet % 2 ^ 56))) (if k.ordered then none else some k.scope)
      (if k.ordered then 2 + d.q.toNat else 0) own else []
  (e.cmds x).flatMap (fun z => match z.2 with
    | .tallySig k => make z.1 (some (k.owner, k.x.toNat)) (some k.scope) 0 []
    | .spSig b => if e.knows x z.2 1 then make z.1 (tallyAt (localPlace (c.chk b.dst % 2 ^ 56))) (some (b.bits 5 4)) 1 [] else []
    | .dmaPut d => if e.knows x z.2 1 then desc z.1 d false (e.outbound x z.2) else []
    | .dmaGet d => if e.knows x z.2 0 then desc z.1 d true (ownStores (s.delivers e.n z.2)) else []
    | .strandSend d => if d.bits 27 27 = 1 then make z.1 (some (e.n, d.bits 37 32)) (some 0) 0 [] else []
    | .cableRun d => match if e.placed x z.2 then s.parseCable e.n (d.descAddr c) else none with
      | some k =>
        let stage (desc : Desc) (isGet : Bool) (queue : Nat) (own : List GStore) : List GRelease :=
          if desc.sigEn then make z.1 (tallyAt (localPlace (desc.signalAddr e.n isGet % 2 ^ 56))) (if desc.ordered then none else some desc.scope)
            (if desc.ordered then 2 + queue else 0) own else []
        make z.1 (some (e.n, k.doneTally)) (some 0) 0 (e.outbound x z.2) ++
          (if k.has 0 then stage k.load true (field k.queues 1 0) (ownStores [(k.ringA.base, k.ringA.slot * k.ringA.slots)]) else []) ++
          (if k.has 3 then stage k.store false (field k.queues 3 2) (e.outbound x z.2) else [])
      | none => []
    | _ => [])

/-- A read of the image with the acquires that every path to it passes: R187. -/
structure GLoad where
  core : Nat
  addr : Nat
  len : Nat
  acquired : List (Nat × Nat × Nat)
  deriving DecidableEq

/-- The static reads of a core's rows: R187. -/
def GEnv.reads (e : GEnv) (xs : List GSim) : List GLoad :=
  (xs.flatMap (fun x =>
    let always := x.acquired.filter (fun a => xs.all (fun y => y.k != x.k || y.row != x.row || y.acquired.contains a))
    (e.cmds x).flatMap (fun z =>
      (e.loads x z.2).map (fun a => { core := e.n, addr := winBase + e.n * 0x1000000 + a.1, len := a.2.1, acquired := always : GLoad }) ++
      (match z.2 with
       | .dmaGet _ | .spGet _ | .cableRun _ => ((e.accesses x z.2).filter (fun a => !a.2.2)).map (fun a =>
           { core := e.n, addr := a.1, len := a.2.1, acquired := always : GLoad })
       | _ => [])))).eraseDups

/-- Whether a release covers a write, those that its own ordered path brings to the tally's window among them: R182, R183, R186. -/
def GRelease.covers (r : GRelease) (w : GStore) : Bool :=
  r.own.contains w || (match r.scope with
    | some k => inRegion r.core k w.addr
    | none => false) ||
  (r.path != 0 && r.path == w.path && w.addr / 0x1000000 == (winBase + r.owner * 0x1000000) / 0x1000000)

/-- Whether a release and an acquire of a read order a write before the read: R185. -/
def GRelease.orders (r : GRelease) (d : GLoad) (w : GStore) : Bool :=
  r.wrote.contains w && r.covers w && d.acquired.any (fun a => a.1 == r.owner && a.2.1 == r.tally && inRegion d.core a.2.2 w.addr)

/-- SCOPE_MISMATCH: a release and an acquire of one tally, between a write and a read of the same bytes, that no pair orders (R185 to
R187). -/
def scopeRefusals (rs : List GRelease) (ds : List GLoad) : List Refuse :=
  ds.flatMap (fun d => (rs.filter (fun r => d.acquired.any (fun a => a.1 == r.owner && a.2.1 == r.tally))).flatMap (fun r =>
    if (r.wrote.filter (fun w => r.core != d.core && overlaps w.addr w.len d.addr d.len)).any (fun w =>
        !rs.any (fun q => q.core == r.core && q.orders d w)) then [r.where_] else []))

/-! ### Phase D -/

/-- What the cores' simulations show against an image; the limit of a load stands once, with the rows of all its cores: R237 to R242. -/
def refusalsOf (runs : List (GEnv × GRun)) : List Refuse :=
  let ribs := runs.flatMap (fun r => r.1.ribs r.2.points)
  let reads := runs.flatMap (fun r => r.1.reads r.2.points)
  let releases := (runs.flatMap (fun r => r.2.points.flatMap r.1.releases)).eraseDups
  (runs.flatMap (fun r =>
      r.2.points.flatMap (fun x => r.1.pointRefusals x ++ r.1.ribRefusals ribs x ++ r.1.ribMeets ribs x)) ++
    scopeRefusals releases reads ++
    (if runs.any (fun r => r.2.stopped) then [{ code := 0x04FF, detail := sumN (runs.map (fun r => r.2.points.length)) % 2 ^ 32 : Refuse }]
     else [])).eraseDups

/-- Phase D: R237 to R242. -/
def State.phaseD (s : State) (b : List Byte) : List Refuse :=
  refusalsOf (explored verifyLimit (s.gEnvs b (s.settleKnow b (2 ^ 64) {})))

end Sys2Proof.Machine
end

