-- ==== Sys2Proof/Machine/Loader.lean ====
section
/-!
DEFINITION. The loader (R49 to R51, R234 to R236, R240 to R243, R246, R250): phase E, the verdict on a load, its commit, and the
writes of instruction banks.
-/

namespace Sys2Proof.Machine

/-! ### Phase E: fit -/

/-- Bandwidth that all cores share, in 1/1024 token per fabric cycle: R155. -/
def maxRate : Nat := 209715

/-- The images of the resident set, one for each hash: a DEBUG load and a production load of one image count as one (R246). -/
def State.distinctImages (s : State) : List Pattern :=
  s.patterns.foldl (fun a p => if a.any (fun q => q.hash == p.hash) then a else a ++ [p]) []

/-- Sum of the rates of an image's cores: R155. -/
def imgRate (b : List Byte) : Nat := sumN ((coreRecs b).map (fun r => r.bwRate))

/-- The cores of which two images reserve bytes in common: R243. -/
def buffersMeet (a b : List Byte) : List Nat :=
  ((coreRecs a).filter (fun r => (coreRecs b).any (fun q => r.core == q.core && r.spans.any (fun x => q.spans.any (fun y =>
    overlaps x.1 x.2 y.1 y.2))))).map (fun r => r.core)

/-- Whether two images name HBM in common: R243. -/
def hbmMeets (a b : List Byte) : Bool :=
  (manifestOf a).hbm.any (fun x => (manifestOf b).hbm.any (fun y => overlaps x.base x.len y.base y.len))

/-- Phase E, by code, with the core where one applies: R239, R243. -/
def State.phaseE (s : State) (b : List Byte) (debug : Bool) : List (Nat × Nat) :=
  let m := manifestOf b
  let others := s.distinctImages.filter (fun p => p.hash != imgHash b)
  let imgs := s.images ++ [b]
  let fail (bad : Bool) (code : Nat) : List (Nat × Nat) := if bad then [(code, 0)] else []
  let cores (cs : List Nat) (code : Nat) : List (Nat × Nat) := cs.eraseDups.map (fun c => (code, c))
  fail (decide (16 ≤ s.patterns.length)) 0x0501 ++ cores (s.unfitCores imgs b) 0x0502 ++
  cores (others.flatMap (fun p => buffersMeet b p.image)) 0x0503 ++ fail (others.any (fun p => hbmMeets b p.image)) 0x0504 ++
  fail (decide (maxRate < sumN (others.map (fun p => imgRate p.image)) + imgRate b)) 0x0505 ++
  fail (decide (s.power.cap < s.fitTotal imgs)) 0x0506 ++ fail (m.modules != s.config.n) 0x0507 ++
  fail (!debug && m.twin != 0 && !s.twinLinked) 0x0508 ++ cores (if !debug && m.dual then s.singleCores imgs b else []) 0x0509 ++
  fail (decide (Config.patternStore < sumN (s.images.map List.length) + b.length)) 0x050A

/-! ### The verdict -/

/-- Whether LAX turns a refusal into a warning: R246. -/
def laxCode (code : Nat) : Bool := (0x0401 ≤ code && code ≤ 0x0405) || code == 0x040E

/-- The endpoints of the binding graph that an endpoint leads to, as module and core: R241. -/
def bindingNext (recs : List CoreRec) (n : Nat) : List (Nat × Nat) :=
  match recs.find? (fun r => r.core == n) with
  | some r => (r.sends.filter (fun x => x.enable)).map (fun x => (x.tModule, x.tCore))
  | none => []

/-- What the bindings reach, one more step each time. -/
def bindingReach (recs : List CoreRec) : Nat → List (Nat × Nat) → List (Nat × Nat)
  | 0, xs => xs
  | f + 1, xs =>
    bindingReach recs f ((xs.flatMap (fun x => bindingNext recs x.2)).foldl (fun a y => if a.contains y then a else a ++ [y]) xs)

/-- The lowest core on a cycle of the binding graph: R241. -/
def bindingCycle (recs : List CoreRec) : Option Nat :=
  let targets := recs.flatMap (fun r => bindingNext recs r.core)
  let n := targets.length
  ((List.range 256).filter (fun c => targets.any (fun t => t.2 == c && (bindingReach recs n (bindingNext recs c)).contains t))).head?

/-- The warnings of a load: R241, R246. `lax`: the refusals of phase D that LAX turned into warnings. -/
def warningsOf (b : List Byte) (debug : Bool) (lax : List Refuse) : List Refuse :=
  let m := manifestOf b
  (match bindingCycle (coreRecs b) with
   | some c => [manRefuse 0xF001 0 c]
   | none => []) ++
  (if m.optSpill then [manRefuse 0xF002 0 0] else []) ++ lax.map (fun r => { r with code := 0xF003, detail := r.code }) ++
  (if debug && m.dual then [manRefuse 0xF004 0 (imgMan b + 3)] else []) ++ (if debug && m.twin != 0 then [manRefuse 0xF004 0 (imgMan b + 4)] else [])

/-- How a load ends: refused with a status and a record, or accepted with its warning records. -/
inductive Verdict where
  | refuse (status : Nat) (record : List Byte)
  | accept (warnings : List Byte) (count : Nat)
  deriving DecidableEq, Repr

/-- The refusals of a phase as a verdict, if there are any: R234, R239. -/
def verdictOf (status : Nat) (rs : List Refuse) : Option Verdict := (firstRefusal rs).map (fun r => .refuse status (r.record rs.length))

/-- The five phases in order; one that finds a refusal ends the load: R234, R240 to R243, R246. -/
def State.verify (s : State) (b : List Byte) (debug lax : Bool) : Verdict :=
  match verdictOf stRefusedVerify (s.phaseA b) with
  | some v => v
  | none => match verdictOf stRefusedVerify (s.phaseB b) with
    | some v => v
    | none => match verdictOf stRefusedVerify (phaseC b debug) with
      | some v => v
      | none =>
        let d := s.phaseD b
        match verdictOf stRefusedVerify (d.filter (fun r => !(debug && lax && laxCode r.code))) with
        | some v => v
        | none => match verdictOf stRefusedFit ((s.phaseE b debug).map (fun c => { code := c.1, context := 6, core := c.2 })) with
          | some v => v
          | none =>
            let ws := (warningsOf b debug (d.filter (fun r => debug && lax && laxCode r.code))).take 16
            .accept (ws.flatMap (fun w => w.record 0)) ws.length

/-! ### Commit -/

/-- Every weight object that this module places lies at its address: R234. -/
def State.placeWeights (s : State) (b : List Byte) : State :=
  ((wrefs b).filter (fun w => w.placesOn s.config.module)).foldl (fun s w =>
    { s with hbm := Memory.writeN s.hbm w.addr ((s.loaderObject w.hash).getD []) }) s

/-- Whether a channel to which the loader writes accepts no access: R274, R277. -/
def State.weightsShut (s : State) (b : List Byte) : Bool :=
  ((wrefs b).filter (fun w => w.placesOn s.config.module)).any (fun w => s.rangeShut w.addr w.len)

/-- A verified load becomes a resident pattern: R234, R246, R250. -/
def State.commit (s : State) (l : Load) (warnings : List Byte) : State :=
  let b := l.image
  let h := imgHash b
  let debug := l.options.testBit 0
  let twinLoad := s.patterns.find? (fun p => p.hash == h)
  let p : Pattern := { handle := s.nextHandle, image := b, hash := h, weights := imgWeights b, debug := debug, lax := l.options.testBit 1,
                       byName := l.options.testBit 2, batchMax := l.batchMax, windowUs := l.windowUs,
                       stateHead := (twinLoad.map (fun q => q.stateHead)).getD 0, placed := twinLoad.any (fun q => q.placed),
                       stateLost := twinLoad.any (fun q => q.stateLost), warnings := warnings }
  let s : State := { s.placeWeights b with
    patterns := s.patterns ++ [p], nextHandle := s.nextHandle + 1, power := { s.power with fitFormed := true } }
  if debug then
    ({ s with debug := s.debug ++ [{ handle := p.handle, task := 0 }] } : State).emit 0x0071 srcLoader (leBytes 8 p.handle ++ hashBytes h)
  else s

/-- The reply to a load reaches its session; a staged entry that fails is recorded: R363, R398. -/
def State.answerLoad (s : State) (l : Load) (status : Nat) (params : List Byte) : State :=
  match l.reply with
  | some (cid, tag) =>
    let seq := (s.session cid).bind (fun x => (x.unanswered.find? (fun u => u.1 == tag)).map (fun u => u.2))
    s.reply cid 0x20 tag seq status params
  | none => match l.staged with
    | some e => if status = stOk then s else s.stagedFail e params
    | none => s

/-- The resident pattern that a load names again, with the same image and options: R234. An UNFIT one is loaded no more (R378). -/
def State.resident (s : State) (l : Load) : Option Pattern :=
  s.patterns.find? (fun p => p.hash == imgHash l.image && p.debug == l.options.testBit 0 && p.lax == l.options.testBit 1 && !p.unfit)

/-- Parameters of an accepted load's reply: R363. -/
def loadReply (handle count : Nat) (warnings : List Byte) : List Byte := beBytes 8 handle ++ beBytes 2 count ++ zeros 6 ++ warnings

/-- The objects that a load refers to and no own cartridge has: R365. -/
def State.missing (s : State) (b : List Byte) : List Hash :=
  (((wrefs b).map (fun w => w.hash)).filter (fun h => (s.object h).isNone)).eraseDups

/-- Whether the loader has still to fetch objects of a load from the peers' cartridges: R365. -/
def State.mustAsk (s : State) (l : Load) : Bool :=
  !l.asked && s.config.formed && decide (1 < s.config.n) && !(s.missing l.image).isEmpty

/-- The loader asks the peers for the objects that are missing here; their bytes come by firmware messages (R365; entry 44). -/
def State.askPeers (s : State) (l : Load) (rest : List Load) : State :=
  (s.missing l.image).foldl (fun s h => s.fwTell 9 0 (hashBytes h)) { s with loads := { l with asked := true } :: rest, peerObjects := [] }

/-- The loader's oldest load runs to its end, on every module: a refusal that another module has found ends it, and where objects are
missing here the peers are asked first (R234, R363, R365). It waits for the channels that the weights go to (R277). -/
def execPatternLoad (s : State) : Out :=
  match s.loads with
  | [] => done s s
  | l :: rest =>
    let s' : State := { s with loads := rest, peerObjects := [] }
    if s.weightsShut l.image then done s s
    else if s.mustAsk l then done s (s.askPeers l rest)
    else match s.resident l with
    | some p =>
      let s' := s'.modPattern p.handle (fun p => { p with batchMax := l.batchMax, windowUs := l.windowUs })
      done s (s'.answerLoad l stOk (loadReply p.handle (p.warnings.length / 16) p.warnings))
    | none => match l.peerRefusal, s.verify l.image (l.options.testBit 0) (l.options.testBit 1) with
      | some (st, record), _ | none, .refuse st record => done s (s'.answerLoad l st record)
      | none, .accept ws n =>
        done s (({ ({ s with loads := rest } : State).commit l ws with peerObjects := [] } : State).answerLoad l stOk
          (loadReply s.nextHandle n ws))

/-! ### Instruction banks after cast-on -/

/-- A loader write that reaches the active bank is dropped, counted, recorded, and reported in its completion: R50. DESIGN CHOICE: a
bank load that meets the active bank counts and records one write, with row 0 (entry 54). -/
def State.bankRefused (s : State) (n bank : Nat) : State :=
  ((s.modP n (fun x => { x with refused := satAdd 65535 x.refused 1 })).modCore n (fun c => { c with loadRefused := true })).emit 0x0070
    (s.physOf n) (leBytes 1 bank ++ zeros 1 ++ leBytes 2 0)

/-- The loader writes a segment of the flip list into a bank; a write that reaches the active bank is refused and dropped (R50, R236). -/
def execIbankLoad (core : CoreId) (bank : BitVec 1) (segment : Nat) (s : State) : Out :=
  let n := core.toNat
  let c := s.core n
  match (c.task.bind s.task).bind (fun t => s.pattern t.handle), c.flipList with
  | some p, k :: rest =>
    if bank.toNat = c.bank then done s (s.bankRefused n bank.toNat)
    else if k ≠ segment ∨ !c.bankDue p n then done s s
    else
      done s ((s.modP n (fun x => x.writeBank bank.toNat p.image (segAt p.image k))).modCore n (fun c =>
        { c with flipList := rest, loadDone := true, loadRefused := false, segs := mset c.segs bank.toNat k }))
  | some _, [] => if bank.toNat = c.bank then done s (s.bankRefused n bank.toNat) else done s s
  | none, _ => done s s

/-- Every write of a bank load has been acknowledged: the loader signals TALLY_63 by 1 (R51, R236). -/
def execBankReadySignal (core : CoreId) (s : State) : Out :=
  let n := core.toNat
  if (s.core n).loadDone then done s ((s.modCore n (fun c => { c with loadDone := false })).addTally n 63 1) else done s s

end Sys2Proof.Machine
end

