-- ==== Sys2Proof/Machine/Power.lean ====
section
/-!
DEFINITION. Pips that cores lend and take back (R292 to R297), core and module power states (R303, R307 to R309), and the rails:
auxiliary power, 48 V, PWR_EN, the watchdog (R380, R397 to R400, R415, R431, R433).
-/

namespace Sys2Proof.Machine

/-! ### Lending -/

/-- A core's wait count has reached 4,096: it lends what it does not keep to its panel's pool (R294). -/
def execLend (core : CoreId) (s : State) : Out :=
  let n := core.toNat
  let c := s.core n
  if !s.panelRuns || c.lent != 0 || c.wait < 4096 || c.allot ≤ c.keepPips then done s s
  else done s ((s.modCore n (fun c => { c with lends := (c.lends + 1) % 2 ^ 32 })).lendPips n)

/-- Whether a lending core has requested its pips back, or does so now: no late hold freezes its check stage, whose row finds no hold cause
but PIPS (R41, R293, R296). -/
def State.wantsPips (s : State) (n : Nat) : Bool :=
  let c := s.core n
  c.lent != 0 && (c.reclaiming || !s.lateIn n && (match c.held with
    | some h =>
      let x : Issue := if h.fetched then (s.checkRow n 0).getD {} else { row := h.row, pips := h.pips, tag := h.tag }
      (s.checkHolds n x).all (fun x => x.1 == 0xA)
    | none => false))

/-- The requests that one batch grants: whole, in ascending core number, at most 512 pips: R296. -/
def grantBatch (left : Nat) : List (Nat × Nat) → List Nat
  | [] => []
  | r :: rs => if r.2 ≤ left then r.1 :: grantBatch (left - r.2) rs else []

/-- A core has its pips back: R293, R296. -/
def State.grantPips (s : State) (n : Nat) : State :=
  let l := (s.core n).lent
  (s.modCore n (fun c => { c with lent := 0, keep := 0, wait := 0, reclaiming := false })).modPanel (n / 32)
    (fun x => { x with pool := x.pool - l })

/-- The panel power unit decides a batch; where the cost of the panel's code then exceeds its pool, a reclaim stretch begins (R296,
R297). -/
def execReclaimBatch (panel : PanelId) (s : State) : Out :=
  let p := panel.toNat
  let want := ((List.range 32).map (fun i => 32 * p + i)).filter s.wantsPips
  if want.isEmpty then done s s
  else
    let s' := want.foldl (fun s n => s.modCore n (fun c => { c with reclaiming := true })) s
    let s' := (grantBatch 512 (want.map (fun n => (n, (s.core n).lent)))).foldl State.grantPips s'
    let s' := s'.modPanel p (fun x => { x with activeAllot := s'.activeAllot p })
    let x := s'.panel p
    if x.pool < raiseCost x.activeAllot (x.cur - 120) ∧ !x.reclaimStretch then
      done s (s'.modPanel p (fun x => { x with reclaimStretch := true, reclaims := satAdd (2 ^ 16 - 1) x.reclaims 1 }))
    else done s s'

/-! ### NAP, IDLE and STANDBY -/

/-- GT units without a running task after which a core may go to NAP, 1 ms: R307. -/
def napAfter : Nat := 2000000

/-- Whether a resident pattern reserves a physical core, and none of its logical cores has been without a task for 1 ms: R307. -/
def State.heldAwake (s : State) (p : Nat) : Bool :=
  (List.range 256).any (fun n => s.physOf n == p && s.patterns.any (fun q => q.man.coreSet.contains n) &&
    decide (s.clock.gt < (s.core n).freed + napAfter))

/-- Whether the firmware may put a physical core in NAP: it carries no running task, and it is a spare, no resident pattern reserves it, or
1 ms has passed without a task (R307). -/
def State.mayNap (s : State) (p : Nat) : Bool :=
  !(((s.taskOn p).bind s.task).any Task.live) && ((s.unit p).state == .spare || !s.heldAwake p)

/-- The power state of a physical core: NAP as the firmware put it, HOLD through a held turn up to the next issue, else ACTIVE (R307). -/
def State.corePower (s : State) (p : Nat) : CorePower :=
  if (s.ph p).nap then .nap else if (s.logicalOf p).any (fun n => (s.core n).turn.isSome) then .hold else .active

/-- The firmware puts a core in NAP: R307. -/
def execNapEntry (phys : PhysId) (s : State) : Out :=
  let p := phys.toNat
  if s.panelRuns && s.mayNap p then done s (s.modPh p (fun x => { x with nap := true })) else done s s

/-- Every core is in NAP: R308. -/
def State.napAll (s : State) : State := (List.range 288).foldl (fun s p => s.modPh p (fun x => { x with nap := true })) s

/-- No task has run or been queued for idle_ms: the module is IDLE (R308, R310). -/
def execIdleEntry (s : State) : Out :=
  if s.power.state ≠ .serve ∨ s.openCount ≠ 0 ∨ s.clock.gt < s.power.idleSince + s.power.idleMs * 2000000 then done s s
  else done s (s.napAll.enter .idle 1)

/-- Management asks for STANDBY: the module enters it once nothing runs or is queued (R308, R309). -/
def execStandbyRequest (s : State) : Out :=
  if !s.answers then done s s
  else match s.power.state with
    | .auxOnly => done s (s.respond [ccInvalid])
    | .standby => done s (s.respond [ccOk])
    | .serve | .idle => done s ((s.modPower (fun p => { p with standbyAsked := true, target := .standby })).respond [ccOk])

/-- The requested STANDBY begins: panels stop at 0.55 V, HBM goes into self-refresh, and rows recorded for repair are replaced (R308,
R309, R373). -/
def execStandbyEntry (s : State) : Out :=
  if !s.power.standbyAsked || s.power.state == .auxOnly || s.power.state == .standby || s.openCount != 0 then done s s
  else
    let s' := s.napAll.modPower (fun p => { p with standbyAsked := false })
    let s' := (List.range 8).foldl (fun s p => s.modPanel p (fun x => { x with vset := none })) s'
    let s' : State := { s' with channels := s'.channels.map (fun c => (c.1, { c.2 with repairs := [], softRows := [], isOpen := false, posted := [] })) }
    done s (s'.enter .standby 2)

/-! ### Rails -/

/-- Tasks that run: they end with the rails. -/
def State.liveCount (s : State) : Nat := (s.tasks.filter Task.live).length

/-- RAIL_LOST: 0 48 V, 1 PWR_EN, and the tasks stopped: R416. -/
def State.railLost (s : State) (which : Nat) : State := s.emit 0x0032 srcCPB (leBytes 1 which ++ leBytes 2 s.liveCount)

/-- 48 V goes out of its range: the rails go down, and the module is in AUX-ONLY (R309, R433). -/
def execMainRailLost (s : State) : Out :=
  if s.boot.rails = 0 then done s (s.modBoot (fun b => { b with main := false }))
  else done s (((s.railLost 0).powerDown 4).modBoot (fun b => { b with main := false }))

/-- PWR_EN is deasserted: the rails go down, and a thermal trip no longer holds the module off (R303, R309, R433). -/
def execPwrEnDeassert (s : State) : Out :=
  let off (s : State) : State := (s.modBoot (fun b => { b with pwrEn := false })).modPower (fun p => { p with tripped := false })
  if s.boot.rails = 0 then done s (off s) else done s (off ((s.railLost 1).powerDown 3))

/-- PWR_EN is asserted with 48 V valid: boot goes on from step 3, or restarts there, once steps 1 and 2 have passed; after a failed step
3 or a thermal trip only when PWR_EN has been cycled (R303, R397, R399, R400, R401, R431). -/
def execPwrEnAssert (facts : BootFacts) (s : State) : Out :=
  let b := s.boot
  let cycled := !b.pwrEn
  let ready := b.aux && b.rails == 0 && !s.power.tripped &&
    ((b.failStep == 0 && 2 ≤ b.step) || (cycled && (b.failStep == 3 || b.failStep == 4)))
  let s' := s.modBoot (fun b => { b with pwrEn := true })
  if !ready then done s s'
  else
    let again := b.step != 3 || b.failStep != 0
    let s' := s'.modBoot (fun b => { b with main := true, failStep := 0, boots := if again then (b.boots + 1) % 2 ^ 16 else b.boots })
    done s (s'.bootServe 3 facts).settle

/-- The trip limit of a sensor unit: 112 °C on a panel, 105 °C on an HBM stack: R303. -/
def tripLimit (unit : Nat) : Option Int :=
  if 288 ≤ unit ∧ unit < 296 then some 112 else if 296 ≤ unit ∧ unit < 808 then some 105 else none

/-- A sensor has read at or above its trip limit for 100 µs: the CPB removes every rail derived from 48 V (R303). -/
def execThermalTrip (unit : Nat) (temp : Int) (s : State) : Out :=
  if s.boot.rails = 0 ∨ !((tripLimit unit).any (fun l => decide (l ≤ temp))) then done s s
  else
    let s' := s.emit 0x0030 srcCPB (leBytes 2 unit ++ leBytes 1 (signed 8 temp))
    done s ((s'.modPower (fun p => { p with tripped := true })).powerDown 5)

/-- Auxiliary power fails: the scorebook closes its block within the hold-up, and what is not in the MRAM, the flash or the fuses is
lost (R254, R415). -/
def execAuxPowerLost (s : State) : Out :=
  if !s.boot.aux then done s s else done s (s.modBook (fun b => b.powerLoss s.clock.gt s.boot.noIdentity)).dead

/-- Auxiliary power arrives: boot step 1 latches the strap and reconstructs the identity key, the scorebook opens its next block with
POWER_ON, and step 2 verifies an image (R254, R397, R399, R401, R415). -/
def execAuxPowerOn (strap : BitVec 6) (step1Ok : Bool) (s : State) : Out :=
  if s.boot.aux then done s s
  else
    let s' := s.modBoot (fun b => { b with aux := true, boots := 1, step := 1, noIdentity := !step1Ok })
    let s' := s'.modConf (fun c => { c with module := (strap.extractLsb' 0 5).toNat, side := strap.getLsbD 5 })
    let s' := s'.modBook (fun b =>
      ((b.powerOn s.clock.gt (!step1Ok)).offer { code := 1, source := srcBook, data := leBytes 2 1 } s.clock.gt (!step1Ok)).flush)
    if step1Ok then done s s'.verifyImage else done s (s'.bootFail 1 srcCSB)

/-- The CP firmware has been silent for 100 ms: the module records it and resets itself (R380, R416). -/
def execWatchdog (cpCore : Byte) (checkpoint : BitVec 32) (s : State) : Out :=
  if !s.cpRuns then done s s
  else done s (s.emit 0x0014 srcCSB ([cpCore] ++ leBytes 4 checkpoint.toNat)).moduleReset

end Sys2Proof.Machine
end

