-- ==== Sys2Proof/Machine/Debug.lean ====
section
/-!
DEFINITION. DEBUG_ARM and DEBUG_READ (R247 to R249, R366): breakpoints, the referee's mode, resuming and stepping held cores, the referee
log and window reads.
-/

namespace Sys2Proof.Machine

/-! ### Debug entries -/

/-- The debug entry of a load that tasks without one of their own take: R366. -/
def State.debugFor (s : State) (h t : Nat) : Debug :=
  (((s.debug).find? (fun d => d.handle == h && d.task == t)).or ((s.debug).find? (fun d => d.handle == h && d.task == 0))).getD
    { handle := h, task := t }

/-- Put a debug entry in place; entries of single tasks come first, and those of tasks that are gone are dropped. -/
def State.putDebug (s : State) (d : Debug) : State :=
  let rest := (s.debug).filter (fun e => !(e.handle == d.handle && e.task == d.task) && (e.task == 0 || (s.task e.task).isSome))
  { s with debug := if d.task = 0 then rest ++ [d] else d :: rest }

/-- Tasks of a load that run now keep the entry they have: task 0 names every later task (R366). -/
def State.pinDebug (s : State) (h : Nat) : State :=
  (s.tasks.filter (fun k => k.handle == h && k.live)).foldl (fun s k => s.putDebug { s.debugFor h k.num with task := k.num }) s

/-- Change the debug entry of a task, or of every later task: R366. -/
def State.setDebug (s : State) (h t : Nat) (f : Debug → Debug) : State :=
  let s := if t = 0 then s.pinDebug h else s
  s.putDebug { f (s.debugFor h t) with handle := h, task := t }

/-! ### Breakpoints -/

/-- A breakpoint descriptor: R248. -/
def breakOf (b : List Byte) : Break :=
  { kind := leAt b 0 1, core := leAt b 1 1, sel := leAt b 2 1, oneShot := (leAt b 3 1) == 1, value := leAt b 4 8 }

/-- Whether a descriptor keeps R248: a kind of the table, its selector, and zeros elsewhere. -/
def breakOk (b : List Byte) : Bool :=
  let k := leAt b 0 1
  let sel := leAt b 2 1
  1 ≤ k && k ≤ 6 && leAt b 3 1 ≤ 1 && slice b 12 4 == zeros 4 &&
    (if k = 2 then sel < 4 else if k = 6 then sel ≤ 6 else k == 3 || k == 4 || sel == 0)

/-- Breakpoints a task may have: R248. -/
def maxBreaks : Nat := 8

/-! ### Held cores -/

/-- The cores that a RESUME or STEP names: those of the task, or of every task of the load (R249, R366). -/
def State.debugCores (s : State) (h t : Nat) : List Nat :=
  (s.tasks.filter (fun k => k.handle == h && (t == 0 || k.num == t))).flatMap (fun k => (s.batchOf k.num).flatMap s.coresOf)

/-- The BREAK holds of cores clear; under STEP each issues `n` further rows (R249). -/
def State.releaseBreaks (s : State) (cs : List Nat) (n : Option Nat) : State :=
  (cs.eraseDups.filter (fun c => (s.core c).broken)).foldl (fun s c => s.modCore c (fun x =>
    { x with stepLeft := n, held := x.held.map (fun h => { h with resumed := true, broke := false }) })) s

/-! ### DEBUG_ARM -/

/-- handle of a DEBUG_ARM: R366. -/
def armHandle (b : List Byte) : Nat := beAt b 0 8
/-- task: R366. -/
def armTask (b : List Byte) : Nat := beAt b 8 4
/-- action: R366. -/
def armAction (b : List Byte) : Nat := leAt b 12 1
/-- count: R366. -/
def armCount (b : List Byte) : Nat := leAt b 13 1
/-- n of a step: R366. -/
def armSteps (b : List Byte) : Nat := beAt b 14 2

/-- What stands against a DEBUG_ARM: R246, R366. A task of another session is no task (R360). -/
def State.armBreach (s : State) (cid : Nat) (b : List Byte) : Option Nat :=
  let a := armAction b
  if b.length < 16 ∨ a = 0 ∨ 6 < a ∨ b.length ≠ 16 + (if a = 1 then 16 * armCount b else 0) then some stBadParam
  else match s.pattern (armHandle b) with
    | none => some stNoPattern
    | some p =>
      if !p.debug then some stBadParam
      else if armTask b ≠ 0 ∧ !((s.ownTask cid (armTask b)).any (fun k => k.handle == armHandle b)) then some stNoTask
      else none

/-- Action 1: the breakpoints of the descriptors are armed, 8 at most (R248, R366). -/
def State.armBreaks (s : State) (b : List Byte) : State × Answer :=
  let h := armHandle b
  let t := armTask b
  let ds := (List.range (armCount b)).map (fun i => slice b (16 + 16 * i) 16)
  let old := (s.debugFor h t).breaks
  if !ds.all breakOk || decide (maxBreaks < old.length + ds.length) then (s, bare stBadParam)
  else (s.setDebug h t (fun d => { d with breaks := d.breaks ++ ds.map breakOf }), bare stOk)

/-- Action 2: every breakpoint is disarmed. -/
def State.disarmBreaks (s : State) (b : List Byte) : State × Answer :=
  (s.setDebug (armHandle b) (armTask b) (fun d => { d with breaks := [] }), bare stOk)

/-- Actions 3 and 4: the referee logs, or also stops: R247. -/
def State.refereeMode (s : State) (b : List Byte) (stop : Bool) : State × Answer :=
  (s.setDebug (armHandle b) (armTask b) (fun d => { d with stop := stop }), bare stOk)

/-- Action 5: RESUME: R249. -/
def State.resumeCores (s : State) (b : List Byte) : State × Answer :=
  (s.releaseBreaks (s.debugCores (armHandle b) (armTask b)) none, bare stOk)

/-- Action 6: STEP of 1 to 65,535 rows: R249. -/
def State.stepCores (s : State) (b : List Byte) : State × Answer :=
  if armSteps b = 0 then (s, bare stBadParam)
  else (s.releaseBreaks (s.debugCores (armHandle b) (armTask b)) (some (armSteps b)), bare stOk)

/-- DEBUG_ARM: R366. -/
def State.debugArm (s : State) (cid : Nat) (b : List Byte) : State × Answer :=
  match s.armBreach cid b with
  | some st => (s, bare st)
  | none =>
    match armAction b with
    | 1 => s.armBreaks b
    | 2 => s.disarmBreaks b
    | 3 => s.refereeMode b false
    | 4 => s.refereeMode b true
    | 5 => s.resumeCores b
    | _ => s.stepCores b

/-! ### DEBUG_READ -/

/-- what: R366. -/
def readWhat (b : List Byte) : Nat := leAt b 4 1

/-- Bytes of the referee log from an entry on: R366. -/
def State.readLog (s : State) (start len : Nat) : List Byte := (((s.referee.drop start).flatten).take (min len maxParams))

/-- The logical cores of a task, those of its pattern before it casts on: R225, R366. -/
def State.taskCores (s : State) (k : Task) : List Nat :=
  if k.coreSet.isEmpty then ((s.pattern k.handle).map (fun p => p.man.coreSet)).getD [] else k.coreSet

/-- Bytes of a window of one of the task's cores, held with cause BREAK: R249, R366. -/
def State.readWindow (s : State) (k : Task) (a len : Nat) : Answer :=
  match localPlace a with
  | .win c off =>
    if !(s.taskCores k).contains c then bare stBadParam
    else if !((s.core c).broken && (s.batchOf k.num).any (fun m => (s.core c).task == some m)) then bare stBusy
    else (stOk, s.homeRead (.win c off) (min (min len maxParams) (0x1000000 - off)))
  | _ => bare stBadParam

/-- DEBUG_READ: R360, R366. -/
def State.debugRead (s : State) (cid : Nat) (b : List Byte) : Answer :=
  if b.length ≠ 20 ∨ 1 < readWhat b ∨ slice b 5 3 ≠ zeros 3 then bare stBadParam
  else match s.ownTask cid (beAt b 0 4) with
    | none => bare stNoTask
    | some k =>
      if !((s.pattern k.handle).any (fun p => p.debug)) then bare stBadParam
      else if readWhat b = 0 then (stOk, s.readLog (beAt b 8 8) (beAt b 16 4)) else s.readWindow k (beAt b 8 8) (beAt b 16 4)

end Sys2Proof.Machine
end

