-- ==== Sys2Proof/Machine/Store.lean ====
section
/-!
DEFINITION. What the object, scorebook, power, health and cartridge commands answer (R82, R83, R305, R365, R366, R408, R409, R417).
-/

namespace Sys2Proof.Machine

/-! ### Objects -/

/-- A scale that R82 admits: positive, finite and normal. -/
def scaleOk (v : Nat) : Bool := !v.testBit 31 && field v 30 23 != 0 && field v 30 23 != 255

/-- Whether a tensor object keeps R82 and R83. -/
def tensorOk (b : List Byte) : Bool :=
  let n := b.length
  let fmt := leAt b 4 1
  let mode := leAt b 5 1
  let count := leAt b 8 4
  let so := leAt b 12 4
  let dof := leAt b 16 4
  let se := so + 4 * count
  let de := if so < dof then n else so
  32 ≤ n && slice b 0 4 == [0x50, 0x4C, 0x54, 0x4E] && 3 ≤ fmt && fmt ≤ 7 && mode ≤ 1 && slice b 6 2 == zeros 2 &&
    slice b 20 12 == zeros 12 && (if mode = 0 then count == 1 else 1 ≤ count && count ≤ 2 ^ 20) && so % 4 == 0 && dof % 256 == 0 &&
    32 ≤ so && 32 ≤ dof && se ≤ n && dof < de && (se ≤ dof || de ≤ so) && so != dof &&
    (List.range count).all (fun k => scaleOk (leAt b (so + 4 * k) 4))

/-- The fields of a PUT_OBJECT: R365. -/
def putHash (b : List Byte) : Hash := hashOf (b.take 48)
/-- Length: R365. -/
def putLen (b : List Byte) : Nat := beAt b 48 8
/-- Kind: R365. -/
def putKind (b : List Byte) : Nat := leAt b 56 1

/-- What stands against a PUT_OBJECT at its first packet: R365. -/
def State.putBreach (s : State) (lead : List Byte) : Option Nat :=
  if 1 < putKind lead ∨ slice lead 57 7 ≠ zeros 7 then some stBadParam
  else if (s.object (putHash lead)).isSome || s.objectRoom (putLen lead) then none
  else some stNoSpace

/-- A whole PUT_OBJECT: the data of an object that exists is discarded; else the hash and a tensor's layout are checked, and the object
goes to both bays (R365, R405). -/
def State.putObject (s : State) (lead data : List Byte) : State × Answer :=
  match s.putBreach lead with
  | some st => (s, bare st)
  | none =>
    if (s.object (putHash lead)).isSome then (s, bare stOk)
    else if sha384 data ≠ putHash lead ∨ (putKind lead = 1 ∧ tensorOk data = false) then (s, bare stBadParam)
    else (s.storeObject (putHash lead) data, bare stOk)

/-- GET_OBJECT: R365. An offset beyond the object is an invalid parameter (entry 38). -/
def State.getObject (s : State) (b : List Byte) : Answer :=
  if b.length ≠ 60 then bare stBadParam
  else match s.object (hashOf (b.take 48)) with
    | none => bare stNoObject
    | some o => if o.length < beAt b 48 8 then bare stBadParam else (stOk, slice o (beAt b 48 8) (min (beAt b 56 4) maxParams))

/-- DELETE_OBJECT: R365. -/
def State.deleteObject (s : State) (b : List Byte) : State × Answer :=
  if b.length ≠ 48 then (s, bare stBadParam)
  else
    let h := hashOf b
    match s.object h with
    | none => (s, bare stNoObject)
    | some _ =>
      if s.patterns.any (fun p => (wrefs p.image).any (fun w => w.hash == h)) then (s, bare stBusy)
      else (s.removeObject h, bare stOk)

/-! ### Scorebook, power and health -/

/-- READ_SCOREBOOK: R358, R417. -/
def State.readBook (s : State) (b : List Byte) : Answer :=
  let n := leAt b 8 1
  if b.length ≠ 12 ∨ n = 0 ∨ 126 < n ∨ slice b 9 3 ≠ zeros 3 then bare stBadParam
  else
    let rs := s.book.read (beAt b 0 8) n
    (stOk, beBytes 4 rs.length ++ rs.flatten)

/-- SET_POWER_CAP: R305. -/
def State.powerCap (s : State) (b : List Byte) : State × Answer :=
  if b.length ≠ 4 then (s, bare stBadParam)
  else
    let v := beNat b
    let (s', inRange, ok) := s.setCap v 0
    if !inRange then (s, bare stBadParam)
    else if !ok then (s, bare stRefusedFit)
    else (s', (stOk, beBytes 4 v ++ beBytes 4 (s.fitTotal s.images)))

/-- GET_HEALTH: R366. -/
def State.health (s : State) (b : List Byte) : Answer :=
  if !b.isEmpty then bare stBadParam
  else
    (stOk, leBytes 1 s.power.state.code ++ leBytes 1 (b2n s.degraded) ++ (List.range 8).map (fun p => BitVec.ofNat 8 (s.spares p)) ++
      beBytes 2 ((List.range 288).filter (fun u => (s.unit u).state == .retired)).length ++ beBytes 2 s.config.n ++
      leBytes 1 ((s.bay 0).health + 16 * (s.bay 1).health) ++ leBytes 1 s.config.relayed.length ++ beBytes 4 s.patterns.length ++
      beBytes 4 s.openCount ++ beBytes 8 s.capWord)

/-! ### Cartridges -/

/-- The bay that a cartridge command names: R358. -/
def bayParam (b : List Byte) : Option Nat :=
  if b.length = 4 ∧ slice b 1 3 = zeros 3 ∧ leAt b 0 1 < 2 then some (leAt b 0 1) else none

/-- The mirror field of a bay: 0 mirrored, 1 sole copy, 2 resync source, 3 resync target: R409. -/
def State.mirrorField (s : State) (b : Nat) : Nat :=
  let y := s.bay b
  let o := s.bay (1 - b)
  if !y.mounted then 0
  else if y.target then 3
  else if o.mounted && o.target then 2
  else if o.mounted then 0 else 1

/-- ASCII padded with spaces: R409. -/
def padSpaces (n : Nat) (b : List Byte) : List Byte := b.take n ++ List.replicate (n - b.length) 0x20

/-- CARTRIDGE_INFO: R409. What a cartridge reports is known once it has been authenticated (R402). -/
def State.cartInfo (s : State) (b : List Byte) : Answer :=
  match bayParam b with
  | none => bare stBadParam
  | some k =>
    let y := s.bay k
    let head (life pct : Nat) : List Byte :=
      leBytes 1 y.health ++ leBytes 1 y.detail ++ leBytes 1 (s.mirrorField k) ++ leBytes 1 life ++ leBytes 1 pct ++ zeros 3
    (stOk, match (if y.powered || y.retired then y.cart else none) with
      | some c =>
        if !c.authOk then head 0 0 ++ zeros 56 ++ hashBytes c.certHash ++ zeros 16
        else
          head (min 255 c.life) (min 255 c.pctUsed) ++ padSpaces 16 c.serial ++ padSpaces 8 c.fwRev ++ beBytes 8 c.capacity ++
            beBytes 8 c.written ++ beBytes 8 c.used ++ beBytes 8 y.resyncLeft ++ hashBytes c.certHash ++ zeros 16
      | none => head 0 0 ++ zeros 120)

/-- A bay is marked retired and leaves service without power: R386, R408, R441. -/
def State.retireBay (s : State) (b : Nat) : State :=
  (s.modBay b (fun y => { y with retired := true })).placeUnit (uBay b) .retired 0x09 true

/-- CARTRIDGE_RETIRE: BUSY while the bay resyncs or the other is no complete mirror; else the cartridge is erased, marked and unmounted
(R387, R408). -/
def State.cartRetire (s : State) (b : List Byte) : State × Answer :=
  match bayParam b with
  | none => (s, bare stBadParam)
  | some k =>
    let y := s.bay k
    match (if y.mounted then y.cart else none) with
    | none => (s.retireBay k, bare stOk)
    | some c =>
      if y.target || !(s.bay (1 - k)).mirroring then (s, bare stBusy)
      else
        let erased : Cartridge := { c.change lbBytes with state := 2, objects := [], staged := [] }
        let s := s.modBay k (fun y => { y with cart := some erased, detail := 4 })
        ((s.emit 0x0084 srcCP (leBytes 1 k ++ padTo 16 c.serial)).retireBay k, bare stOk)

end Sys2Proof.Machine
end

