-- ==== Sys2Proof/Machine/Spdm.lean ====
section
/-!
DEFINITION. The SPDM 1.3 responder behind GET_EVIDENCE (R391 to R395). The layouts of the messages are those of DSP0274, which the
spec names and does not repeat (PRESUMED: entry 39).
-/

namespace Sys2Proof.Machine

/-! ### Messages -/

/-- SPDMVersion of version 1.3. -/
def spdm13 : Byte := 0x13

/-- An ERROR response: R395. -/
def spdmError (code data : Nat) : List Byte := [spdm13, 0x7F] ++ leBytes 1 code ++ leBytes 1 data

/-- Error code InvalidRequest. -/
def errInvalid : List Byte := spdmError 1 0
/-- Error code UnexpectedRequest: a request that SPDM does not allow in the current state: R395. -/
def errUnexpected : List Byte := spdmError 4 0
/-- Error code UnsupportedRequest, with the request code. -/
def errUnsupported (code : Nat) : List Byte := spdmError 7 code
/-- Error code VersionMismatch. -/
def errVersion : List Byte := spdmError 0x41 0

/-! ### Certificates -/

/-- Certificate slots: R393. -/
def spdmSlots : Nat := 2

/-- The hash of the firmware image that runs: R392, R394. -/
def State.runningImage (s : State) : Hash := (s.boot.slot s.boot.slotB).hash

/-- The alias certificate, issued at boot: the identity key signs what certifies the alias key (R390 to R392). -/
def aliasCert (firmware : Hash) : List Byte :=
  let body := Config.aliasBody firmware
  der 0x30 (body ++ ecdsaSha384Id ++ der 0x03 (zeros 1 ++ derSignature (signBy identityKey body)))

/-- The certificate chain of a slot, in the format of DSP0274: slot 1 has the alias certificate after the certificates of slot 0 (R393). -/
def State.chain (s : State) (slot : Nat) : List Byte :=
  let certs := Config.deviceChain ++ (if slot = 0 then [] else aliasCert s.runningImage)
  leBytes 2 (52 + certs.length) ++ zeros 2 ++ hashBytes Config.rootHash ++ certs

/-! ### Measurements -/

/-- A hash put into a rising list. -/
def insertHash (h : Hash) : List Hash → List Hash
  | [] => [h]
  | x :: xs => if h.toNat ≤ x.toNat then h :: x :: xs else x :: insertHash h xs

/-- Hashes in rising order: R394. -/
def sortHashes (hs : List Hash) : List Hash := hs.foldl (fun a h => insertHash h a) []

/-- Certificates in the order of their hashes, each as its bytes with `extra` after them: R394. -/
def certList (cs : List Cert) (extra : Cert → List Byte) : List Byte :=
  (sortHashes (cs.map (fun c => c.hash))).flatMap (fun h =>
    Config.certificate h ++ (match cs.find? (fun c => c.hash == h) with
      | some c => extra c
      | none => []))

/-- The end-entity certificate hash of a mounted cartridge, else 48 zero bytes: R394. -/
def Bay.certHash (y : Bay) : List Byte :=
  match (if y.mounted then y.cart else none) with
  | some c => hashBytes c.certHash
  | none => zeros 48

/-- The digest of a measurement index: R394. -/
def State.measurement (s : State) (i : Nat) : Hash :=
  match i with
  | 1 => Config.romHash
  | 2 => s.runningImage
  | 3 => sha384 (certList s.mgmt.keys (fun _ => []) ++ certList s.mgmt.cas (fun c => leBytes 1 c.roles))
  | 4 => sha384 ((sortHashes (s.patterns.map (fun p => p.hash))).flatMap hashBytes)
  | _ => sha384 ((s.bay 0).certHash ++ (s.bay 1).certHash)

/-- Value type of an index: 0 immutable ROM, 1 mutable firmware, 2 hardware, 3 firmware configuration: R394. -/
def measurementType (i : Nat) : Nat := if i = 1 then 0 else if i = 2 then 1 else if i = 5 then 2 else 3

/-- A measurement block in the DMTF format: R394. -/
def State.measurementBlock (s : State) (i : Nat) : List Byte :=
  leBytes 1 i ++ [1] ++ leBytes 2 51 ++ leBytes 1 (measurementType i) ++ leBytes 2 48 ++ hashBytes (s.measurement i)

/-- Measurement indices: R394. -/
def measurementCount : Nat := 5

/-- The blocks of some indices. -/
def State.measurementBlocks (s : State) (is : List Nat) : List Byte := is.flatMap s.measurementBlock

/-! ### Requests -/

/-- A fresh nonce: R393. -/
def State.nonce (s : State) : List Byte × State :=
  let (k, s) := s.freeIndex
  (beBytes 32 (Config.spdmNonce k).toNat, s)

/-- GET_VERSION: the connection starts anew, and version 1.3 is named: R393. -/
def State.spdmVersion (s : State) (cid : Nat) (req : List Byte) : State × List Byte :=
  if req.length ≠ 4 ∨ req.head? ≠ some 0x10 then (s, errInvalid)
  else
    let r : List Byte := [0x10, 0x04, 0, 0, 0, 1, 0x00, 0x13]
    (s.modSession cid (fun x => { x with spdm := 1, transcriptA := req ++ r, transcriptB := [], transcriptM := [] }), r)

/-- GET_CAPABILITIES: CERT_CAP, CHAL_CAP, MEAS_CAP with signature and MEAS_FRESH_CAP: R393. -/
def State.spdmCapabilities (s : State) (cid : Nat) (x : Session) (req : List Byte) : State × List Byte :=
  if x.spdm ≠ 1 then (s, errUnexpected)
  else if req.length ≠ 20 then (s, errInvalid)
  else
    let r : List Byte := [spdm13, 0x61, 0, 0, 0, Config.spdmCtExponent, 0, 0] ++ leBytes 4 0x36 ++ leBytes 4 maxParams ++
      leBytes 4 maxParams
    (s.modSession cid (fun x => { x with spdm := 2, transcriptA := x.transcriptA ++ req ++ r }), r)

/-- NEGOTIATE_ALGORITHMS: ECDSA P-384, SHA-384 and DMTF measurements, or an error where the requester lacks one: R393. -/
def State.spdmAlgorithms (s : State) (cid : Nat) (x : Session) (req : List Byte) : State × List Byte :=
  if x.spdm ≠ 2 then (s, errUnexpected)
  else if req.length < 32 ∨ leAt req 4 2 ≠ req.length ∨ !((leAt req 6 1).testBit 0) ∨ !((leAt req 8 4).testBit 7) ∨
      !((leAt req 12 4).testBit 1) then (s, errInvalid)
  else
    let r : List Byte := [spdm13, 0x63, 0, 0] ++ leBytes 2 36 ++ [1, 0] ++ leBytes 4 4 ++ leBytes 4 0x80 ++ leBytes 4 2 ++ zeros 16
    (s.modSession cid (fun x => { x with spdm := 3, transcriptA := x.transcriptA ++ req ++ r }), r)

/-- GET_DIGESTS: the digests of both slots' chains: R393. -/
def State.spdmDigests (s : State) (cid : Nat) (x : Session) (req : List Byte) : State × List Byte :=
  if x.spdm ≠ 3 then (s, errUnexpected)
  else if req.length ≠ 4 then (s, errInvalid)
  else
    let r : List Byte := [spdm13, 0x01, 3, 3] ++ hashBytes (sha384 (s.chain 0)) ++ hashBytes (sha384 (s.chain 1))
    (s.modSession cid (fun x => { x with transcriptB := x.transcriptB ++ req ++ r }), r)

/-- GET_CERTIFICATE: a portion of a slot's chain, shorter where the reply would not hold it: R393. -/
def State.spdmCertificate (s : State) (cid : Nat) (x : Session) (req : List Byte) : State × List Byte :=
  let slot := leAt req 2 1 % 16
  let off := leAt req 4 2
  let c := s.chain slot
  if x.spdm ≠ 3 then (s, errUnexpected)
  else if req.length ≠ 8 ∨ spdmSlots ≤ slot ∨ c.length < off then (s, errInvalid)
  else
    let part := slice c off (min (leAt req 6 2) (maxParams - 8))
    let r : List Byte := [spdm13, 0x02] ++ leBytes 1 slot ++ [0] ++ leBytes 2 part.length ++ leBytes 2 (c.length - off - part.length) ++
      part
    (s.modSession cid (fun x => { x with transcriptB := x.transcriptB ++ req ++ r }), r)

/-- The measurement summary hash of a CHALLENGE: none, the trusted base (indices 1 and 2), or all. -/
def State.summaryHash (s : State) (kind : Nat) : List Byte :=
  if kind = 0 then [] else hashBytes (sha384 (s.measurementBlocks (if kind = 1 then [1, 2] else [1, 2, 3, 4, 5])))

/-- CHALLENGE: signed with the key of the slot named: R393. -/
def State.spdmChallenge (s : State) (cid : Nat) (x : Session) (req : List Byte) : State × List Byte :=
  let slot := leAt req 2 1 % 16
  let kind := leAt req 3 1
  if x.spdm ≠ 3 then (s, errUnexpected)
  else if req.length ≠ 44 ∨ spdmSlots ≤ slot ∨ (kind ≠ 0 ∧ kind ≠ 1 ∧ kind ≠ 0xFF) then (s, errInvalid)
  else
    let (n, s) := s.nonce
    let r : List Byte := [spdm13, 0x03] ++ leBytes 1 slot ++ [3] ++ hashBytes (sha384 (s.chain slot)) ++ n ++ s.summaryHash kind ++
      leBytes 2 0 ++ slice req 36 8
    let sig := spdmSign slot challengeContext (x.transcriptA ++ x.transcriptB ++ req ++ r)
    (s.modSession cid (fun x => { x with transcriptB := [], transcriptM := [] }), r ++ sig)

/-- GET_MEASUREMENTS: their number, one block, or all, signed where asked: R393, R394. -/
def State.spdmMeasurements (s : State) (cid : Nat) (x : Session) (req : List Byte) : State × List Byte :=
  let signed := (leAt req 2 1).testBit 0
  let op := leAt req 3 1
  let slot := if signed then leAt req 36 1 % 16 else 0
  if x.spdm ≠ 3 then (s, errUnexpected)
  else if req.length ≠ (if signed then 45 else 12) ∨ spdmSlots ≤ slot ∨ (measurementCount < op ∧ op ≠ 0xFF) then (s, errInvalid)
  else
    let is := if op = 0 then [] else if op = 0xFF then [1, 2, 3, 4, 5] else [op]
    let blocks := s.measurementBlocks is
    let (n, s) := s.nonce
    let r : List Byte := [spdm13, 0x60] ++ leBytes 1 (if op = 0 then measurementCount else 0) ++ leBytes 1 slot ++
      leBytes 1 is.length ++ leBytes 3 blocks.length ++ blocks ++ n ++ leBytes 2 0 ++ slice req (if signed then 37 else 4) 8
    let m := x.transcriptM ++ req ++ r
    if signed then
      (s.modSession cid (fun x => { x with transcriptM := [] }), r ++ spdmSign slot measurementsContext (x.transcriptA ++ m))
    else (s.modSession cid (fun x => { x with transcriptM := m }), r)

/-- The request code of an SPDM message. -/
def spdmCode (req : List Byte) : Nat := leAt req 1 1

/-- One SPDM request and its response: R393, R395. -/
def State.spdm (s : State) (cid : Nat) (req : List Byte) : State × List Byte :=
  match s.session cid with
  | none => (s, errInvalid)
  | some x =>
    let c := spdmCode req
    if req.length < 4 then (s, errInvalid)
    else if c = 0x84 then s.spdmVersion cid req
    else if req.head? ≠ some spdm13 then (s, errVersion)
    else if c = 0xE1 then s.spdmCapabilities cid x req
    else if c = 0xE3 then s.spdmAlgorithms cid x req
    else if c = 0x81 then s.spdmDigests cid x req
    else if c = 0x82 then s.spdmCertificate cid x req
    else if c = 0x83 then s.spdmChallenge cid x req
    else if c = 0xE0 then s.spdmMeasurements cid x req
    else (s, errUnsupported c)

/-- GET_EVIDENCE: the SPDM response inside an OK reply: R358, R395. -/
def State.evidence (s : State) (cid : Nat) (b : List Byte) : State × Answer :=
  let (s, r) := s.spdm cid b
  (s, (stOk, r))

end Sys2Proof.Machine
end

