-- ==== Sys2Proof/Machine/Proto.lean ====
section
/-!
DEFINITION. The packet engine (R345 to R358): sessions, the order of packets, commands of more than one packet, GET_SEQ, and every
opcode as a command of the model.
-/

namespace Sys2Proof.Machine

/-! ### Opcodes -/

/-- The opcode table: code, and whether CLIENT suffices: R358. -/
def opcodeTable : List (Nat × Bool) :=
  [(0x01, true), (0x02, true), (0x03, true), (0x10, true), (0x11, true), (0x12, true), (0x13, true), (0x20, false), (0x21, false),
   (0x22, true), (0x30, false), (0x31, false), (0x32, false), (0x40, true), (0x41, false), (0x50, false), (0x51, true), (0x60, false),
   (0x61, false), (0x70, false), (0x71, false)]

/-- Whether an opcode is listed: R358. -/
def opcodeKnown (op : Nat) : Bool := opcodeTable.any (fun e => e.1 == op)

/-- Whether a session's roles permit an opcode: CLIENT those marked C, OPERATOR every one (R348). -/
def Session.permits (x : Session) (op : Nat) : Bool := x.roles.testBit 1 || (x.roles.testBit 0 && opcodeTable.any (fun e => e.1 == op && e.2))

/-- Bytes of leading parameters of the commands that may span packets: R352, R359, R363, R365. -/
def leadBytes (op : Nat) : Option Nat :=
  match op with
  | 0x10 => some 128
  | 0x20 => some 64
  | 0x30 => some 64
  | _ => none

/-- Commands a session may have unanswered: R357. -/
def maxUnanswered : Nat := 64

/-- Commands processed without a reply, and held packets: R357. -/
def Session.open (x : Session) : Nat := x.unanswered.length + (x.multis.filter (fun m => !m.dead)).length + x.held.length

/-- An alert goes out to an address: R347, R358. -/
def State.alertTo (s : State) (addr : Nat) (a : Alert) : State := { s with alerts := s.alerts ++ [(addr, a)] }

/-! ### Commands of one packet -/

/-- The answer to a command of one packet: R358. -/
def State.answerOne (s : State) (cid op : Nat) (b : List Byte) : State × Answer :=
  match op with
  | 0x01 => (s, pingAnswer b)
  | 0x11 => (s, s.queryStatus cid b)
  | 0x12 => s.fetchResult cid b
  | 0x13 => s.cancel cid b
  | 0x21 => s.unloadPattern b
  | 0x22 => (s, s.listPatterns b)
  | 0x31 => (s, s.getObject b)
  | 0x32 => s.deleteObject b
  | 0x40 => s.evidence cid b
  | 0x41 => (s, s.readBook b)
  | 0x50 => s.powerCap b
  | 0x51 => (s, s.health b)
  | 0x60 => (s, s.cartInfo b)
  | 0x61 => s.cartRetire b
  | 0x70 => s.debugArm cid b
  | 0x71 => (s, s.debugRead cid b)
  | _ => (s, bare stBadParam)

/-- Answer a packet with a numbered reply: R354. -/
def State.answer1 (s : State) (p : Packet) (a : Answer) : State := s.reply p.cid p.opcode.toNat p.tag (some p.seqOut) a.1 a.2

/-! ### Commands of several packets -/

/-- The command of several packets that a packet belongs to: one opcode and one tag (R352). -/
def Session.multi (x : Session) (p : Packet) : Option Multi := x.multis.find? (fun m => m.opcode == p.opcode.toNat && m.tag == p.tag)

/-- The commands in progress without that of a packet. -/
def Session.dropMulti (x : Session) (p : Packet) : Session :=
  { x with multis := x.multis.filter (fun m => !(m.opcode == p.opcode.toNat && m.tag == p.tag)) }

/-- Put a command in progress in the place of the packet's. -/
def Session.putMulti (x : Session) (p : Packet) (m : Multi) : Session :=
  { x.dropMulti p with multis := (x.dropMulti p).multis ++ [m] }

/-- A packet breaks a rule: it is answered, and what follows of its command is consumed without action (R352). -/
def State.failPacket (s : State) (p : Packet) (status : Nat) : State :=
  let s := s.answer1 p (bare status)
  s.modSession p.cid (fun x => if p.more then
      x.putMulti p { opcode := p.opcode.toNat, tag := p.tag, lead := [], data := [], total := 0, dead := true, since := s.clock.gt }
    else x.dropMulti p)

/-- What the leading parameters of a command of several packets already break: R246, R359, R363, R365. -/
def State.leadBreach (s : State) (cid op : Nat) (lead : List Byte) : Option Nat :=
  match op with
  | 0x10 => s.submitBreach cid lead
  | 0x20 => if loadLeadOk lead then none else some stBadParam
  | _ => s.putBreach lead

/-- Data bytes that the leading parameters declare: R359, R363, R365. -/
def leadTotal (op : Nat) (lead : List Byte) : Nat :=
  match op with
  | 0x10 => submitLen lead
  | 0x20 => loadInline lead
  | _ => putLen lead

/-- A whole command of several packets takes effect; a load is answered by the loader later (R234, R357, R359, R363, R365). -/
def State.wholeCommand (s : State) (p : Packet) (lead data : List Byte) : State :=
  let s := s.modSession p.cid (fun x => x.dropMulti p)
  match p.opcode.toNat with
  | 0x10 => let r := s.submit p.cid p.tag lead data; r.1.answer1 p r.2
  | 0x20 =>
    let r := s.loadPattern p.cid p.tag lead data
    (match r.2 with
     | some a => r.1.answer1 p a
     | none => r.1.modSession p.cid (fun x => { x with unanswered := x.unanswered ++ [(p.tag, p.seqOut)] }))
  | _ => let r := s.putObject lead data; r.1.answer1 p r.2

/-- A packet of a command of several packets with its data: the data must follow on and end at the declared length (R352). -/
def State.takeData (s : State) (p : Packet) (m : Multi) (chunk : List Byte) : State :=
  let data := m.data ++ chunk
  if m.total < data.length ∨ (!p.more ∧ data.length ≠ m.total) then s.failPacket p stBadParam
  else if p.more then s.modSession p.cid (fun x => x.putMulti p { m with data := data })
  else s.wholeCommand p m.lead data

/-- The first packet of such a command: R352. -/
def State.firstPacket (s : State) (p : Packet) (n : Nat) : State :=
  let op := p.opcode.toNat
  let lead := p.params.take n
  if p.params.length < n then s.failPacket p stBadParam
  else match s.leadBreach p.cid op lead with
    | some st => s.failPacket p st
    | none => s.takeData p { opcode := op, tag := p.tag, lead := lead, data := [], total := leadTotal op lead, since := s.clock.gt } (p.params.drop n)

/-- A later packet: its continuation block gives the offset of its data (R352). -/
def State.laterPacket (s : State) (p : Packet) (m : Multi) : State :=
  if p.params.length < 8 ∨ beAt p.params 0 4 ≠ m.data.length ∨ slice p.params 4 4 ≠ zeros 4 then s.failPacket p stBadParam
  else s.takeData p m (p.params.drop 8)

/-! ### A packet in order -/

/-- A packet in its place in the sequence: the checks of R348, R350, R351, R357 and R358, then its command. -/
def State.processPacket (s : State) (p : Packet) : State :=
  let op := p.opcode.toNat
  match s.session p.cid with
  | none => s
  | some x => match x.multi p with
    | some m =>
      if m.dead then (if p.more then s else s.modSession p.cid (fun x => x.dropMulti p))
      else if !p.clean then s.failPacket p stBadParam
      else if !x.permits op then s.failPacket p stAuth
      else s.laterPacket p m
    | none =>
      if !p.clean then s.failPacket p stBadParam
      else if !opcodeKnown op then s.failPacket p stBadOpcode
      else if !x.permits op then s.failPacket p stAuth
      else if maxUnanswered ≤ x.open then s.failPacket p stBusy
      else match leadBytes op with
        | some n => s.firstPacket p n
        | none =>
          if p.more ∨ op = 0x02 then s.failPacket p stBadParam
          else if op = 0x03 then
            (if p.params.isEmpty then ((s.answer1 p (bare stOk)).alertTo x.peer .closeNotify).endSession p.cid
             else s.answer1 p (bare stBadParam))
          else
            let r := s.answerOne p.cid op p.params
            r.1.answer1 p r.2

/-- The packet with the next sequence number, and every held one that now follows it: R353. -/
def State.inOrder (s : State) (p : Packet) : Nat → State
  | 0 => s
  | f + 1 =>
    let s := (s.modSession p.cid (fun x => { x with expected := x.expected + 1 })).processPacket p
    match s.session p.cid with
    | none => s
    | some x => match x.held.find? (fun q => q.2.seqOut == x.expected) with
      | none => s
      | some q => State.inOrder (s.modSession p.cid (fun x => { x with held := x.held.filter (fun r => r.2.seqOut != q.2.seqOut) })) q.2 f

/-- A packet under the sequence rules: R353, R354. DESIGN CHOICE: one that fails the last checks of R351 out of its place in the sequence is
answered at once and moves nothing; in its place it is one of the sequence like any other (entry 38). -/
def State.sequenced (s : State) (p : Packet) (x : Session) : State :=
  let d := serialDiff p.seqOut x.expected
  if d = 0 then s.inOrder p 17
  else if !p.clean then s.reply p.cid p.opcode.toNat p.tag none stBadParam []
  else if d ≤ 16 then
    (if x.held.any (fun q => q.2.seqOut == p.seqOut) then s
     else s.modSession p.cid (fun x => { x with held := x.held ++ [(s.clock.gt, p)] }))
  else if d ≤ 2 ^ 31 then s.seqGap p.cid p.opcode.toNat p.tag
  else if p.more then s
  else match x.window.find? (fun w => w.1 == some p.seqOut) with
    | some w => s.resend p.cid w.2
    | none => s.seqGap p.cid p.opcode.toNat p.tag

/-! ### GET_SEQ -/

/-- The reply parameters of GET_SEQ: R356. -/
def Session.seqState (x : Session) : List Byte :=
  let live := x.multis.filter (fun m => !m.dead)
  beBytes 4 x.expected.toNat ++ beBytes 4 x.devNext.toNat ++ beBytes 4 (match x.window with
    | w :: _ => w.2.seqOut.toNat
    | [] => x.devNext.toNat) ++ beBytes 4 x.clientAck.toNat ++ leBytes 1 x.held.length ++ leBytes 1 (b2n (!live.isEmpty)) ++ beBytes 2 x.crcDrops ++
    (match live with
     | m :: _ => beBytes 4 m.data.length
     | [] => [])

/-- Whether GET_SEQ parameters are as R356 says. -/
def seqParamsOk (b : List Byte) : Bool := !b.isEmpty && leAt b 0 1 ≤ 16 && slice b 1 3 == zeros 3 && b.length == 4 + 4 * leAt b 0 1

/-- An out-of-band packet: GET_SEQ is answered, and the replies it lists are sent again (R355, R356). Anything else out of band breaks
R355, and one that fails the last checks of R351 is answered BAD_PARAM first (entry 38). -/
def State.outOfBand (s : State) (p : Packet) (x : Session) : State :=
  if p.opcode.toNat = 0x02 ∧ p.clean ∧ !p.more ∧ seqParamsOk p.params then
    if x.permits 0x02 then
      ((List.range (leAt p.params 0 1)).map (fun i => BitVec.ofNat 32 (beAt p.params (4 + 4 * i) 4))).foldl (fun s q =>
        match x.window.find? (fun w => w.2.seqOut == q) with
        | some w => s.resend p.cid w.2
        | none => s) (s.replyOob p.cid 0x02 p.tag stOk x.seqState)
    else s.reply p.cid 0x02 p.tag none stAuth []
  else s.reply p.cid p.opcode.toNat p.tag none (if opcodeKnown p.opcode.toNat || !p.clean then stBadParam else stBadOpcode) []

/-- A packet arrives on a session: the checks of R351 in their order, then its place in the sequence (R347, R353, R355). -/
def State.packetIn (s : State) (p : Packet) : State :=
  match s.session p.cid with
  | none => s
  | some _ =>
    let s := s.modSession p.cid (fun x => { x with peer := p.src, lastGt := s.clock.gt })
    if !p.intact then s.modSession p.cid (fun x => { x with crcDrops := satAdd 65535 x.crcDrops 1 })
    else if p.session.toNat ≠ p.cid then s.replyOob p.cid p.opcode.toNat p.tag stAuth []
    else
      let s := s.takeAck p.cid p.seqAck
      match s.session p.cid with
      | none => s
      | some x => if p.oob then s.outOfBand p x else s.sequenced p x

/-! ### Sessions -/

/-- Contexts of the session table: R347. -/
def maxSessions : Nat := 16384

/-- Certificates a client's chain may have: R346. -/
def maxChain : Nat := 4

/-- A handshake completes and allocates a context with fresh record keys and the roles of every enrolled certificate of the CA its chain
ends at; none is allocated for a chain that ends at no enrolled CA or has more than 4 certificates, and none over another. Where every
context is in use the client is sent internal_error (R346 to R348). -/
def execHandshake (cid src : Nat) (cert : Hash) (chain : ClientChain) (s : State) : Out :=
  if !s.cpRuns then done s s
  else if maxSessions ≤ s.sessions.length then done s (s.alertTo src .internalError)
  else if cid < maxSessions ∧ (s.session cid).isNone ∧ chain.length ≤ maxChain then
    match s.mgmt.cas.find? (fun c => c.hash == chain.ca) with
    | some c =>
      let same := s.mgmt.cas.filter (fun d => d.keyId == c.keyId)
      let k := s.nextFree
      let x : Session := { cert := cert, roles := same.foldl (fun a d => a ||| d.roles) 0, cas := same.map (fun d => d.hash), peer := src,
                           lastGt := s.clock.gt, txKey := Config.recordKey k, rxKey := Config.recordKey (k + 1) }
      done s { s with sessions := mset s.sessions cid x, nextFree := k + 2 }
    | none => done s s
  else done s s

/-- Records under one set of sending keys: R346. -/
def keyRecords : Nat := 2 ^ 23

/-- The device updates its sending keys after every 2^23 records: R346. -/
def execKeyUpdate (cid : Nat) (s : State) : Out :=
  if (s.session cid).any (fun x => decide (keyRecords ≤ x.sent)) then
    let (k, s') := s.freeIndex
    done s (s'.modSession cid (fun x => { x with sent := x.sent - keyRecords, txEpoch := x.txEpoch + 1, txKey := Config.recordKey k }))
  else done s s

/-- The client's KeyUpdate is accepted: R346. -/
def execClientKeyUpdate (cid : Nat) (s : State) : Out :=
  let (k, s') := s.freeIndex
  done s (s'.modSession cid (fun x => { x with rxEpoch := x.rxEpoch + 1, rxKey := Config.recordKey k }))

/-- GT units after which a silent session ends, 300 s: R347. -/
def sessionLife : Nat := 600000000000

/-- A session without an authenticated packet for 300 s ends and is recorded: R347. -/
def execSessionExpired (cid : Nat) (s : State) : Out :=
  match s.session cid with
  | none => done s s
  | some x =>
    if x.lastGt + sessionLife ≤ s.clock.gt then
      let n := (s.tasks.filter (fun t => t.session == cid && (t.state == .queued || t.live))).length
      done s ((s.endSession cid).emit 0x0054 srcPacket (leBytes 2 cid ++ leBytes 2 n))
    else done s s

/-- A close_notify from the client ends the session: R347. -/
def execCloseNotify (cid : Nat) (s : State) : Out := done s (s.endSession cid)

/-- GT units a command may stay incomplete, 2 s: R352. -/
def commandLife : Nat := 4000000000

/-- Commands left incomplete for 2 s are discarded and answered BAD_PARAM: R352. -/
def execCommandTimeout (cid : Nat) (s : State) : Out :=
  match s.session cid with
  | none => done s s
  | some x =>
    let late := x.multis.filter (fun m => decide (m.since + commandLife ≤ s.clock.gt))
    let s' := s.modSession cid (fun x => { x with multis := x.multis.filter (fun m => decide (s.clock.gt < m.since + commandLife)) })
    done s ((late.filter (fun m => !m.dead)).foldl (fun s m => s.reply cid m.opcode m.tag none stBadParam []) s')

/-- GT units for which a gap may stay open, 5 ms: R353. -/
def gapLife : Nat := 10000000

/-- A gap that has not closed 5 ms after the first packet held behind it arrived discards every held packet and sends SEQ_GAP: R353. -/
def execSeqGap (cid : Nat) (s : State) : Out :=
  match s.session cid with
  | none => done s s
  | some x => match x.held with
    | [] => done s s
    | (gt, p) :: _ =>
      if gt + gapLife ≤ s.clock.gt then
        done s ((s.modSession cid (fun x => { x with held := [] })).seqGap cid p.opcode.toNat p.tag)
      else done s s

/-! ### The commands of the opcode table -/

/-- A packet of a command takes effect if its fields name that command; otherwise it is another command's packet. -/
def State.packetAs (s : State) (p : Packet) (mine : Bool) : Out := done s (if mine then s.packetIn p else s)

/-- PING: R358. -/
def execPing (p : Packet) (s : State) : Out := s.packetAs p (p.opcode == 0x01)
/-- GET_SEQ: R356. -/
def execGetSeq (p : Packet) (s : State) : Out := s.packetAs p (p.opcode == 0x02)
/-- CLOSE: R347, R358. -/
def execClose (p : Packet) (s : State) : Out := s.packetAs p (p.opcode == 0x03)
/-- SUBMIT: R352, R359. -/
def execSubmit (p : Packet) (s : State) : Out := s.packetAs p (p.opcode == 0x10)
/-- QUERY_STATUS: R360. -/
def execQueryStatus (p : Packet) (s : State) : Out := s.packetAs p (p.opcode == 0x11)
/-- FETCH_RESULT: R361. -/
def execFetchResult (p : Packet) (s : State) : Out := s.packetAs p (p.opcode == 0x12)
/-- CANCEL: R362. -/
def execCancel (p : Packet) (s : State) : Out := s.packetAs p (p.opcode == 0x13)
/-- LOAD_PATTERN: R234, R363. -/
def execLoadPattern (p : Packet) (s : State) : Out := s.packetAs p (p.opcode == 0x20)
/-- UNLOAD_PATTERN: R364. -/
def execUnloadPattern (p : Packet) (s : State) : Out := s.packetAs p (p.opcode == 0x21)
/-- LIST_PATTERNS: R364. -/
def execListPatterns (p : Packet) (s : State) : Out := s.packetAs p (p.opcode == 0x22)
/-- PUT_OBJECT: R365. -/
def execPutObject (p : Packet) (s : State) : Out := s.packetAs p (p.opcode == 0x30)
/-- GET_OBJECT: R365. -/
def execGetObject (p : Packet) (s : State) : Out := s.packetAs p (p.opcode == 0x31)
/-- DELETE_OBJECT: R365. -/
def execDeleteObject (p : Packet) (s : State) : Out := s.packetAs p (p.opcode == 0x32)
/-- READ_SCOREBOOK: R358, R417. -/
def execReadScorebook (p : Packet) (s : State) : Out := s.packetAs p (p.opcode == 0x41)
/-- SET_POWER_CAP: R305. -/
def execSetPowerCap (p : Packet) (s : State) : Out := s.packetAs p (p.opcode == 0x50)
/-- GET_HEALTH: R366. -/
def execGetHealth (p : Packet) (s : State) : Out := s.packetAs p (p.opcode == 0x51)
/-- CARTRIDGE_INFO: R409. -/
def execCartridgeInfo (p : Packet) (s : State) : Out := s.packetAs p (p.opcode == 0x60)
/-- CARTRIDGE_RETIRE: R408. -/
def execCartridgeRetire (p : Packet) (s : State) : Out := s.packetAs p (p.opcode == 0x61)

/-- A continuation packet of SUBMIT, LOAD_PATTERN or PUT_OBJECT: R352. -/
def execContinuationBlock (p : Packet) (s : State) : Out := s.packetAs p (leadBytes p.opcode.toNat).isSome

/-- A packet whose opcode the table does not list: R358. -/
def execBadOpcode (p : Packet) (s : State) : Out := s.packetAs p (!opcodeKnown p.opcode.toNat)

/-- DEBUG_ARM with action 1; an action beyond the table, or none, is refused as one that arms: R248, R366. -/
def execArm (p : Packet) (s : State) : Out := s.packetAs p (p.opcode == 0x70 && (armAction p.params < 2 || 6 < armAction p.params))
/-- DEBUG_ARM with action 2: R366. -/
def execDisarmAll (p : Packet) (s : State) : Out := s.packetAs p (p.opcode == 0x70 && armAction p.params == 2)
/-- DEBUG_ARM with action 3: R247. -/
def execRefereeLog (p : Packet) (s : State) : Out := s.packetAs p (p.opcode == 0x70 && armAction p.params == 3)
/-- DEBUG_ARM with action 4: R247. -/
def execRefereeStop (p : Packet) (s : State) : Out := s.packetAs p (p.opcode == 0x70 && armAction p.params == 4)
/-- DEBUG_ARM with action 5: R249. -/
def execResume (p : Packet) (s : State) : Out := s.packetAs p (p.opcode == 0x70 && armAction p.params == 5)
/-- DEBUG_ARM with action 6: R249. -/
def execStep (p : Packet) (s : State) : Out := s.packetAs p (p.opcode == 0x70 && armAction p.params == 6)
/-- DEBUG_READ of the referee log: R366. -/
def execReadRefereeLog (p : Packet) (s : State) : Out := s.packetAs p (p.opcode == 0x71 && readWhat p.params != 1)
/-- DEBUG_READ of window bytes: R366. -/
def execReadWindowBytes (p : Packet) (s : State) : Out := s.packetAs p (p.opcode == 0x71 && readWhat p.params == 1)

/-- GET_EVIDENCE with GET_VERSION, or with a request that R393 does not list: R393, R395. -/
def execGetVersion (p : Packet) (s : State) : Out :=
  s.packetAs p (p.opcode == 0x40 && !([0xE1, 0xE3, 0x81, 0x82, 0x83, 0xE0].contains (spdmCode p.params)))
/-- GET_EVIDENCE with GET_CAPABILITIES: R393. -/
def execGetCapabilities (p : Packet) (s : State) : Out := s.packetAs p (p.opcode == 0x40 && spdmCode p.params == 0xE1)
/-- GET_EVIDENCE with NEGOTIATE_ALGORITHMS: R393. -/
def execNegotiateAlgorithms (p : Packet) (s : State) : Out := s.packetAs p (p.opcode == 0x40 && spdmCode p.params == 0xE3)
/-- GET_EVIDENCE with GET_DIGESTS: R393. -/
def execGetDigests (p : Packet) (s : State) : Out := s.packetAs p (p.opcode == 0x40 && spdmCode p.params == 0x81)
/-- GET_EVIDENCE with GET_CERTIFICATE: R393. -/
def execGetCertificate (p : Packet) (s : State) : Out := s.packetAs p (p.opcode == 0x40 && spdmCode p.params == 0x82)
/-- GET_EVIDENCE with CHALLENGE: R393. -/
def execChallenge (p : Packet) (s : State) : Out := s.packetAs p (p.opcode == 0x40 && spdmCode p.params == 0x83)
/-- GET_EVIDENCE with GET_MEASUREMENTS: R394. -/
def execGetMeasurements (p : Packet) (s : State) : Out := s.packetAs p (p.opcode == 0x40 && spdmCode p.params == 0xE0)

end Sys2Proof.Machine
end

