-- ==== Sys2Proof/Machine/Dispatch.lean ====
section
/-!
DEFINITION. What each command does: one arm per constructor of Instr, one direct call of its meaning.
-/

namespace Sys2Proof.Machine

/-- The effect of a command on everything but the queue (each meaning cites its rule). -/
def exec (i : Instr) (s : State) : Host.Outcome State Fault Refusal :=
  match i with
  | .issueCycle core fetch ports => Sys2Proof.Machine.execIssueCycle core fetch ports s
  | .heldTurnEnd core held => Sys2Proof.Machine.execHeldTurnEnd core held s
  | .sAdd c => Sys2Proof.Machine.execSAdd c s
  | .sSub c => Sys2Proof.Machine.execSSub c s
  | .sAnd c => Sys2Proof.Machine.execSAnd c s
  | .sOr c => Sys2Proof.Machine.execSOr c s
  | .sXor c => Sys2Proof.Machine.execSXor c s
  | .sShl c => Sys2Proof.Machine.execSShl c s
  | .sShr c => Sys2Proof.Machine.execSShr c s
  | .sSra c => Sys2Proof.Machine.execSSra c s
  | .sSlt c => Sys2Proof.Machine.execSSlt c s
  | .sSltu c => Sys2Proof.Machine.execSSltu c s
  | .sSeq c => Sys2Proof.Machine.execSSeq c s
  | .sMul c => Sys2Proof.Machine.execSMul c s
  | .sLi c => Sys2Proof.Machine.execSLi c s
  | .sLui c => Sys2Proof.Machine.execSLui c s
  | .sLd c => Sys2Proof.Machine.execSLd c s
  | .sSt c => Sys2Proof.Machine.execSSt c s
  | .sRdreg c => Sys2Proof.Machine.execSRdreg c s
  | .sbDef c => Sys2Proof.Machine.execSbDef c s
  | .br c => Sys2Proof.Machine.execBr c s
  | .brZ c => Sys2Proof.Machine.execBrZ c s
  | .brNz c => Sys2Proof.Machine.execBrNz c s
  | .brNeg c => Sys2Proof.Machine.execBrNeg c s
  | .loopI c => Sys2Proof.Machine.execLoopI c s
  | .loopR c => Sys2Proof.Machine.execLoopR c s
  | .tallySig c => Sys2Proof.Machine.execTallySig c s
  | .tallyWait c => Sys2Proof.Machine.execTallyWait c s
  | .tallyTake c => Sys2Proof.Machine.execTallyTake c s
  | .bankFlip c => Sys2Proof.Machine.execBankFlip c s
  | .brk c => Sys2Proof.Machine.execBrk c s
  | .taskEnd c => Sys2Proof.Machine.execTaskEnd c s
  | .mmPass m => Sys2Proof.Machine.execMmPass m s
  | .mmTile m => Sys2Proof.Machine.execMmTile m s
  | .mmDiag m => Sys2Proof.Machine.execMmDiag m s
  | .mmDrain m => Sys2Proof.Machine.execMmDrain m s
  | .mmMon m => Sys2Proof.Machine.execMmMon m s
  | .rescale core => Sys2Proof.Machine.execRescale core s
  | .rescaleClear core cycles => Sys2Proof.Machine.execRescaleClear core cycles s
  | .mmTileOutputDone core => Sys2Proof.Machine.execMmTileOutputDone core s
  | .vAdd v => Sys2Proof.Machine.execVAdd v s
  | .vSub v => Sys2Proof.Machine.execVSub v s
  | .vMul v => Sys2Proof.Machine.execVMul v s
  | .vFma v => Sys2Proof.Machine.execVFma v s
  | .vFnma v => Sys2Proof.Machine.execVFnma v s
  | .vWfma v => Sys2Proof.Machine.execVWfma v s
  | .vMin v => Sys2Proof.Machine.execVMin v s
  | .vMax v => Sys2Proof.Machine.execVMax v s
  | .vAbs v => Sys2Proof.Machine.execVAbs v s
  | .vNeg v => Sys2Proof.Machine.execVNeg v s
  | .vAnd v => Sys2Proof.Machine.execVAnd v s
  | .vOr v => Sys2Proof.Machine.execVOr v s
  | .vXor v => Sys2Proof.Machine.execVXor v s
  | .vShl v => Sys2Proof.Machine.execVShl v s
  | .vShr v => Sys2Proof.Machine.execVShr v s
  | .vSra v => Sys2Proof.Machine.execVSra v s
  | .vPopc v => Sys2Proof.Machine.execVPopc v s
  | .vIota v => Sys2Proof.Machine.execVIota v s
  | .vSel v => Sys2Proof.Machine.execVSel v s
  | .vCeq v => Sys2Proof.Machine.execVCeq v s
  | .vClt v => Sys2Proof.Machine.execVClt v s
  | .vCle v => Sys2Proof.Machine.execVCle v s
  | .mAnd v => Sys2Proof.Machine.execMAnd v s
  | .mOr v => Sys2Proof.Machine.execMOr v s
  | .mXor v => Sys2Proof.Machine.execMXor v s
  | .mAndn v => Sys2Proof.Machine.execMAndn v s
  | .vCvt v => Sys2Proof.Machine.execVCvt v s
  | .vCvtbs v => Sys2Proof.Machine.execVCvtbs v s
  | .vExp v => Sys2Proof.Machine.execVExp v s
  | .vLog v => Sys2Proof.Machine.execVLog v s
  | .vRcp v => Sys2Proof.Machine.execVRcp v s
  | .vRsqrt v => Sys2Proof.Machine.execVRsqrt v s
  | .vTanh v => Sys2Proof.Machine.execVTanh v s
  | .vErf v => Sys2Proof.Machine.execVErf v s
  | .vCompress v => Sys2Proof.Machine.execVCompress v s
  | .vExpand v => Sys2Proof.Machine.execVExpand v s
  | .vRedsum v => Sys2Proof.Machine.execVRedsum v s
  | .vRedmax v => Sys2Proof.Machine.execVRedmax v s
  | .vRedmin v => Sys2Proof.Machine.execVRedmin v s
  | .vSieve v => Sys2Proof.Machine.execVSieve v s
  | .vSinit v => Sys2Proof.Machine.execVSinit v s
  | .vSetvl v => Sys2Proof.Machine.execVSetvl v s
  | .vGetvl v => Sys2Proof.Machine.execVGetvl v s
  | .vLd v => Sys2Proof.Machine.execVLd v s
  | .vSt v => Sys2Proof.Machine.execVSt v s
  | .ribPut b => Sys2Proof.Machine.execRibPut b s
  | .bMove b => Sys2Proof.Machine.execBMove b s
  | .spPut b => Sys2Proof.Machine.execSpPut b s
  | .spGet b => Sys2Proof.Machine.execSpGet b s
  | .spSig b => Sys2Proof.Machine.execSpSig b s
  | .spWord b => Sys2Proof.Machine.execSpWord b s
  | .fifoPush b => Sys2Proof.Machine.execFifoPush b s
  | .fifoPop b parityOk => Sys2Proof.Machine.execFifoPop b parityOk s
  | .fifoStat b => Sys2Proof.Machine.execFifoStat b s
  | .dmaGet d => Sys2Proof.Machine.execDmaGet d s
  | .dmaPut d => Sys2Proof.Machine.execDmaPut d s
  | .strandSend d => Sys2Proof.Machine.execStrandSend d s
  | .cableRun d => Sys2Proof.Machine.execCableRun d s
  | .dmaBurstSend core q => Sys2Proof.Machine.execDmaBurstSend core q s
  | .deliveryLastBurst core id => Sys2Proof.Machine.execDeliveryLastBurst core id s
  | .dmaComplete core q => Sys2Proof.Machine.execDmaComplete core q s
  | .ackedRelease core => Sys2Proof.Machine.execAckedRelease core s
  | .shortPathComplete core id => Sys2Proof.Machine.execShortPathComplete core id s
  | .cableStageUnit core stage => Sys2Proof.Machine.execCableStageUnit core stage s
  | .cableComplete core => Sys2Proof.Machine.execCableComplete core s
  | .externalBurstWrite id => Sys2Proof.Machine.execExternalBurstWrite id s
  | .eccReread core word outcome time => Sys2Proof.Machine.execEccReread core word outcome time s
  | .externalReread phys word outcome => Sys2Proof.Machine.execExternalReread phys word outcome s
  | .scrubRead phys word result outcome => Sys2Proof.Machine.execScrubRead phys word result outcome s
  | .tallyAdd id => Sys2Proof.Machine.execTallyAdd id s
  | .tallyRelease core => Sys2Proof.Machine.execTallyRelease core s
  | .taskCastOn task => Sys2Proof.Machine.execTaskCastOn task s
  | .startTimeReached core => Sys2Proof.Machine.execStartTimeReached core s
  | .coreCastOff core => Sys2Proof.Machine.execCoreCastOff core s
  | .taskCastOff task peers => Sys2Proof.Machine.execTaskCastOff task peers s
  | .stalemate task => Sys2Proof.Machine.execStalemate task s
  | .strandReq id => Sys2Proof.Machine.execStrandReq id s
  | .strandGrant core skein => Sys2Proof.Machine.execStrandGrant core skein s
  | .strandData id => Sys2Proof.Machine.execStrandData id s
  | .grantComplete core skein => Sys2Proof.Machine.execGrantComplete core skein s
  | .readIndexWrite core skein value => Sys2Proof.Machine.execReadIndexWrite core skein value s
  | .strandSendComplete core ep => Sys2Proof.Machine.execStrandSendComplete core ep s
  | .fifoDataWrite core fifo word => Sys2Proof.Machine.execFifoDataWrite core fifo word s
  | .registerWrite addr value => Sys2Proof.Machine.execRegisterWrite addr value s
  | .gtLoRead => Sys2Proof.Machine.execGtLoRead s
  | .freqCtlWrite panel value => Sys2Proof.Machine.execFreqCtlWrite panel value s
  | .calCtlWrite value => Sys2Proof.Machine.execCalCtlWrite value s
  | .ibankLoad core bank segment => Sys2Proof.Machine.execIbankLoad core bank segment s
  | .bankReadySignal core => Sys2Proof.Machine.execBankReadySignal core s
  | .patternLoad => Sys2Proof.Machine.execPatternLoad s
  | .epochMark r => Sys2Proof.Machine.execEpochMark r s
  | .voltageSettled panel code => Sys2Proof.Machine.execVoltageSettled panel code s
  | .droop panel => Sys2Proof.Machine.execDroop panel s
  | .droopRecovery panel => Sys2Proof.Machine.execDroopRecovery panel s
  | .sustainedDroop panel mv => Sys2Proof.Machine.execSustainedDroop panel mv s
  | .beacon port t1 far t4 => Sys2Proof.Machine.execBeacon port t1 far t4 s
  | .timeUnlocked => Sys2Proof.Machine.execTimeUnlocked s
  | .castonUnlockedTimeout task => Sys2Proof.Machine.execCastonUnlockedTimeout task s
  | .recentre chan l r bursts => Sys2Proof.Machine.execRecentre chan l r bursts s
  | .allBankRefresh chan temp => Sys2Proof.Machine.execAllBankRefresh chan temp s
  | .windowEnd chan eye => Sys2Proof.Machine.execWindowEnd chan eye s
  | .eyeCheck port openings corrected => Sys2Proof.Machine.execEyeCheck port openings corrected s
  | .swapReq port lane slot => Sys2Proof.Machine.execSwapReq port lane slot s
  | .swapAt port lane slot => Sys2Proof.Machine.execSwapAt port lane slot s
  | .laneSwap port tx => Sys2Proof.Machine.execLaneSwap port tx s
  | .swapDone port => Sys2Proof.Machine.execSwapDone port s
  | .swapReqResend port => Sys2Proof.Machine.execSwapReqResend port s
  | .calSummary => Sys2Proof.Machine.execCalSummary s
  | .lend core => Sys2Proof.Machine.execLend core s
  | .reclaimBatch panel => Sys2Proof.Machine.execReclaimBatch panel s
  | .voutTelemetry mv => Sys2Proof.Machine.execVoutTelemetry mv s
  | .regulatorFault panel => Sys2Proof.Machine.execRegulatorFault panel s
  | .thermalTrip unit temp => Sys2Proof.Machine.execThermalTrip unit temp s
  | .napEntry phys => Sys2Proof.Machine.execNapEntry phys s
  | .idleEntry => Sys2Proof.Machine.execIdleEntry s
  | .standbyEntry => Sys2Proof.Machine.execStandbyEntry s
  | .mainRailLost => Sys2Proof.Machine.execMainRailLost s
  | .auxPowerLost => Sys2Proof.Machine.execAuxPowerLost s
  | .auxPowerOn strap step1Ok => Sys2Proof.Machine.execAuxPowerOn strap step1Ok s
  | .pwrEnAssert facts => Sys2Proof.Machine.execPwrEnAssert facts s
  | .pwrEnDeassert => Sys2Proof.Machine.execPwrEnDeassert s
  | .inputHash task => Sys2Proof.Machine.execInputHash task s
  | .taskReplay task => Sys2Proof.Machine.execTaskReplay task s
  | .dualSecondRun task => Sys2Proof.Machine.execDualSecondRun task s
  | .mirrorVote task d q result => Sys2Proof.Machine.execMirrorVote task d q result s
  | .hbmUncorr addr sparesLeft readFirst => Sys2Proof.Machine.execHbmUncorr addr sparesLeft readFirst s
  | .flitReceive port flit fecOk => Sys2Proof.Machine.execFlitReceive port flit fecOk s
  | .nak port seq => Sys2Proof.Machine.execNak port seq s
  | .retryTimeout port => Sys2Proof.Machine.execRetryTimeout port s
  | .readReq id => Sys2Proof.Machine.execReadReq id s
  | .readResp id => Sys2Proof.Machine.execReadResp id s
  | .write id => Sys2Proof.Machine.execWrite id s
  | .writeAck id => Sys2Proof.Machine.execWriteAck id s
  | .fwMsg peer msg => Sys2Proof.Machine.execFwMsg peer msg s
  | .heartbeat => Sys2Proof.Machine.execHeartbeat s
  | .trainAttempt port r => Sys2Proof.Machine.execTrainAttempt port r s
  | .retrain port lane => Sys2Proof.Machine.execRetrain port lane s
  | .retrainAttempt port ok => Sys2Proof.Machine.execRetrainAttempt port ok s
  | .configFormation n peers => Sys2Proof.Machine.execConfigFormation n peers s
  | .moduleLost module => Sys2Proof.Machine.execModuleLost module s
  | .twinLost => Sys2Proof.Machine.execTwinLost s
  | .watchdog cpCore checkpoint => Sys2Proof.Machine.execWatchdog cpCore checkpoint s
  | .handshake cid src cert chain => Sys2Proof.Machine.execHandshake cid src cert chain s
  | .keyUpdate cid => Sys2Proof.Machine.execKeyUpdate cid s
  | .sessionExpired cid => Sys2Proof.Machine.execSessionExpired cid s
  | .continuationBlock p => Sys2Proof.Machine.execContinuationBlock p s
  | .commandTimeout cid => Sys2Proof.Machine.execCommandTimeout cid s
  | .seqGap cid => Sys2Proof.Machine.execSeqGap cid s
  | .ping p => Sys2Proof.Machine.execPing p s
  | .getSeq p => Sys2Proof.Machine.execGetSeq p s
  | .close p => Sys2Proof.Machine.execClose p s
  | .submit p => Sys2Proof.Machine.execSubmit p s
  | .batchingWindow handle => Sys2Proof.Machine.execBatchingWindow handle s
  | .queryStatus p => Sys2Proof.Machine.execQueryStatus p s
  | .fetchResult p => Sys2Proof.Machine.execFetchResult p s
  | .taskForgotten task => Sys2Proof.Machine.execTaskForgotten task s
  | .cancel p => Sys2Proof.Machine.execCancel p s
  | .loadPattern p => Sys2Proof.Machine.execLoadPattern p s
  | .unloadPattern p => Sys2Proof.Machine.execUnloadPattern p s
  | .listPatterns p => Sys2Proof.Machine.execListPatterns p s
  | .putObject p => Sys2Proof.Machine.execPutObject p s
  | .getObject p => Sys2Proof.Machine.execGetObject p s
  | .deleteObject p => Sys2Proof.Machine.execDeleteObject p s
  | .readScorebook p => Sys2Proof.Machine.execReadScorebook p s
  | .setPowerCap p => Sys2Proof.Machine.execSetPowerCap p s
  | .getHealth p => Sys2Proof.Machine.execGetHealth p s
  | .cartridgeInfo p => Sys2Proof.Machine.execCartridgeInfo p s
  | .cartridgeRetire p => Sys2Proof.Machine.execCartridgeRetire p s
  | .arm p => Sys2Proof.Machine.execArm p s
  | .disarmAll p => Sys2Proof.Machine.execDisarmAll p s
  | .refereeLog p => Sys2Proof.Machine.execRefereeLog p s
  | .refereeStop p => Sys2Proof.Machine.execRefereeStop p s
  | .resume p => Sys2Proof.Machine.execResume p s
  | .step p => Sys2Proof.Machine.execStep p s
  | .readRefereeLog p => Sys2Proof.Machine.execReadRefereeLog p s
  | .readWindowBytes p => Sys2Proof.Machine.execReadWindowBytes p s
  | .getVersion p => Sys2Proof.Machine.execGetVersion p s
  | .getCapabilities p => Sys2Proof.Machine.execGetCapabilities p s
  | .negotiateAlgorithms p => Sys2Proof.Machine.execNegotiateAlgorithms p s
  | .getDigests p => Sys2Proof.Machine.execGetDigests p s
  | .getCertificate p => Sys2Proof.Machine.execGetCertificate p s
  | .challenge p => Sys2Proof.Machine.execChallenge p s
  | .getMeasurements p => Sys2Proof.Machine.execGetMeasurements p s
  | .cartridgeInsert bay facts => Sys2Proof.Machine.execCartridgeInsert bay facts s
  | .prsntDebounce bay => Sys2Proof.Machine.execPrsntDebounce bay s
  | .perstRelease bay => Sys2Proof.Machine.execPerstRelease bay s
  | .resyncComplete bay => Sys2Proof.Machine.execResyncComplete bay s
  | .bayFailure bay => Sys2Proof.Machine.execBayFailure bay s
  | .smartRead bay pctUsed => Sys2Proof.Machine.execSmartRead bay pctUsed s
  | .unitRequest unit state now generation => Sys2Proof.Machine.execUnitRequest unit state now generation s
  | .drainEnd unit forced => Sys2Proof.Machine.execDrainEnd unit forced s
  | .enrol r => Sys2Proof.Machine.execEnrol r s
  | .stagedSet entries => Sys2Proof.Machine.execStagedSet entries s
  | .sbRead seq count => Sys2Proof.Machine.execSbRead seq count s
  | .regRead addr => Sys2Proof.Machine.execRegRead addr s
  | .moduleReset confirm => Sys2Proof.Machine.execModuleReset confirm s
  | .netCfg udp mgmt ipv6 => Sys2Proof.Machine.execNetCfg udp mgmt ipv6 s
  | .sensorRead sensor => Sys2Proof.Machine.execSensorRead sensor s
  | .effecterSet effecter value => Sys2Proof.Machine.execEffecterSet effecter value s
  | .pldmFirmwareUpdate svn hash sigOk raise => Sys2Proof.Machine.execPldmFirmwareUpdate svn hash sigOk raise s
  | .activateFirmware => Sys2Proof.Machine.execActivateFirmware s
  | .setEndpointId eid => Sys2Proof.Machine.execSetEndpointId eid s
  | .i3cBroadcastCcc => Sys2Proof.Machine.execI3cBroadcastCcc s
  | .recordWrite => Sys2Proof.Machine.execRecordWrite s
  | .dbgReq => Sys2Proof.Machine.execDbgReq s
  | .dbgReqRelease => Sys2Proof.Machine.execDbgReqRelease s
  | .dbgReqTimeout => Sys2Proof.Machine.execDbgReqTimeout s
  | .dbgVref on => Sys2Proof.Machine.execDbgVref on s
  | .servicePortLink port up => Sys2Proof.Machine.execServicePortLink port up s
  | .badOpcode p => Sys2Proof.Machine.execBadOpcode p s
  | .closeNotify cid => Sys2Proof.Machine.execCloseNotify cid s
  | .clientKeyUpdate cid => Sys2Proof.Machine.execClientKeyUpdate cid s
  | .standbyRequest => Sys2Proof.Machine.execStandbyRequest s
  | .cartridgeRemove bay => Sys2Proof.Machine.execCartridgeRemove bay s
  | .sgmiiLink up => Sys2Proof.Machine.execSgmiiLink up s

end Sys2Proof.Machine
end

