-- ==== Sys2Proof/Safety.lean ====
section
/-!
DEFINITION. What counts as a safe run, in the terms the statements use: a step that answers a next state, and a slot command that
issues without a hold, a breach or a fault (R29, R39, R167).
-/

namespace Sys2Proof.Machine

/-- A command answers a next state: neither a fault nor a refusal. -/
def Completes (i : Instr) (s : State) : Prop := ∃ t, exec i s = .next t

/-- A run of `k` steps meets no fault and no refusal. -/
def SafeRun (k : Nat) (s : State) : Prop := ∃ t, Host.Core.run Sys2Proof.core k s = .next t

/-- A slot command issues in the open issue cycle of its core: the slot is an encoding the loader admits (R9), the core issues rows, its
gang is in no held turn, its check stage finds no hold condition (R38, R39, R41) and no breach (R167). -/
def State.mayIssue (s : State) (n : Nat) (i : Instr) : Bool :=
  i.wf && !(s.core n).frozen && !s.stalled n && (s.rowHolds n { row := [i] }).isEmpty && (s.slotBreach n i).isNone

/-- No word in these spans of a core's window holds a stored error that a read would count: R135. -/
def State.readsClean (s : State) (n : Nat) (spans : List (Nat × Nat)) : Bool :=
  spans.all (fun x => (s.pcore n).weak.all (fun w => !(s.pcore n).wordMet w x.1 x.2))

/-- A slot command issues, and its engine ports read no stored error (R135). -/
def State.issuesNow (s : State) (n : Nat) (i : Instr) : Bool := s.mayIssue n i && s.readsClean n (s.portSpans n i)

end Sys2Proof.Machine
end

