-- ==== Sys2Proof/Certificates/Slice0/Obligations.lean ====
section
/-!
DEFINITION. The statements about the block, for the provers: each says what a rule of the spec says a command or the machine does.
The conclusions are whole next states written out, so that what stands in none of their updates is unchanged: the frame. Statements
that rest on a choice of the model say so and name the log entry.
-/

namespace Sys2Proof.Claim

open Machine

/-! ### Words of the statements -/

/-- The state with one core put in another condition, every other core and everything else as it was. -/
def withCore (s : State) (n : Nat) (c : Core) : State := { s with cores := mset s.cores n c }

/-- The state with the physical core behind a core's window put in another condition. -/
def withPhys (s : State) (n : Nat) (p : Phys) : State := { s with phys := mset s.phys (s.physOf n) p }

/-- A core as an operation of core `n`'s task enters flight: every core of the task counts its quiet cycles from 0 again (R193). -/
def calmed (s : State) (n : Nat) (k : Core) : Core :=
  if (s.core n).task.isSome ∧ k.task = (s.core n).task then { k with quiet := 0 } else k

/-- Every core of core `n`'s task counts its quiet cycles from 0 again, and nothing else is changed: R193. -/
def stirred (s : State) (n : Nat) : State := { s with cores := s.cores.map (fun c => (c.1, calmed s n c.2)) }

/-- A transaction of core `n` is in flight, last of all and under the next number, and nothing else but the quiet counts of the core's
task is changed: R193. -/
def underWay (s : State) (n : Nat) (x : Txn) : State :=
  stirred { s with nextId := s.nextId + 1, flight := s.flight ++ [{ x with id := s.nextId }] } n

/-- The state in which core `n` has these writes on their way, and nothing else is changed: R27. -/
def issued (s : State) (n : Nat) (ps : List Pend) : State := withCore s n { s.core n with pipe := (s.core n).pipe ++ ps }

/-- The cycle now open at a core: the rows it has issued, and the cycles that have passed past its `task.end` (R27, R53, R190). -/
def now (s : State) (n : Nat) : Nat := (s.pcore n).rowCount + (s.core n).drained

/-- The next state of a row whose only effect is a scalar result of latency `lat`: a write to s0 is discarded (R25); rows see the
others after `lat` issue cycles, check operands after four more (R27, R30). -/
def scalar (s : State) (n : Nat) (r : BitVec 5) (lat : Nat) (v : BitVec 64) : State :=
  if r = 0 then s else issued s n [⟨now s n + lat, .sreg r v⟩, ⟨now s n + lat + 4, .sview r v⟩]

/-! ### The control slot -/

/-- The two-operand rows of R24: fields, latency, and the result from sa and B. -/
def aluRule (i : Instr) : Option (CSlot × Nat × (BitVec 64 → BitVec 64 → BitVec 64)) :=
  match i with
  | .sAdd c => some (c, 1, fun a b => BitVec.ofNat 64 (a.toNat + b.toNat))
  | .sSub c => some (c, 1, fun a b => BitVec.ofInt 64 (a.toInt - b.toInt))
  | .sAnd c => some (c, 1, fun a b => a &&& b)
  | .sOr c => some (c, 1, fun a b => a ||| b)
  | .sXor c => some (c, 1, fun a b => a ^^^ b)
  | .sShl c => some (c, 1, fun a b => BitVec.ofNat 64 (a.toNat * 2 ^ (b.toNat % 64)))
  | .sShr c => some (c, 1, fun a b => BitVec.ofNat 64 (a.toNat / 2 ^ (b.toNat % 64)))
  | .sSra c => some (c, 1, fun a b => BitVec.ofInt 64 (a.toInt / 2 ^ (b.toNat % 64)))
  | .sSlt c => some (c, 1, fun a b => if a.toInt < b.toInt then 1 else 0)
  | .sSltu c => some (c, 1, fun a b => if a.toNat < b.toNat then 1 else 0)
  | .sSeq c => some (c, 1, fun a b => if a = b then 1 else 0)
  | .sMul c => some (c, 3, fun a b => BitVec.ofNat 64 (a.toNat * b.toNat))
  | _ => none

/-- The second operand of those rows: sb, or the sign-extended immediate when x[0] = 1 (R24). -/
def operand (c : CSlot) (k : Core) : BitVec 64 :=
  if c.x.getLsbD 0 then BitVec.ofInt 64 c.imm.toInt else k.readS c.sb

/-- The branches of R31 with the condition on sa, read as a check operand. -/
def branchRule (i : Instr) : Option (CSlot × (BitVec 64 → Prop)) :=
  match i with
  | .br c => some (c, fun _ => True)
  | .brZ c => some (c, fun a => a.toNat = 0)
  | .brNz c => some (c, fun a => a.toNat ≠ 0)
  | .brNeg c => some (c, fun a => a.toInt < 0)
  | _ => none

/-- Bits [11:0] of the immediate: R24. -/
def row (c : CSlot) : Nat := c.imm.toNat % 4096

/-- The loop rows of R32 with their count. -/
def loopRule (i : Instr) (k : Core) : Option (CSlot × Nat) :=
  match i with
  | .loopI c => some (c, c.imm.toNat / 4096)
  | .loopR c => some (c, (k.readChk c.sa).toNat)
  | _ => none

/-- The core after an acquire of a scope: its combined reads and lines of the scope's region are marked (R184), and the referee's
record of unacquired writes is cleared. -/
def acquired (n scope : Nat) (k : Core) : Core :=
  { k with unacquired := [], combine := k.combine.map (fun e => if inRegion n scope e.addr then { e with marked := true } else e) }

/-- imm[31:30] of a tally row: R175. -/
def scopeOf (c : CSlot) : Nat := c.imm.toNat / 2 ^ 30

/-- imm[29:0] of a tally row, sign-extended: R175. -/
def addendOf (c : CSlot) : Int := if c.imm.toNat % 2 ^ 30 < 2 ^ 29 then c.imm.toNat % 2 ^ 30 else (c.imm.toNat % 2 ^ 30 : Nat) - 2 ^ 30

/-- The owner that sd names: R175. -/
def ownerOf (c : CSlot) : Nat := 32 * (c.core.toNat / 32) + c.sd.toNat

/-- v of `tally.sig`: R175. -/
def valueOf (c : CSlot) (k : Core) : BitVec 32 := BitVec.ofInt 32 ((k.readChk c.sb).toNat + addendOf c)

/-- T of `tally.wait`: R175. -/
def targetOf (c : CSlot) (k : Core) : BitVec 32 := BitVec.ofInt 32 ((k.readChk c.sa).toNat + addendOf c)

/-- The core a slot command issues on; none for an event. -/
def slotCore (i : Instr) : Option CoreId :=
  match opC i, opM i, opV i, opB i, opD i with
  | some p, _, _, _, _ => some p.2.core
  | _, some p, _, _, _ => some p.2.core
  | _, _, some p, _, _ => some p.2.core
  | _, _, _, some p, _ => some p.2.core
  | _, _, _, _, some p => some p.2.core
  | none, none, none, none, none => none

end Sys2Proof.Claim

open Sys2Proof Sys2Proof.Machine Sys2Proof.Claim

/-! ### The queue, idling, reset -/

/-- A step takes the command at the front of the queue and runs it on the state with the queue's rest. -/
def Obligations.StepRunsTheFrontCommand : Prop :=
  ∀ (c : Instr) (rest : List Instr) (s : State), step { s with pending := c :: rest } = exec c { s with pending := rest }

/-- No command changes the queue behind it (the queue is the model's own: entry 7). -/
def Obligations.CommandsKeepTheQueue : Prop :=
  ∀ (c : Instr) (s t : State), exec c s = .next t → t.pending = s.pending

/-- R24: the two-operand scalar rows put their result into sd with their latency, and change nothing else. -/
def Sys2Proof.Claim.ScalarArithmetic : Prop :=
  ∀ (s : State) (i : Instr) (c : CSlot) (lat : Nat) (f : BitVec 64 → BitVec 64 → BitVec 64),
    aluRule i = some (c, lat, f) → s.issuesNow c.core.toNat i = true →
      exec i s = .next (scalar s c.core.toNat c.sd lat
        (f ((s.core c.core.toNat).readS c.sa) (operand c (s.core c.core.toNat))))

/-- R24: `s.li`, `s.lui` and `s.rdreg`. -/
def Sys2Proof.Claim.ScalarImmediatesAndRegisterReads : Prop :=
  ∀ (s : State) (c : CSlot),
    (s.issuesNow c.core.toNat (.sLi c) = true →
      exec (.sLi c) s = .next (scalar s c.core.toNat c.sd 1 (BitVec.ofInt 64 c.imm.toInt))) ∧
    (s.issuesNow c.core.toNat (.sLui c) = true →
      exec (.sLui c) s = .next (scalar s c.core.toNat c.sd 1
        (BitVec.ofNat 64 (c.imm.toNat * 2 ^ 32 + ((s.core c.core.toNat).readS c.sa).toNat % 2 ^ 32)))) ∧
    (s.issuesNow c.core.toNat (.sRdreg c) = true →
      exec (.sRdreg c) s = .next (scalar s c.core.toNat c.sd 2
        (BitVec.ofNat 64 (if row c = 0x10 then (s.pcore c.core.toNat).rowCount - (s.pcore c.core.toNat).rowBase
          else (s.coreReg c.core.toNat (row c)).getD 0))))

/-- R24: `s.ld` reads and `s.st` writes the 8 bytes at sa + imm of the core's own buffers. -/
def Sys2Proof.Claim.ScalarLoadAndStore : Prop :=
  ∀ (s : State) (c : CSlot),
    (s.issuesNow c.core.toNat (.sLd c) = true →
      exec (.sLd c) s = .next (scalar s c.core.toNat c.sd 6
        (BitVec.ofNat 64 (leNat (Memory.readN (s.pcore c.core.toNat).mem (c.addr (s.core c.core.toNat)) 8))))) ∧
    (s.issuesNow c.core.toNat (.sSt c) = true →
      exec (.sSt c) s = .next (issued s c.core.toNat
        [⟨now s c.core.toNat + 4, .bytes c.core.toNat (c.addr (s.core c.core.toNat))
          (leBytes 8 ((s.core c.core.toNat).readS c.sb).toNat)⟩]))

/-- R24: immediates, register reads, loads and stores of the control slot. -/
def Sys2Proof.Claim.ScalarMoves : Prop := Claim.ScalarImmediatesAndRegisterReads ∧ Claim.ScalarLoadAndStore

/-- R24, R25, R27, R30, R52: the scalar rows: arithmetic, comparisons and shifts, immediates, register reads, loads and
stores. -/
def Obligations.ScalarRows : Prop := Claim.ScalarArithmetic ∧ Claim.ScalarMoves

/-- R31: a branch sets the next row when its condition holds of sa as the check stage reads it, and changes nothing else. -/
def Sys2Proof.Claim.Branches : Prop :=
  ∀ (s : State) (i : Instr) (c : CSlot) (p : BitVec 64 → Prop), branchRule i = some (c, p) →
    s.issuesNow c.core.toNat i = true →
      (p ((s.core c.core.toNat).readChk c.sa) →
        exec i s = .next (withCore s c.core.toNat { s.core c.core.toNat with next := some (row c) })) ∧
      (¬ p ((s.core c.core.toNat).readChk c.sa) → exec i s = .next s)

/-- R32: a loop row with a count starts a level over the rows behind it; a count of 0 goes on behind the last row. -/
def Sys2Proof.Claim.Loops : Prop :=
  ∀ (s : State) (i : Instr) (c : CSlot) (count : Nat), loopRule i (s.core c.core.toNat) = some (c, count) →
    s.issuesNow c.core.toNat i = true →
      (count ≠ 0 → exec i s = .next (withCore s c.core.toNat { s.core c.core.toNat with
        loops := ⟨c.x.toNat % 4, 0, count, (s.core c.core.toNat).pc + 1, row c⟩ :: (s.core c.core.toNat).loops })) ∧
      (count = 0 →
        exec i s = .next (withCore s c.core.toNat { s.core c.core.toNat with
          loops := (afterRow (row c) (s.core c.core.toNat).loops).1, next := some (afterRow (row c) (s.core c.core.toNat).loops).2 }) ∧
        ((∀ l ∈ (s.core c.core.toNat).loops, l.last ≠ row c) →
          afterRow (row c) (s.core c.core.toNat).loops = ((s.core c.core.toNat).loops, row c + 1)))

/-- R31, R32: where the next row comes from: branches, and loop levels that begin. -/
def Obligations.BranchesAndLoops : Prop := Claim.Branches ∧ Claim.Loops

/-- R34: `sb.def` sets base and end to the two check operands and enable to 1, and leaves outstanding unchanged. -/
def Sys2Proof.Claim.RangeDefinition : Prop :=
  ∀ (s : State) (c : CSlot), s.issuesNow c.core.toNat (.sbDef c) = true →
    exec (.sbDef c) s = .next (withCore s c.core.toNat { s.core c.core.toNat with
      ranges := mset (s.core c.core.toNat).ranges c.x.toNat
        { base := ((s.core c.core.toNat).readChk c.sa).toNat, fin := ((s.core c.core.toNat).readChk c.sb).toNat,
          outstanding := (mget {} (s.core c.core.toNat).ranges c.x.toNat : Range).outstanding, enable := true } })

/-- R190: `task.end` lets no later row of the task issue at the core, and changes nothing else. -/
def Sys2Proof.Claim.TaskEndRow : Prop :=
  ∀ (s : State) (c : CSlot), s.issuesNow c.core.toNat (.taskEnd c) = true →
    exec (.taskEnd c) s = .next (withCore s c.core.toNat { s.core c.core.toNat with phase := .ended }) ∧
    ∀ (d : CSlot), d.core = c.core → d.wfAlu = true →
      exec (.sAdd d) (withCore s c.core.toNat { s.core c.core.toNat with phase := .ended }) =
        .next (withCore s c.core.toNat { s.core c.core.toNat with phase := .ended })

/-- R34, R190: the range definition and the end of a task's rows. -/
def Obligations.ControlRows : Prop := Claim.RangeDefinition ∧ Claim.TaskEndRow

/-- R175 to R177, R183: the value of a `tally.sig` reaches the core's own tally in the issue cycle, sets out for another core of the
panel, or waits for the outbound writes of its scope. -/
def Sys2Proof.Claim.TallySignal : Prop :=
  ∀ (s : State) (c : CSlot), s.issuesNow c.core.toNat (.tallySig c) = true →
    (s.outbound c.core.toNat (scopeOf c) = [] → ownerOf c = c.core.toNat → (s.core c.core.toNat).reqs = [] →
      exec (.tallySig c) s = .next (withCore s c.core.toNat { s.core c.core.toNat with
        tallies := mset (s.core c.core.toNat).tallies c.x.toNat
          (mget 0 (s.core c.core.toNat).tallies c.x.toNat + valueOf c (s.core c.core.toNat)) })) ∧
    (s.outbound c.core.toNat (scopeOf c) = [] → ownerOf c ≠ c.core.toNat →
      exec (.tallySig c) s = .next (underWay s c.core.toNat
        { id := 0, kind := .tallyAdd, core := c.core.toNat, dst := 0x10000000000 + ownerOf c * 2 ^ 24 + 0xF00000 + 8 * c.x.toNat,
          data := leBytes 4 (valueOf c (s.core c.core.toNat)).toNat, origin := .release c.core.toNat 0 })) ∧
    (s.outbound c.core.toNat (scopeOf c) ≠ [] →
      exec (.tallySig c) s = .next { withCore s c.core.toNat { s.core c.core.toNat with rels := (s.core c.core.toNat).rels ++
        [{ id := s.nextId, addr := 0x10000000000 + ownerOf c * 2 ^ 24 + 0xF00000 + 8 * c.x.toNat,
           value := valueOf c (s.core c.core.toNat), waits := s.outbound c.core.toNat (scopeOf c),
           origin := .release c.core.toNat 0 }] } with nextId := s.nextId + 1 })

/-- R176, R177, R184, R51, R55: a wait met and a take granted at the core's own unit raise no hold: an acquire of the scope, the take's
count less 1; a bank flip is a take on tally 63 that switches the bank, from when on the loader writes the next segment (R193, R236). -/
def Sys2Proof.Claim.TallyAcquires : Prop :=
  ∀ (s : State) (c : CSlot),
    (s.issuesNow c.core.toNat (.tallyWait c) = true →
      ownerOf c = c.core.toNat ∧ 0 ≤ (mget 0 (s.core c.core.toNat).tallies c.x.toNat - targetOf c (s.core c.core.toNat)).toInt ∧
      exec (.tallyWait c) s = .next (withCore s c.core.toNat (acquired c.core.toNat (scopeOf c) (s.core c.core.toNat)))) ∧
    (s.issuesNow c.core.toNat (.tallyTake c) = true →
      ownerOf c = c.core.toNat ∧ 1 ≤ (mget (0 : BitVec 32) (s.core c.core.toNat).tallies c.x.toNat).toInt ∧
      ∃ t, exec (.tallyTake c) s = .next t ∧
        t = { s with cores := t.cores } ∧ (∀ m, m ≠ c.core.toNat → t.core m = s.core m) ∧
        t.core c.core.toNat = { acquired c.core.toNat (scopeOf c) (s.core c.core.toNat) with
          tallies := mset (s.core c.core.toNat).tallies c.x.toNat (mget 0 (s.core c.core.toNat).tallies c.x.toNat - 1) }) ∧
    (s.issuesNow c.core.toNat (.bankFlip c) = true →
      1 ≤ (mget (0 : BitVec 32) (s.core c.core.toNat).tallies 63).toInt ∧
      ∃ t, exec (.bankFlip c) s = .next t ∧
        t = { s with cores := t.cores } ∧ (∀ m, m ≠ c.core.toNat → t.core m = calmed s c.core.toNat (s.core m)) ∧
        t.core c.core.toNat = calmed s c.core.toNat { acquired c.core.toNat 0 (s.core c.core.toNat) with
          tallies := mset (s.core c.core.toNat).tallies 63 (mget 0 (s.core c.core.toNat).tallies 63 - 1),
          bank := 1 - (s.core c.core.toNat).bank, flips := ((s.core c.core.toNat).flips + 1) % 65536, next := some (row c) })

/-- R51, R55, R175 to R177, R183, R184: the tally rows and the bank flip: signals, waits that are met, takes that are
granted. -/
def Obligations.TallyRows : Prop := Claim.TallySignal ∧ Claim.TallyAcquires

/-! ### Holds, breaches, reserved encodings -/

/-- R38, R39, R54: a slot that finds hold conditions does nothing but begin a held turn with the lowest cause among them (a core in no
gang, a slot without a tally request, no breakpoints armed). -/
def Sys2Proof.Claim.HeldSlots : Prop :=
  ∀ (s : State) (i : Instr) (core : CoreId), slotCore i = some core → i.wf = true → (s.core core.toNat).frozen = false →
    (s.core core.toNat).inGang = false → s.stalled core.toNat = false → s.debugOf core.toNat = none →
    (s.core core.toNat).tallyReq i = none →
    s.rowHolds core.toNat { row := [i] } ≠ [] →
      ∃ c ∈ s.rowHolds core.toNat { row := [i] }, (∀ h ∈ s.rowHolds core.toNat { row := [i] }, c.1 ≤ h.1) ∧
        exec i s = .next (withCore s core.toNat { s.core core.toNat with
          held := some { cause := c.1, detail := c.2, tag := 0, row := [i],
                         broke := (s.rowHolds core.toNat { row := [i] }).any (fun h => h.1 == 0xE) } })

/-- R24, R38: a breakpoint row holds with BREAK, which no other condition of the slot outranks but a lower code; it changes nothing
else of its core's registers. -/
def Sys2Proof.Claim.BreakpointHolds : Prop :=
  ∀ (s : State) (c : CSlot), (Instr.brk c).wf = true → (s.core c.core.toNat).frozen = false →
    (s.core c.core.toNat).inGang = false → s.stalled c.core.toNat = false → s.debugOf c.core.toNat = none →
    s.draining c.core.toNat = false →
      exec (.brk c) s = .next (withCore s c.core.toNat { s.core c.core.toNat with
        held := some { cause := 0xE, detail := 0, tag := 0, row := [.brk c], broke := true } })

/-- R38, R176, R177: a wait on an own tally that is not met holds with TALLY_WAIT and stands pending at the unit; a take that cannot
be granted holds with TALLY_TAKE. -/
def Sys2Proof.Claim.TallyHolds : Prop :=
  ∀ (s : State) (c : CSlot), (s.core c.core.toNat).frozen = false → (s.core c.core.toNat).inGang = false →
    s.stalled c.core.toNat = false → s.debugOf c.core.toNat = none → s.draining c.core.toNat = false →
    (s.core c.core.toNat).stepLeft ≠ some 0 →
    (s.core c.core.toNat).reqs = [] → ownerOf c = c.core.toNat →
    ((Instr.tallyWait c).wf = true →
      (mget 0 (s.core c.core.toNat).tallies c.x.toNat - targetOf c (s.core c.core.toNat)).toInt < 0 →
      ∃ t, exec (.tallyWait c) s = .next t ∧ t = { s with cores := t.cores } ∧ (∀ m, m ≠ c.core.toNat → t.core m = s.core m) ∧
        t.core c.core.toNat = { s.core c.core.toNat with
          held := some { cause := 7, detail := c.x.toNat, tag := 0, row := [.tallyWait c], asked := true },
          reqs := [⟨c.core.toNat, c.x.toNat, some (targetOf c (s.core c.core.toNat)), scopeOf c⟩] }) ∧
    ((Instr.tallyTake c).wf = true → (mget (0 : BitVec 32) (s.core c.core.toNat).tallies c.x.toNat).toInt < 1 →
      ∃ t, exec (.tallyTake c) s = .next t ∧ t = { s with cores := t.cores } ∧ (∀ m, m ≠ c.core.toNat → t.core m = s.core m) ∧
        t.core c.core.toNat = { s.core c.core.toNat with
          held := some { cause := 8, detail := c.x.toNat, tag := 0, row := [.tallyTake c], asked := true },
          reqs := [⟨c.core.toNat, c.x.toNat, none, scopeOf c⟩] })

/-- R24, R38, R176, R177: the holds of breakpoints and of tally rows. -/
def Sys2Proof.Claim.OwnHolds : Prop := Claim.BreakpointHolds ∧ Claim.TallyHolds

/-- R24, R38, R39, R54, R176, R177: what a slot that is held does, and the holds that a row brings about itself. -/
def Obligations.HoldConditions : Prop := Claim.HeldSlots ∧ Claim.OwnHolds

/-- R167, R362, R367: a slot that breaches a rule ends its task with PROGRAM_FAULT, or with CANCELLED where CANCEL has reached it: every
core of the task stops and has nothing queued, and no buffer and no byte of HBM changes. -/
def Obligations.BreachEndsTheTask : Prop :=
  ∀ (s : State) (i : Instr) (core : CoreId) (rule detail k : Nat) (x : Task), slotCore i = some core → i.wf = true →
    (s.core core.toNat).frozen = false → s.stalled core.toNat = false → s.rowHolds core.toNat { row := [i] } = [] →
    s.slotBreach core.toNat i = some (rule, detail) → s.lostTwinAccess core.toNat detail = false →
    (s.core core.toNat).task = some k → s.task k = some x → x.live = true → k ∈ s.batchOf k →
      ∃ t, exec i s = .next t ∧ t.phys = s.phys ∧ t.hbm = s.hbm ∧
        (∃ y, t.task k = some y ∧ y.state = .complete ∧ y.status = (if x.cancelled then 0x32 else 0x31) ∧ y.result = []) ∧
        ∀ m, (s.core m).task = some k → (t.core m).phase = .stopped ∧ (t.core m).task = none ∧ (t.core m).queues = [] ∧
          (t.core m).short = [] ∧ (t.core m).pipe = [] ∧ (t.core m).cable = none ∧ (t.core m).s = (s.core m).s ∧
          (t.core m).v = (s.core m).v

/-- The short-path rows, whose parameters lie in a command word: R156. -/
def Sys2Proof.Claim.shortSlot (i : Instr) : Option BSlot :=
  match i with
  | .spPut b | .spGet b | .spSig b | .spWord b => some b
  | _ => none

/-- R9, R22, R240: a slot that is no encoding the loader admits never issues: it is refused by name. A short-path command with a bit set
that is reserved ends its task instead, with rule 9, where its core issues rows and is in no held turn. -/
def Obligations.ReservedSlotsAreRefused : Prop :=
  ∀ (s : State) (i : Instr) (core : CoreId), slotCore i = some core → i.wf = false →
    (Claim.shortSlot i = none → ∃ name, exec i s = .refused (.reservedEncoding name)) ∧
    (∀ b, Claim.shortSlot i = some b →
      ((s.core core.toNat).frozen = true ∨ s.stalled core.toNat = true → exec i s = .next s) ∧
      ((s.core core.toNat).frozen = false → s.stalled core.toNat = false → ∀ k x, (s.core core.toNat).task = some k → s.task k = some x →
        x.live = true → k ∈ s.batchOf k → s.lostTwinAccess core.toNat b.f.toNat = false →
          ∃ t y, exec i s = .next t ∧ t.phys = s.phys ∧ t.hbm = s.hbm ∧ t.task k = some y ∧ y.state = .complete ∧
            y.status = (if x.cancelled then 0x32 else 0x31)))

/-! ### The matrix engine -/

namespace Sys2Proof.Claim

/-- q is v × 2^d rounded to the nearest integer with ties to even: RHE of R58. -/
def nearest (v d q : Int) : Prop :=
  if 0 ≤ d then q = v * 2 ^ d.toNat
  else |2 * (q * 2 ^ (-d).toNat - v)| < 2 ^ (-d).toNat ∨ (|2 * (q * 2 ^ (-d).toNat - v)| = 2 ^ (-d).toNat ∧ q % 2 = 0)

/-- The exact sum over 128 rows of the products of elements: R58. -/
def products (x : List Int) (sRow : Nat → List Int) (c : Nat) : Int :=
  ((List.range 128).map (fun k => x.getD k 0 * (sRow k).getD c 0)).sum

/-- The pass that a matrix row makes of the bytes its spans hold: R57, R61, R77. -/
def passOf (s : State) (m : MSlot) (diag : Bool) : PassIn :=
  let n := m.core.toNat
  let mem := (s.pcore n).mem
  { plane := if m.keepS then (s.core n).mx.active else some
      { fmt := m.sFmt, diag := diag,
        bytes := Memory.readN mem (m.sBase (s.core n)) (if diag then 16 * sBits m.sFmt else sTileBytes m.sFmt) },
    xFmt := m.xFmt, shift8 := m.sShift8, cols := 512,
    rows := (List.range m.rows).map (fun i =>
      let d := Memory.readN mem (m.xBase (s.core n) + i * xRowBytes m.xFmt) (xRowBytes m.xFmt)
      (unpackElems m.xFmt (xContainer m.xFmt) 128 d,
       if isBS m.xFmt then (List.range 4).map (fun i => sextN 8 (leAt d (16 * xContainer m.xFmt + i) 1)) else [])) }

/-- Value (e, c) of ACC, signed: R63. -/
def accAt (p : Phys) (e c : Nat) : Int := (mget (0 : BitVec 32) p.acc (512 * e + c)).toInt

/-- A value clamped to the signed range of `w` bits. -/
def clamp (w : Nat) (v : Int) : Int := max (-(2 ^ (w - 1) : Nat)) (min ((2 ^ (w - 1) : Nat) - 1) v)

end Sys2Proof.Claim

/-- R58, RHE: the engine's rounding is to the nearest integer with ties to even, for every value and exponent. -/
def Sys2Proof.Claim.RoundHalfEven : Prop := ∀ v d : Int, nearest v d (rheInt v d)

/-- R58, R77, R446: a pass result is the exact sum of the products of the rounded X elements and the column of S, or on a diagonal the
one product; padding columns carry 0. -/
def Obligations.PassResult : Prop :=
  ∀ (q : PassIn) (p : Plane) (m r c : Nat) (xs es : List Int), q.plane = some p → q.rows[m]? = some (xs, es) → xs.length = 128 →
    (isBS q.xFmt = true → es.length = 4) → c < 512 → q.cols ≤ 512 →
      let top : Int := if isBS q.xFmt then es.foldl max (es.headD 0) else 0
      ∃ x : List Int, x.length = 128 ∧
        (∀ k < 128, nearest (xs.getD k 0) ((if isBS q.xFmt then es.getD (k / 32) 0 - top else 0) - r) (x.getD k 0)) ∧
        (q.result m r).2 = top + r + (if q.shift8 then 8 else 0) ∧
        (q.result m r).1.getD c 0 =
          (if q.cols ≤ c then 0
           else if p.diag then (if c < 128 then x.getD c 0 * (unpackElems p.fmt (sBits p.fmt) 128 p.bytes).getD c 0 else 0)
           else products x p.row c)

/-- R61, R63, R64, R77: `mm.pass` and `mm.diag` write, or add with saturation, the pass results into entries e0 to e0 + M − 1, and
change nothing but those entries and the engine's own timing (no writes on their way to the spans; rows, not checkerboard columns). -/
def Sys2Proof.Claim.MatrixPass : Prop :=
  ∀ (s : State) (m : MSlot) (diag : Bool), s.issuesNow m.core.toNat (if diag then .mmDiag m else .mmPass m) = true →
    (s.core m.core.toNat).inGang = false → (s.core m.core.toNat).pipe = [] → m.xCb = false →
    let n := m.core.toNat
    let q := passOf s m diag
    ∃ t, exec (if diag then .mmDiag m else .mmPass m) s = .next t ∧
      t = { s with cores := t.cores, phys := t.phys, nextId := s.nextId + 1 } ∧
      (∀ k, k ≠ n → t.core k = s.core k) ∧ (∀ k, k ≠ s.physOf n → t.ph k = s.ph k) ∧
      t.core n = { s.core n with mx := (t.core n).mx } ∧
      t.pcore n = { s.pcore n with acc := (t.pcore n).acc, eTag := (t.pcore n).eTag, sat := (t.pcore n).sat } ∧
      (∀ e c, c < 512 → (e < m.e0 ∨ m.e0 + m.rows ≤ e) →
        accAt (t.pcore n) e c = accAt (s.pcore n) e c ∧ (t.pcore n).exp e = (s.pcore n).exp e) ∧
      ∀ i c, i < m.rows → c < 512 →
        let e := m.e0 + i
        let p := q.result i ((s.pcore n).rOf e)
        (m.acc = false → accAt (t.pcore n) e c = (BitVec.ofInt 32 (p.1.getD c 0)).toInt ∧ (t.pcore n).exp e = fitExp p.2) ∧
        (m.acc = true → ∃ a b, nearest (accAt (s.pcore n) e c) ((s.pcore n).exp e - max ((s.pcore n).exp e) p.2) a ∧
          nearest (p.1.getD c 0) (p.2 - max ((s.pcore n).exp e) p.2) b ∧
          accAt (t.pcore n) e c = clamp 32 (a + b) ∧ (t.pcore n).exp e = fitExp (max ((s.pcore n).exp e) p.2))

/-- R59, R60, R62: on an engine that has done nothing, a pass that loads its tile is outstanding until its last ACC write,
16·s_w + 6 + L_pass + (M − 1)·b cycles after its issue, with L_pass = 8 + b + log2(g) + 128/g + 4. -/
def Sys2Proof.Claim.PassTiming : Prop :=
  ∀ (s : State) (m : MSlot), s.issuesNow m.core.toNat (.mmPass m) = true → (s.core m.core.toNat).mx = {} → m.keepS = false →
    ∃ t, exec (.mmPass m) s = .next t ∧ (t.core m.core.toNat).mx.work =
      [{ id := s.nextId, output := false,
         doneAt := now s m.core.toNat + 16 * sBits m.sFmt + 6 + (8 + xBits m.xFmt + Nat.log2 (4 * 2 ^ m.g) + 128 / (4 * 2 ^ m.g) + 4) +
           (m.rows - 1) * xBits m.xFmt }]

/-- The state with other contents of core `n`'s buffers. -/
def withMem (s : State) (n : Nat) (mem : List (Nat × BitVec 8)) : State := withPhys s n { s.pcore n with mem := mem }

/-- R62: a pass reads what its spans hold in the cycle it reads. Whatever the buffers hold once the row has issued, and before the engine
reads, the pass that the cycle's end settles is the one that would have issued over those bytes; and once every read has been made, no
contents change it (an engine from which no row still reads, and no write on its way). -/
def Sys2Proof.Claim.LateReads : Prop :=
  ∀ (s : State) (m : MSlot) (mem : List (Nat × BitVec 8)), s.issuesNow m.core.toNat (.mmPass m) = true →
    (s.core m.core.toNat).inGang = false → (s.core m.core.toNat).pipe = [] →
    (s.core m.core.toNat).mx.base = none → (s.core m.core.toNat).mx.script = [] → (s.core m.core.toNat).mx.seen = [] →
    let n := m.core.toNat
    ∃ t u, exec (.mmPass m) s = .next t ∧ exec (.mmPass m) (withMem s n mem) = .next u ∧
      (let v := (withMem t n mem).resettle n (now s n)
       (v.pcore n).acc = (u.pcore n).acc ∧ (v.pcore n).eTag = (u.pcore n).eTag ∧ (v.pcore n).sat = (u.pcore n).sat) ∧
      ∀ c, (∀ x ∈ (t.core n).mx.seen, x.1.due < c) →
        (withMem t n mem).resettle n c = withCore (withMem t n mem) n { t.core n with mx := (t.core n).mx.close }

/-- R59 to R64, R77: the passes, their time, and when they read. -/
def Obligations.MatrixPasses : Prop := Claim.MatrixPass ∧ Claim.PassTiming ∧ Claim.LateReads

/-- R61, R62, R65, R72: `mm.drain` is outstanding until its last output write, is counted into the ranges its output span overlaps,
and sends one output row of its entries after another on its way, each 8 cycles after its entry is read, in the order of the entries;
with clear = 1 it zeroes the entries with their tag words, with clear = 0 ACC is unchanged. An adding output adds to what the PB holds
(stated with no write on its way and rows that do not overlap). -/
def Sys2Proof.Claim.MatrixDrain : Prop :=
  ∀ (s : State) (m : MSlot), s.issuesNow m.core.toNat (.mmDrain m) = true →
    let n := m.core.toNat
    let x := s.pcore n
    ∃ t, ∃ reads : List Nat, exec (.mmDrain m) s = .next t ∧ reads.length = m.drainCount ∧
      (∀ j, j + 1 < m.drainCount → reads.getD j 0 + outRate m.out ≤ reads.getD (j + 1) 0) ∧
      (∀ j, j < m.drainCount → now s n ≤ reads.getD j 0 ∧
        ∀ u, mfind (s.core n).mx.entLast (m.drainE0 + j) = some u → u < reads.getD j 0) ∧
      t = { s with cores := t.cores, phys := t.phys, nextId := s.nextId + 1 } ∧ (∀ k, k ≠ n → t.core k = s.core k) ∧
      (∀ k, k ≠ s.physOf n → t.ph k = s.ph k) ∧
      t.core n = { s.core n with mx := (t.core n).mx, pipe := (t.core n).pipe, ranges := (t.core n).ranges } ∧
      t.pcore n = { x with acc := (t.pcore n).acc, eTag := (t.pcore n).eTag, rTag := (t.pcore n).rTag, ovf := (t.pcore n).ovf,
                           sat := (t.pcore n).sat } ∧
      (m.bits 19 19 = 0 → t.phys = s.phys) ∧
      (m.bits 19 19 = 1 → ∀ j, j < m.drainCount → ∀ c, c < 512 → accAt (t.pcore n) (m.drainE0 + j) c = 0 ∧
        (t.pcore n).exp (m.drainE0 + j) = 0 ∧ (t.pcore n).rOf (m.drainE0 + j) = 0) ∧
      (∃ w ∈ (t.core n).mx.work, w.id = s.nextId ∧ w.output = true ∧ w.ranges = s.deliverRanges n (.mmDrain m) ∧
        w.doneAt = reads.getD (m.drainCount - 1) 0 + 8) ∧
      (t.core n).ranges = ((s.core n).countUp (s.deliverRanges n (.mmDrain m))).ranges ∧
      ∃ rows : List (List Byte), rows.length = m.drainCount ∧
        (t.core n).pipe = (s.core n).pipe ++ (List.range m.drainCount).map (fun j =>
          (⟨reads.getD j 0 + 8, .mout s.nextId (m.oBase (s.core n) + j * m.oStride) (rows.getD j [])⟩ : Pend)) ∧
        ∀ j c, j < m.drainCount → c < 512 →
          let e := x.exp (m.drainE0 + j)
          let v := accAt x (m.drainE0 + j) c
          let old := Memory.readN x.mem (m.oBase (s.core n) + j * m.oStride + 8 * c) 8
          let sum := pbAdd (sextN 56 (leAt old 0 7)) (sextN 8 (leAt old 7 1)) v e
          (m.out = 0 → sextN 56 (leAt (rows.getD j []) (8 * c) 7) = v ∧ sextN 8 (leAt (rows.getD j []) (8 * c + 7) 1) = fitExp e) ∧
          (m.out = 1 → (s.core n).inGang = false → (s.core n).pipe = [] → 4096 ≤ m.oStride →
            sextN 56 (leAt (rows.getD j []) (8 * c) 7) = sum.1 ∧ sextN 8 (leAt (rows.getD j []) (8 * c + 7) 1) = fitExp sum.2.1) ∧
          (2 ≤ m.out → ∃ y, nearest v (e - m.bits 23 20) y ∧
            sextN (8 * outBytes m.out) (leAt (rows.getD j []) (outBytes m.out * c) (outBytes m.out)) = clamp (8 * outBytes m.out) y)

/-- R66: the PB64 sum of (a, E_a) into (v, E): T, the alignment with RHE, and the realignment of a sum beyond 56 bits. -/
def Sys2Proof.Claim.Pb64Sum : Prop :=
  ∀ v e a ea : Int, ∃ x y : Int,
    nearest v (e - max e (ea - 24)) x ∧ nearest a (ea - max e (ea - 24)) y ∧
    ((-(2 ^ 55) ≤ x + y ∧ x + y < 2 ^ 55) → pbAdd v e a ea = (x + y, max e (ea - 24), false)) ∧
    (¬ (-(2 ^ 55) ≤ x + y ∧ x + y < 2 ^ 55) → ∃ z, nearest (x + y) (-8) z ∧ pbAdd v e a ea = (z, max e (ea - 24) + 8, true))

/-- R58, R66: the engine's rounding and its PB64 sum. -/
def Obligations.EngineRounding : Prop := Claim.RoundHalfEven ∧ Claim.Pb64Sum

/-- R79: `mm.mon` stores the 128-byte monitor block, visible 4 cycles after all preceding work of the engine completes in cycle d, clears
the block and installs the new bases; it is itself outstanding until then. -/
def Sys2Proof.Claim.MonitorStore : Prop :=
  ∀ (s : State) (m : MSlot), s.issuesNow m.core.toNat (.mmMon m) = true →
    let n := m.core.toNat
    let k := s.core n
    ∃ d, now s n ≤ d ∧ (∀ w ∈ k.mx.work, w.doneAt ≤ d) ∧ (d = now s n ∨ ∃ w ∈ k.mx.work, w.doneAt = d) ∧
      exec (.mmMon m) s = .next { withCore s n { k with
        pipe := k.pipe ++ [⟨d + 4, .mout s.nextId (m.monAddr k) k.mx.mon.block⟩],
        mx := { k.mx with
          script := k.mx.noted (.mon s.nextId (now s n) m (m.monAddr k)),
          mon := { histBase := sextN 8 (m.bits 23 16), satExp := sextN 8 (m.bits 31 24) },
          work := k.mx.work.filter (fun w => decide (now s n < w.doneAt) || w.output || !w.rescales.isEmpty) ++
            [{ id := s.nextId, doneAt := d + 4, output := false }] } } with nextId := s.nextId + 1 }

/-- R61, R62, R72: `mm.tile` is outstanding until its last output write and is counted into the ranges its output span overlaps; it
changes only its core's engine, ACC and the output rows it sends on their way. -/
def Sys2Proof.Claim.MatrixTile : Prop :=
  ∀ (s : State) (m : MSlot), s.issuesNow m.core.toNat (.mmTile m) = true →
    let n := m.core.toNat
    ∃ t, exec (.mmTile m) s = .next t ∧ t = { s with cores := t.cores, phys := t.phys, nextId := s.nextId + 1 } ∧
      (∀ k, k ≠ n → t.core k = s.core k) ∧ (∀ k, k ≠ s.physOf n → t.ph k = s.ph k) ∧
      t.core n = { s.core n with mx := (t.core n).mx, pipe := (t.core n).pipe, ranges := (t.core n).ranges } ∧
      t.pcore n = { s.pcore n with acc := (t.pcore n).acc, eTag := (t.pcore n).eTag, rTag := (t.pcore n).rTag,
                                   ovf := (t.pcore n).ovf, sat := (t.pcore n).sat } ∧
      (t.core n).ranges = ((s.core n).countUp (s.deliverRanges n (.mmTile m))).ranges ∧
      (∃ w ∈ (t.core n).mx.work, w.id = s.nextId ∧ w.output = true ∧ w.ranges = s.deliverRanges n (.mmTile m)) ∧
      ∃ ps, (t.core n).pipe = (s.core n).pipe ++ ps ∧ ∀ p ∈ ps, ∃ off b, p.dst = .mout s.nextId off b

/-- R61, R62, R65, R72: the output rows of `mm.drain` and `mm.tile`. -/
def Obligations.DrainAndTile : Prop := Claim.MatrixDrain ∧ Claim.MatrixTile

/-- R40, R75, R76, R80: a rescale sequence that is due is counted and stops issue with the late cause RESCALE, for the length of the
sequence less the four cycles after its cause is clear; its entries no longer await it, and its row goes on to the next. Held cycles of
it pass, as many as the command says at most; once none is left, its cause is clear, and four held cycles follow. Neither changes anything
where no sequence is due or over. -/
def Sys2Proof.Claim.RescaleSequence : Prop :=
  ∀ (s : State) (core : CoreId),
    let n := core.toNat
    let k := s.core n
    (s.rescaleDue n = none → exec (.rescale core) s = .next s) ∧
    (∀ w u, s.rescaleDue n = some (w, u) →
      exec (.rescale core) s = .next (withPhys (withCore s n { k with
        late := if k.phase = .running ∨ k.phase = .ended then
            k.late ++ [{ cause := 0xC, detail := 0, after := 0, left := k.mx.rescaleLength u - 4, clear := false }]
          else k.late,
        mx := { k.mx.count 1 0 0 0 with
          script := k.mx.noted (.rescaled w.id u.entries),
          work := k.mx.work.map (fun y => if y.id = w.id then { y with rescales := y.rescales.drop 1 } else y) } }) n
        { s.pcore n with ovf := (s.pcore n).ovf.filter (fun e => !u.entries.contains e) })) ∧
    (∀ cycles, cycles = 0 ∨ s.lateIn n = false ∨ s.mayPass n = false →
      exec (.rescaleClear core cycles) s = .next (withCore s n { k with late := k.late.map (fun l =>
        if l.cause = 0xC ∧ l.after = 0 ∧ l.clear = false ∧ l.left = 0 then { l with left := 4, clear := true } else l) })) ∧
    (∀ cycles u, s.lateIn n = true → s.mayPass n = true → s.heldCycle n [] = some u →
      exec (.rescaleClear core (cycles + 1)) s = exec (.rescaleClear core cycles) u)

/-- R72, R190: once the last output value of the oldest `mm.tile` or `mm.drain` is written, its counts are removed from the ranges; its
output rows have landed, and no byte outside them changes. Where no output has come so far, nothing is changed. -/
def Sys2Proof.Claim.TileOutputDone : Prop :=
  ∀ (s : State) (core : CoreId),
    let n := core.toNat
    let oldest := (s.core n).mx.work.find? (fun w => w.output && decide (w.doneAt ≤ now s n))
    (oldest = none → exec (.mmTileOutputDone core) s = .next s) ∧
    ∀ w, oldest = some w →
      ∃ t, exec (.mmTileOutputDone core) s = .next t ∧ t = { s with cores := t.cores, phys := t.phys } ∧
        (∀ k, k ≠ n → t.core k = s.core k) ∧ (∀ k, k ≠ s.physOf n → t.ph k = s.ph k) ∧
        t.core n = { s.core n with pipe := (t.core n).pipe, chkOld := (t.core n).chkOld, ranges := (t.core n).ranges,
                                   mx := { (s.core n).mx with work := (t.core n).mx.work, script := (t.core n).mx.script } } ∧
        t.pcore n = { s.pcore n with mem := (t.pcore n).mem, weak := (t.pcore n).weak } ∧
        (t.core n).ranges = ((s.core n).countDown w.ranges).ranges ∧
        (∀ x ∈ (t.core n).mx.work, x.id = w.id → x.output = false) ∧
        (∀ p ∈ (t.core n).pipe, p.due ≤ w.doneAt → ∀ off b, p.dst ≠ .mout w.id off b) ∧
        ∀ a, (∀ p ∈ (s.core n).pipe, ∀ off b, p.dst = .mout w.id off b → p.due ≤ w.doneAt → a < off ∨ off + b.length ≤ a) →
          Memory.read (t.pcore n).mem a = Memory.read (s.pcore n).mem a

/-- R40, R72, R75, R76, R80: the engine's rescale sequences and the end of an output. -/
def Sys2Proof.Claim.EngineEvents : Prop := Claim.RescaleSequence ∧ Claim.TileOutputDone

/-- R40, R75, R76, R79, R80: `mm.mon`, the rescale sequence and the end of a tile's output. -/
def Obligations.MonitorAndEngineEvents : Prop := Claim.MonitorStore ∧ Claim.EngineEvents

/-! ### The vector slots -/

namespace Sys2Proof.Claim

/-- Element count of a V slot's row: n = min(VL, E) (R109). -/
def elems (s : State) (v : VSlot) : Nat := min (s.core v.core.toNat).readVl (2048 / tyWidth v.ty)

/-- Whether element `i` is active: R110. -/
def isActive (s : State) (v : VSlot) (i : Nat) : Prop :=
  i < elems s v ∧ (v.maskEn = true → ((s.core v.core.toNat).readM v.mask).getLsbD i = true)

/-- A vector register after a write of `x` to the bits of `m` lands: R27, R110. -/
def landed (old m x : BitVec 2048) : BitVec 2048 := (old &&& ~~~ m) ||| x

/-- Element `i` of a register of the slot, in the row's type. -/
def elemOf (s : State) (v : VSlot) (r : BitVec 5) (i : Nat) : Nat :=
  ((s.core v.core.toNat).readV r).toNat / 2 ^ (tyWidth v.ty * i) % 2 ^ tyWidth v.ty

/-- An element as an operation writes it: every NaN of a float type is the canonical one (R86). -/
def written (v : VSlot) (x : Nat) : Nat :=
  let f := if v.ty = 1 then bf16 else b32
  if v.ty ≤ 1 ∧ f.isNan x = true then f.infBits + 2 ^ (f.p - 2) else x

/-- The signed or unsigned reading of an element: UINT8 unsigned, the others two's complement (R115). -/
def asInt (ty x : Nat) : Int := if ty = 5 ∨ x < 2 ^ (tyWidth ty - 1) then x else x - 2 ^ tyWidth ty

/-- The latency of a V-slot operation: R112, R114. -/
def vLatency (i : Instr) (v : VSlot) : Nat :=
  match i with
  | .vMul _ => 5
  | .vFma _ | .vFnma _ | .vWfma _ => 6
  | .vCvt _ => 5
  | .vCvtbs _ => 9
  | .vExp _ | .vLog _ | .vRcp _ | .vRsqrt _ | .vTanh _ | .vErf _ => 14
  | .vCompress _ | .vExpand _ => 7
  | .vRedsum _ | .vRedmax _ | .vRedmin _ => 9
  | .vSieve _ => 8
  | .vSetvl _ => 1
  | .vLd _ => if v.am = 1 then 6 + 2048 / tyWidth v.ty - 1 else 6
  | .vSt _ => if v.am = 1 then 4 + 2048 / tyWidth v.ty - 1 else 4
  | _ => 4

/-- Where a V-slot operation may write: the destination registers of R114, or for a store the core's own buffers. -/
def vMayWrite (i : Instr) (v : VSlot) (d : Dest) : Prop :=
  match i with
  | .vCeq _ | .vClt _ | .vCle _ | .mAnd _ | .mOr _ | .mXor _ | .mAndn _ => ∃ m x, d = .mreg (v.vd.extractLsb' 0 3) m x
  | .vCvtbs _ => ∃ m x, d = .vreg v.vd m x ∨ d = .vreg v.vc m x
  | .vCompress _ => (∃ m x, d = .vreg v.vd m x) ∨ ∃ k, d = .vl k ∨ d = .vlview k
  | .vSieve _ => ∃ m x, d = .vreg v.vd m x ∨ d = .vreg (v.vd + 1) m x ∨ (v.fl = true ∧ (d = .vreg v.vc m x ∨ d = .vreg (v.vc + 1) m x))
  | .vSinit _ => ∃ m x, d = .vreg v.vd m x ∨ d = .vreg (v.vd + 1) m x
  | .vSetvl _ => (∃ k, d = .vl k ∨ d = .vlview k) ∨ (v.rd ≠ 0 ∧ ∃ x, d = .sreg v.rd x ∨ d = .sview v.rd x)
  | .vGetvl _ => v.rd ≠ 0 ∧ ∃ x, d = .sreg v.rd x ∨ d = .sview v.rd x
  | .vSt _ => ∃ off b, d = .bytes v.core.toNat off b
  | _ => ∃ m x, d = .vreg v.vd m x

/-- Whether a destination is a check view, which follows four issue cycles later: R30, R109. -/
def isView : Dest → Bool
  | .sview _ _ | .vlview _ => true
  | _ => false

/-- The integer results of R114 and R115 on elements a and b of width w at index i. -/
def intRule (i : Instr) (v : VSlot) : Option (Nat → Nat → Nat → Nat) :=
  let w := tyWidth v.ty
  let k (b : Nat) : Nat := (if v.fl then b else v.imm16) % w
  match i with
  | .vAdd _ => some (fun _ a b => (a + b) % 2 ^ w)
  | .vSub _ => some (fun _ a b => (((a : Int) - b) % 2 ^ w).toNat)
  | .vMul _ => some (fun _ a b => a * b % 2 ^ w)
  | .vMin _ => some (fun _ a b => if asInt v.ty a ≤ asInt v.ty b then a else b)
  | .vMax _ => some (fun _ a b => if asInt v.ty a ≤ asInt v.ty b then b else a)
  | .vAbs _ => some (fun _ a _ => if asInt v.ty a < 0 then (2 ^ w - a) % 2 ^ w else a)
  | .vNeg _ => some (fun _ a _ => (2 ^ w - a) % 2 ^ w)
  | .vAnd _ => some (fun _ a b => a &&& b)
  | .vOr _ => some (fun _ a b => a ||| b)
  | .vXor _ => some (fun _ a b => a ^^^ b)
  | .vShl _ => some (fun _ a b => a * 2 ^ k b % 2 ^ w)
  | .vShr _ => some (fun _ a b => a / 2 ^ k b)
  | .vSra _ => some (fun _ a b => (asInt v.ty a / 2 ^ k b % 2 ^ w).toNat)
  | .vPopc _ => some (fun _ a _ => (Nat.bits a).count true)
  | .vIota _ => some (fun i _ _ => (v.imm16 + i) % 2 ^ w)
  | _ => none

/-- The float results of R85, R86 and R90 to R98 on elements of the row's type. -/
def floatRule (i : Instr) (f : FloatFmt) : Option (Nat → Nat → Nat → FRes) :=
  let fn (g : Nat → FRes) : Nat → Nat → Nat → FRes := fun a _ _ => if f = bf16 then onBf16 g a else g a
  match i with
  | .vAdd _ => some (fun a b _ => f.addV (f.value a) (f.value b))
  | .vSub _ => some (fun a b _ => f.addV (f.value a) (f.value b).neg)
  | .vMul _ => some (fun a b _ => f.mulV (f.value a) (f.value b))
  | .vFma _ => some (fun a b c => f.fmaV (f.value a) (f.value b) (f.value c))
  | .vFnma _ => some (fun a b c => f.fmaV (f.value a).neg (f.value b) (f.value c))
  | .vMin _ => some (fun a b _ => f.minmax false a b)
  | .vMax _ => some (fun a b _ => f.minmax true a b)
  | .vAbs _ => some (fun a _ _ => { bits := if f.isNan a then f.nanBits else a % f.signBit })
  | .vNeg _ => some (fun a _ _ => { bits := if f.isNan a then f.nanBits else (a + f.signBit) % (2 * f.signBit) })
  | .vExp _ => some (fn exp32)
  | .vLog _ => some (fn log32)
  | .vRcp _ => some (fn rcp32)
  | .vRsqrt _ => some (fn rsqrt32)
  | .vTanh _ => some (fn tanh32)
  | .vErf _ => some (fn erf32)
  | _ => none

/-- The exact value of a finite code: R85. -/
def realOf (f : FloatFmt) (w : Nat) : Option ℚ :=
  match f.value w with
  | .fin neg m e => some ((if neg then -1 else 1) * m * (2 : ℚ) ^ e)
  | _ => none

/-- `w` is the exact number x rounded once to nearest, ties to even, or the infinity beyond the largest finite value and half an ulp:
R85, R88. -/
def roundsTo (f : FloatFmt) (x : ℚ) (w : Nat) : Prop :=
  if |x| < (2 : ℚ) ^ (128 : ℤ) - (2 : ℚ) ^ (127 - f.p : ℤ) then
    ∃ y, realOf f w = some y ∧ ∀ w' y', realOf f w' = some y' → |x - y| ≤ |x - y'| ∧ (|x - y| = |x - y'| → y' ≠ y → w % 2 = 0)
  else w = f.signed (decide (x < 0)) f.infBits

/-- The relation of a compare: R116. -/
def compareRule (i : Instr) : Option (Int → Int → Prop) :=
  match i with
  | .vCeq _ => some (fun a b => a = b)
  | .vClt _ => some (fun a b => a < b)
  | .vCle _ => some (fun a b => a ≤ b)
  | _ => none

/-- The order of codes that are no NaN, in which −0 equals +0: R115. -/
def floatKey (f : FloatFmt) (w : Nat) : Int := if f.signBit ≤ w then -(w - f.signBit : Nat) else w

/-- The mask logic of R114. -/
def maskRule (i : Instr) : Option (BitVec 256 → BitVec 256 → BitVec 256) :=
  match i with
  | .mAnd _ => some (fun a b => a &&& b)
  | .mOr _ => some (fun a b => a ||| b)
  | .mXor _ => some (fun a b => a ^^^ b)
  | .mAndn _ => some (fun a b => a &&& ~~~ b)
  | _ => none

/-- The window offset of element `i` of a load or store in the four forms of R112, as an integer. -/
def elemAt' (s : State) (v : VSlot) (i : Nat) : Int :=
  let c := s.core v.core.toNat
  let a : Int := ((c.readChk v.ab).toNat + 64 * v.off) % 2 ^ 64
  let st := (c.readChk v.st)
  let w := tyWidth v.ty
  if v.am = 0 then a + i * (w / 8)
  else if v.am = 1 then a + i * st.toInt
  else if v.am = 2 then a + (st.toNat / 256 % 128 + i) * (16 * w) + st.toNat % 128 * (w / 8)
  else a

/-- The integer reductions of R120: the operation on a list of values, and the value of an empty root. -/
def reduceRule (i : Instr) : Option (List Int → Int) :=
  match i with
  | .vRedsum _ => some (fun xs => xs.sum)
  | .vRedmax _ => some (fun xs => xs.foldl max (-2147483648))
  | .vRedmin _ => some (fun xs => xs.foldl min 2147483647)
  | _ => none

/-- Node `i` of level `k` of the tree of R99 over leaves: none where it is empty. -/
def node (f : α → α → α) (leaf : Nat → Option α) : Nat → Nat → Option α
  | 0, i => leaf i
  | k + 1, i =>
    match node f leaf k (2 * i), node f leaf k (2 * i + 1) with
    | some a, some b => some (f a b)
    | some a, none => some a
    | none, b => b

end Sys2Proof.Claim

/-- R27, R105, R109, R110, R112, R114: every V-slot operation writes only its destinations, each with the operation's latency (check
views four issue cycles later), and counts only in NUM_STAT; nothing else changes. -/
def Obligations.VectorFrame : Prop :=
  ∀ (s : State) (i : Instr) (op : BitVec 8) (v : VSlot), opV i = some (op, v) → s.issuesNow v.core.toNat i = true →
    let n := v.core.toNat
    ∃ t, ∃ ps : List Pend, ∃ a b c : Nat, exec i s = .next t ∧ t = { s with cores := t.cores } ∧ (∀ m, m ≠ n → t.core m = s.core m) ∧
      (t.core n = { s.core n with pipe := (s.core n).pipe ++ ps } ∨
       t.core n = { s.core n with
        pipe := (s.core n).pipe ++ ps, cvtSats := min (2 ^ 24 - 1) ((s.core n).cvtSats + a),
        invalid := min (2 ^ 16 - 1) ((s.core n).invalid + b), overflow := min (2 ^ 16 - 1) ((s.core n).overflow + c) }) ∧
      (2 ≤ v.ty → v.ty ≤ 5 → (∀ w, i ≠ .vCvt w) → a = 0 ∧ b = 0 ∧ c = 0) ∧
      ∀ p ∈ ps, vMayWrite i v p.dst ∧ p.due = now s n + vLatency i v + (if isView p.dst then 4 else 0)

/-- R106, R110, R114, R115: the elementwise integer operations: each active element of vd receives its result modulo 2^w, every other
element keeps its contents. -/
def Obligations.VectorIntegers : Prop :=
  ∀ (s : State) (i : Instr) (op : BitVec 8) (v : VSlot) (f : Nat → Nat → Nat → Nat), opV i = some (op, v) → 2 ≤ v.ty →
    intRule i v = some f → s.issuesNow v.core.toNat i = true →
    ∃ t m x, exec i s = .next t ∧ (t.core v.core.toNat).pipe = (s.core v.core.toNat).pipe ++
        [⟨now s v.core.toNat + vLatency i v, .vreg v.vd m x⟩] ∧
      ∀ (old : BitVec 2048) (j : Nat), j < 2048 / tyWidth v.ty →
        (isActive s v j → elemAt (tyWidth v.ty) (landed old m x) j = f j (elemOf s v v.va j) (elemOf s v v.vb j)) ∧
        (¬ isActive s v j → elemAt (tyWidth v.ty) (landed old m x) j = elemAt (tyWidth v.ty) old j)

/-- R85 to R87, R90, R110, R114: the elementwise float operations: each active element of vd receives the result of its operation, every
other element keeps its contents, and NUM_STAT counts each active element at most once per field. -/
def Sys2Proof.Claim.VectorFloats : Prop :=
  ∀ (s : State) (i : Instr) (op : BitVec 8) (v : VSlot) (f : Nat → Nat → Nat → FRes), opV i = some (op, v) → v.ty ≤ 1 →
    floatRule i (if v.ty = 1 then bf16 else b32) = some f → s.issuesNow v.core.toNat i = true →
    let n := v.core.toNat
    let r (j : Nat) : FRes := f (elemOf s v v.va j) (elemOf s v v.vb j) (elemOf s v v.vc j)
    ∃ t m x, ∃ on : List Nat, exec i s = .next t ∧ (t.core n).pipe = (s.core n).pipe ++ [⟨now s n + vLatency i v, .vreg v.vd m x⟩] ∧
      (∀ (old : BitVec 2048) (j : Nat), j < 2048 / tyWidth v.ty →
        (isActive s v j → elemAt (tyWidth v.ty) (landed old m x) j = (r j).bits % 2 ^ tyWidth v.ty) ∧
        (¬ isActive s v j → elemAt (tyWidth v.ty) (landed old m x) j = elemAt (tyWidth v.ty) old j)) ∧
      on.Nodup ∧ (∀ j, j ∈ on ↔ isActive s v j) ∧
      (t.core n).invalid = min (2 ^ 16 - 1) ((s.core n).invalid + on.countP (fun j => (r j).invalid)) ∧
      (t.core n).overflow = min (2 ^ 16 - 1) ((s.core n).overflow + on.countP (fun j => (r j).overflow))

/-- R85, R86: sum, product and fused multiply-add of finite operands are the exact result rounded once to nearest even; a NaN operand
gives the canonical NaN and counts nothing; ∞ − ∞ and 0 × ∞ give it and count invalid; an exact zero sum of opposite signs is +0. -/
def Sys2Proof.Claim.FloatArithmetic : Prop :=
  ∀ (f : FloatFmt) (a b c : Nat), f = b32 ∨ f = bf16 →
    (∀ x y, realOf f a = some x → realOf f b = some y →
      roundsTo f (x + y) (f.addV (f.value a) (f.value b)).bits ∧ roundsTo f (x * y) (f.mulV (f.value a) (f.value b)).bits ∧
      (∀ z, realOf f c = some z → roundsTo f (x * y + z) (f.fmaV (f.value a) (f.value b) (f.value c)).bits) ∧
      (x + y = 0 → a.testBit (f.p + 7) ≠ b.testBit (f.p + 7) → (f.addV (f.value a) (f.value b)).bits = 0)) ∧
    (f.isNan a ∨ f.isNan b → f.addV (f.value a) (f.value b) = { bits := f.infBits + 2 ^ (f.p - 2) } ∧
      f.mulV (f.value a) (f.value b) = { bits := f.infBits + 2 ^ (f.p - 2) }) ∧
    (a = f.infBits → b = f.signBit + f.infBits → f.addV (f.value a) (f.value b) = { bits := f.infBits + 2 ^ (f.p - 2), invalid := true }) ∧
    (a = f.infBits → b = 0 → f.mulV (f.value a) (f.value b) = { bits := f.infBits + 2 ^ (f.p - 2), invalid := true })

/-- R85 to R87, R90, R110, R114: the elementwise float rows, and the arithmetic their results rest on. -/
def Obligations.FloatRows : Prop := Claim.VectorFloats ∧ Claim.FloatArithmetic

/-- R114, R115, R116: a compare writes every bit of its mask register: 1 for the active elements in its relation (a NaN is in none), 0
from n up. -/
def Sys2Proof.Claim.VectorCompares : Prop :=
  ∀ (s : State) (i : Instr) (op : BitVec 8) (v : VSlot) (rel : Int → Int → Prop), opV i = some (op, v) → compareRule i = some rel →
    s.issuesNow v.core.toNat i = true →
    let f : FloatFmt := if v.ty = 1 then bf16 else b32
    ∃ x, exec i s = .next (issued s v.core.toNat [⟨now s v.core.toNat + 4, .mreg (v.vd.extractLsb' 0 3) (BitVec.allOnes 256) x⟩]) ∧
      ∀ j, j < 256 → (x.getLsbD j = true ↔ isActive s v j ∧
        (if v.ty ≤ 1 then f.isNan (elemOf s v v.va j) = false ∧ f.isNan (elemOf s v v.vb j) = false ∧
            rel (floatKey f (elemOf s v v.va j)) (floatKey f (elemOf s v v.vb j))
         else rel (asInt v.ty (elemOf s v v.va j)) (asInt v.ty (elemOf s v v.vb j))))

/-- R114, R116: the mask logic operations act on all 256 bits. -/
def Sys2Proof.Claim.MaskLogic : Prop :=
  ∀ (s : State) (i : Instr) (op : BitVec 8) (v : VSlot) (f : BitVec 256 → BitVec 256 → BitVec 256), opV i = some (op, v) →
    maskRule i = some f → s.issuesNow v.core.toNat i = true →
      exec i s = .next (issued s v.core.toNat [⟨now s v.core.toNat + 4, .mreg (v.vd.extractLsb' 0 3) (BitVec.allOnes 256)
        (f ((s.core v.core.toNat).readM (v.va.extractLsb' 0 3)) ((s.core v.core.toNat).readM (v.vb.extractLsb' 0 3)))⟩])

/-- R114 to R116: the compares and the mask logic. -/
def Obligations.VectorMasks : Prop := Claim.VectorCompares ∧ Claim.MaskLogic

/-- R109, R114: `v.setvl` sets VL and rd to the smaller of rs and E; `v.getvl` returns VL as the row sees it. -/
def Sys2Proof.Claim.VectorLengthRows : Prop :=
  ∀ (s : State) (v : VSlot),
    (s.issuesNow v.core.toNat (.vSetvl v) = true →
      let k := min ((s.core v.core.toNat).readS v.rs).toNat (2048 / tyWidth v.ty)
      ∃ t, exec (.vSetvl v) s = .next t ∧ t = { s with cores := t.cores } ∧ (∀ m, m ≠ v.core.toNat → t.core m = s.core m) ∧
        t.core v.core.toNat = { s.core v.core.toNat with pipe := (s.core v.core.toNat).pipe ++
          [⟨now s v.core.toNat + 1, .vl k⟩, ⟨now s v.core.toNat + 5, .vlview k⟩] ++
          (if v.rd = 0 then [] else
            [⟨now s v.core.toNat + 1, .sreg v.rd (BitVec.ofNat 64 k)⟩, ⟨now s v.core.toNat + 5, .sview v.rd (BitVec.ofNat 64 k)⟩]) }) ∧
    (s.issuesNow v.core.toNat (.vGetvl v) = true →
      exec (.vGetvl v) s = .next (scalar s v.core.toNat v.rd 4 (BitVec.ofNat 64 (s.core v.core.toNat).readVl)))

/-- R86, R114, R116, R119: `v.sel` writes every element below n from va or vb by its mask bit; `v.compress` packs the active elements and
sets VL to their count; `v.expand` spreads them; a NaN is written as the canonical one. -/
def Sys2Proof.Claim.SelectCompressExpand : Prop :=
  ∀ (s : State) (v : VSlot),
    let n := v.core.toNat
    let w := tyWidth v.ty
    (s.issuesNow n (.vSel v) = true → ∃ m x,
      exec (.vSel v) s = .next (issued s n [⟨now s n + 4, .vreg v.vd m x⟩]) ∧
      ∀ (old : BitVec 2048) (j : Nat), j < 2048 / w → elemAt w (landed old m x) j =
        (if j < elems s v then written v (if ((s.core n).readM v.mask).getLsbD j then elemOf s v v.va j else elemOf s v v.vb j)
         else elemAt w old j)) ∧
    (s.issuesNow n (.vCompress v) = true → ∃ t m x, ∃ on : List Nat,
      exec (.vCompress v) s = .next t ∧ t = { s with cores := t.cores } ∧ (∀ k, k ≠ n → t.core k = s.core k) ∧
      on.Pairwise (fun a b => a < b) ∧ (∀ j, j ∈ on ↔ isActive s v j) ∧
      t.core n = { s.core n with pipe := (s.core n).pipe ++ [⟨now s n + 7, .vreg v.vd m x⟩, ⟨now s n + 7, .vl on.length⟩,
        ⟨now s n + 11, .vlview on.length⟩] } ∧
      ∀ (old : BitVec 2048) (j : Nat), j < 2048 / w → elemAt w (landed old m x) j =
        (if h : j < on.length then written v (elemOf s v v.va (on[j])) else 0)) ∧
    (s.issuesNow n (.vExpand v) = true → ∃ m x, ∃ on : List Nat,
      exec (.vExpand v) s = .next (issued s n [⟨now s n + 7, .vreg v.vd m x⟩]) ∧
      on.Pairwise (fun a b => a < b) ∧ (∀ j, j ∈ on ↔ isActive s v j) ∧
      (∀ (old : BitVec 2048) (k : Nat) (h : k < on.length), elemAt w (landed old m x) (on[k]) = written v (elemOf s v v.va k)) ∧
      ∀ (old : BitVec 2048) (j : Nat), j < 2048 / w → j ∉ on → elemAt w (landed old m x) j = elemAt w old j)

/-- R109, R114, R116, R119: the vector length rows, and the rows that select, pack and spread elements. -/
def Obligations.LengthAndSelection : Prop := Claim.VectorLengthRows ∧ Claim.SelectCompressExpand

/-- R112: a vector load brings each active element, little-endian, from its address in the core's own buffers. -/
def Sys2Proof.Claim.VectorLoads : Prop :=
  ∀ (s : State) (v : VSlot), s.issuesNow v.core.toNat (.vLd v) = true →
    let n := v.core.toNat
    let w := tyWidth v.ty
    ∃ m x, exec (.vLd v) s = .next (issued s n [⟨now s n + vLatency (.vLd v) v, .vreg v.vd m x⟩]) ∧
      ∀ (old : BitVec 2048) (j : Nat), j < 2048 / w →
        (isActive s v j → elemAt w (landed old m x) j = leNat (Memory.readN (s.pcore n).mem (elemAt' s v j).toNat (w / 8))) ∧
        (¬ isActive s v j → elemAt w (landed old m x) j = elemAt w old j)

/-- R106, R110, R112: a unit-stride vector store writes exactly the bytes of the active elements, each element little-endian at its
address; every other form writes only bytes of active elements. -/
def Sys2Proof.Claim.VectorStores : Prop :=
  ∀ (s : State) (v : VSlot), s.issuesNow v.core.toNat (.vSt v) = true →
    let n := v.core.toNat
    let w := tyWidth v.ty
    ∃ ps : List (Nat × List Byte), exec (.vSt v) s = .next (if ps = [] then s else issued s n (ps.map (fun p =>
        (⟨now s n + vLatency (.vSt v) v, .bytes n p.1 p.2⟩ : Pend)))) ∧
      (∀ p ∈ ps, ∀ k, k < p.2.length → ∃ j, isActive s v j ∧ elemAt' s v j ≤ p.1 + k ∧ (p.1 + k : Nat) < elemAt' s v j + w / 8) ∧
      (∀ j, isActive s v j → ∀ k, k < w / 8 → ∃ p ∈ ps, (p.1 : Int) ≤ elemAt' s v j + k ∧ elemAt' s v j + k < p.1 + p.2.length) ∧
      (v.am = 0 → ∀ p ∈ ps, ∀ k, k < p.2.length → ∀ j, elemAt' s v j ≤ p.1 + k → (p.1 + k : Nat) < elemAt' s v j + w / 8 →
        p.2.getD k 0 = BitVec.ofNat 8 (elemOf s v v.va j / 2 ^ (8 * (p.1 + k - elemAt' s v j).toNat)))

/-- R106, R110, R112: the vector loads and stores. -/
def Obligations.VectorMemory : Prop := Claim.VectorLoads ∧ Claim.VectorStores

/-- R88, R117: `v.cvt` converts n elements, in slice `part` of the narrower side; every other element of the destination keeps its
contents. -/
def Sys2Proof.Claim.VectorConverts : Prop :=
  ∀ (s : State) (v : VSlot), s.issuesNow v.core.toNat (.vCvt v) = true →
    let n := v.core.toNat
    let slice := if v.ty = 8 then 32 else 64
    let toFloat := v.dty = 0 ∧ v.ty ≠ 8
    let src (j : Nat) : Nat := if toFloat then slice * v.part + j else j
    let dst (j : Nat) : Nat := if toFloat then j else slice * v.part + j
    let on (j : Nat) : Prop := j < min (s.core n).readVl slice ∧
      (v.maskEn = true → ((s.core n).readM v.mask).getLsbD (slice * v.part + j) = true)
    let f (j : Nat) : Nat := if v.fl then 0x3F800000 else ((s.core n).readV v.vb).toNat / 2 ^ (32 * j) % 2 ^ 32
    let wd := tyWidth v.dty
    ∃ t m x, exec (.vCvt v) s = .next t ∧ (t.core n).pipe = (s.core n).pipe ++ [⟨now s n + 5, .vreg v.vd m x⟩] ∧
      (∀ (old : BitVec 2048) (j : Nat), on j → elemAt wd (landed old m x) (dst j) =
        (cvtElem v.ty v.dty (elemAt (tyWidth v.ty) ((s.core n).readV v.va) (src j)) (f j)).bits % 2 ^ wd) ∧
      ∀ (old : BitVec 2048) (k : Nat), k < 2048 / wd → (∀ j, on j → k ≠ dst j) → elemAt wd (landed old m x) k = elemAt wd old k

/-- R88: the conversions of values: to an integer, the exact product rounded half to even, then clamped; to binary32, the exact product
rounded once; binary32 to bfloat16 rounded once; bfloat16 to binary32 exact. -/
def Sys2Proof.Claim.ConversionResults : Prop :=
  (∀ (lo hi : Int) (x f : Nat) (a b : ℚ), lo ≤ hi → realOf b32 x = some a → realOf b32 f = some b → ∃ q : Int,
    |a * b - q| ≤ 1 / 2 ∧ (|a * b - q| = 1 / 2 → q % 2 = 0) ∧
    b32ToInt lo hi x f = (max lo (min hi q), decide (q < lo ∨ hi < q), false)) ∧
  (∀ (q : Int) (f : Nat) (b : ℚ), realOf b32 f = some b → roundsTo b32 (q * b) (intToB32 q f).bits) ∧
  (∀ (x : Nat) (a : ℚ), realOf b32 x = some a → roundsTo bf16 a (narrow x).bits) ∧
  (∀ (x : Nat) (a : ℚ), x < 2 ^ 16 → realOf bf16 x = some a → realOf b32 (widen x) = some a)

/-- R88, R117: the conversions. -/
def Sys2Proof.Claim.Conversions : Prop := Claim.VectorConverts ∧ Claim.ConversionResults

/-- R99, R120: the integer reductions put the sum modulo 2^32, the maximum or the minimum of the active elements, widened to INT32, into
element 0, and leave the others unchanged. -/
def Sys2Proof.Claim.IntegerReductions : Prop :=
  ∀ (s : State) (i : Instr) (op : BitVec 8) (v : VSlot) (f : List Int → Int), opV i = some (op, v) → reduceRule i = some f → 2 ≤ v.ty →
    s.issuesNow v.core.toNat i = true →
    let n := v.core.toNat
    ∃ m x, ∃ on : List Nat, exec i s = .next (issued s n [⟨now s n + 9, .vreg v.vd m x⟩]) ∧ on.Nodup ∧ (∀ j, j ∈ on ↔ isActive s v j) ∧
      ∀ (old : BitVec 2048), elemAt 32 (landed old m x) 0 = (f (on.map (fun j => asInt v.ty (elemOf s v v.va j))) % 2 ^ 32).toNat ∧
        ∀ j, 0 < j → j < 64 → elemAt 32 (landed old m x) j = elemAt 32 old j

/-- R99, R120: the B32 sum goes over the fixed tree of 64 leaves, each node rounded; an empty root gives +0. -/
def Sys2Proof.Claim.FloatSumTree : Prop :=
  ∀ (s : State) (v : VSlot), v.ty = 0 → s.issuesNow v.core.toNat (.vRedsum v) = true →
    let n := v.core.toNat
    ∃ t m x, exec (.vRedsum v) s = .next t ∧ (t.core n).pipe = (s.core n).pipe ++ [⟨now s n + 9, .vreg v.vd m x⟩] ∧
      ∀ (old : BitVec 2048) (leaf : Nat → Option Nat),
        (∀ j, isActive s v j → leaf j = some (elemOf s v v.va j)) → (∀ j, ¬ isActive s v j → leaf j = none) →
        elemAt 32 (landed old m x) 0 =
          (match node (fun a b => (b32.addV (b32.value a) (b32.value b)).bits) leaf 6 0 with
           | some r => if b32.isNan r then 0x7FC00000 else r
           | none => 0) ∧
        ∀ j, 0 < j → j < 64 → elemAt 32 (landed old m x) j = elemAt 32 old j

/-- R120, R99: the reductions. -/
def Sys2Proof.Claim.Reductions : Prop := Claim.IntegerReductions ∧ Claim.FloatSumTree

/-- R110, R121, R122: the sieve ranks the list entries together with the active candidates and keeps the k highest in rank order, empty
entries behind them (INT32 keys); `v.sinit` writes 64 empty entries; at VL = 0 neither writes. -/
def Sys2Proof.Claim.SieveKeepsTheHighest : Prop :=
  ∀ (s : State) (v : VSlot), v.ty = 2 →
    let n := v.core.toNat
    let k := v.kMinus1 + 1
    let entry (r q : BitVec 5) (j : Nat) : Int × Nat := (asInt 2 (elemOf s v r j), elemOf s v q j)
    (s.issuesNow n (.vSieve v) = true → (s.core n).readVl = 0 → exec (.vSieve v) s = .next s) ∧
    (s.issuesNow n (.vSinit v) = true → (s.core n).readVl = 0 → exec (.vSinit v) s = .next s) ∧
    (s.issuesNow n (.vSieve v) = true → 0 < (s.core n).readVl → ∃ t m1 x1 m2 x2 ps, ∃ on : List Nat, ∃ es : List (Int × Nat),
      exec (.vSieve v) s = .next t ∧ (t.core n).pipe = (s.core n).pipe ++
        [⟨now s n + 8, .vreg v.vd m1 x1⟩, ⟨now s n + 8, .vreg (v.vd + 1) m2 x2⟩] ++ ps ∧
      on.Nodup ∧ (∀ j, j ∈ on ↔ isActive s v j) ∧
      es.Perm ((List.range 64).map (entry v.vd (v.vd + 1)) ++ on.map (fun j =>
        if elemOf s v v.vb j = 0xFFFFFFFF then ((-2147483648 : Int), 0xFFFFFFFF) else entry v.va v.vb j)) ∧
      es.Pairwise (fun a b => b.1 < a.1 ∨ (b.1 = a.1 ∧ a.2 ≤ b.2)) ∧
      ∀ (o1 o2 : BitVec 2048) (j : Nat), j < 64 →
        (asInt 2 (elemAt 32 (landed o1 m1 x1) j), elemAt 32 (landed o2 m2 x2) j) =
          (if j < k then es.getD j (-2147483648, 0xFFFFFFFF) else (-2147483648, 0xFFFFFFFF))) ∧
    (s.issuesNow n (.vSinit v) = true → 0 < (s.core n).readVl → ∃ m1 x1 m2 x2,
      ∃ t, exec (.vSinit v) s = .next t ∧ (t.core n).pipe = (s.core n).pipe ++
        [⟨now s n + 4, .vreg v.vd m1 x1⟩, ⟨now s n + 4, .vreg (v.vd + 1) m2 x2⟩] ∧
      ∀ (o1 o2 : BitVec 2048) (j : Nat), j < 64 →
        elemAt 32 (landed o1 m1 x1) j = 0x80000000 ∧ elemAt 32 (landed o2 m2 x2) j = 0xFFFFFFFF)

/-- R99, R120 to R122: the reductions to element 0, and the k highest that the sieve keeps. -/
def Obligations.ReductionsAndSieve : Prop := Claim.Reductions ∧ Claim.SieveKeepsTheHighest

/-- `q` is the integer nearest to `y`, the even one of two: RHE(y) of R88. -/
def Sys2Proof.Claim.halfEven (y : ℚ) (q : Int) : Prop := |y - q| ≤ 1 / 2 ∧ (|y - q| = 1 / 2 → q % 2 = 0)

/-- R89: a block of 32 binary32 values in BSn. With a the largest finite magnitude, e is floor(log2 a) − (n − 2) between −128 and 127, one
more where a scaled value then rounds beyond 2^(n−1) − 1, and −128 where a is 0. A finite value gives its scaled value rounded once and
clamped, an infinity the bound with its sign, a NaN 0; clamped elements count in cvt_sats, NaNs in invalid. -/
def Sys2Proof.Claim.BlockScaling : Prop :=
  ∀ (n : Nat) (xs : List Nat), n ∈ [4, 6, 8, 12, 16] → xs.length = 32 →
    let lim : Int := 2 ^ (n - 1) - 1
    let x (j : Nat) : Nat := xs.getD j 0
    let beyond (e : Int) (j : Nat) : Prop :=
      j < 32 ∧ ∃ r q, realOf b32 (x j) = some r ∧ halfEven (r * (2 : ℚ) ^ (-e)) q ∧ (q < -lim ∨ lim < q)
    ∃ e ms, ∃ clamped nans : List Nat, toBs n xs = (e, ms, clamped.length, nans.length) ∧ ms.length = 32 ∧
      ((∀ j r, j < 32 → realOf b32 (x j) = some r → r = 0) → e = -128) ∧
      (∀ i a, i < 32 → realOf b32 (x i) = some a → a ≠ 0 → (∀ j r, j < 32 → realOf b32 (x j) = some r → |r| ≤ |a|) →
        let e0 := max (-128) (min 127 (Int.log 2 |a| - ((n : Int) - 2)))
        ((e0 < 127 ∧ ∃ j, beyond e0 j) → e = e0 + 1) ∧ (¬ (e0 < 127 ∧ ∃ j, beyond e0 j) → e = e0)) ∧
      (∀ j, j < 32 →
        (∀ r, realOf b32 (x j) = some r → ∃ q, halfEven (r * (2 : ℚ) ^ (-e)) q ∧ ms.getD j 0 = max (-lim) (min lim q)) ∧
        (∀ neg, b32.value (x j) = .inf neg → ms.getD j 0 = if neg then -lim else lim) ∧
        (b32.isNan (x j) = true → ms.getD j 0 = 0)) ∧
      clamped.Nodup ∧ (∀ j, j ∈ clamped ↔ beyond e j ∨ (j < 32 ∧ ∃ neg, b32.value (x j) = .inf neg)) ∧
      nans.Nodup ∧ ∀ j, j ∈ nans ↔ j < 32 ∧ b32.isNan (x j) = true

/-- R88, R89, R117: conversions between formats, and a block with its shared exponent. -/
def Obligations.ConversionsAndBlocks : Prop := Claim.Conversions ∧ Claim.BlockScaling

/-- R85, R87, R110, R114: `v.wfma` adds the exact product of the bfloat16 elements 64·half + i of va and vb to the binary32 element i of vc
and rounds once, for i below n = min(VL, 64) whose mask bit is 1; it completes, and its events count in NUM_STAT. -/
def Sys2Proof.Claim.WideningFma : Prop :=
  ∀ (s : State) (v : VSlot), s.issuesNow v.core.toNat (.vWfma v) = true →
    let n := v.core.toNat
    let c := s.core n
    let h := if v.half then 64 else 0
    let r (j : Nat) : FRes := b32.fmaV (bf16.value (elemAt 16 (c.readV v.va) (h + j))) (bf16.value (elemAt 16 (c.readV v.vb) (h + j)))
      (b32.value (elemAt 32 (c.readV v.vc) j))
    ∃ t m x, ∃ on : List Nat, exec (.vWfma v) s = .next t ∧ t = { s with cores := t.cores } ∧ (∀ k, k ≠ n → t.core k = s.core k) ∧
      t.core n = { c with
        pipe := c.pipe ++ [⟨now s n + 6, .vreg v.vd m x⟩], cvtSats := min (2 ^ 24 - 1) c.cvtSats
        invalid := min (2 ^ 16 - 1) (c.invalid + on.countP (fun j => (r j).invalid))
        overflow := min (2 ^ 16 - 1) (c.overflow + on.countP (fun j => (r j).overflow)) } ∧
      on.Nodup ∧ (∀ j, j ∈ on ↔ j < min c.readVl 64 ∧ (v.maskEn = true → (c.readM v.mask).getLsbD (h + j) = true)) ∧
      ∀ (old : BitVec 2048) (j : Nat), j < 64 →
        (j ∈ on → elemAt 32 (landed old m x) j = (r j).bits % 2 ^ 32) ∧ (j ∉ on → elemAt 32 (landed old m x) j = elemAt 32 old j)

/-- R81, R87, R118: `v.cvtbs` completes: it writes the mantissas of two blocks of 32, elements from n = min(VL, 64) up taken as +0, to
slice `part` of vd and their exponents to bytes 2·xs and 2·xs + 1 of vc, both with latency 9; every other byte keeps its contents. -/
def Sys2Proof.Claim.BlockConverts : Prop :=
  ∀ (s : State) (v : VSlot), s.issuesNow v.core.toNat (.vCvtbs v) = true →
    let n := v.core.toNat
    let c := s.core n
    let w := bsContainer v.bs
    let b (k : Nat) : Int × List Int × Nat × Nat := toBs (bsBits v.bs) ((List.range 32).map (fun i =>
      if 32 * k + i < min c.readVl 64 then elemAt 32 (c.readV v.va) (32 * k + i) else 0))
    ∃ t m1 x1 m2 x2, exec (.vCvtbs v) s = .next t ∧ t = { s with cores := t.cores } ∧ (∀ k, k ≠ n → t.core k = s.core k) ∧
      t.core n = { c with
        pipe := c.pipe ++ [⟨now s n + 9, .vreg v.vd m1 x1⟩, ⟨now s n + 9, .vreg v.vc m2 x2⟩]
        cvtSats := min (2 ^ 24 - 1) (c.cvtSats + ((b 0).2.2.1 + (b 1).2.2.1))
        invalid := min (2 ^ 16 - 1) (c.invalid + ((b 0).2.2.2 + (b 1).2.2.2)), overflow := min (2 ^ 16 - 1) c.overflow } ∧
      ∀ old : BitVec 2048,
        (∀ j, j < 64 → elemAt w (landed old m1 x1) (64 * v.part + j) = ((b (j / 32)).2.1.getD (j % 32) 0 % 2 ^ w).toNat) ∧
        (∀ k, k < 2048 / w → (k < 64 * v.part ∨ 64 * (v.part + 1) ≤ k) → elemAt w (landed old m1 x1) k = elemAt w old k) ∧
        (∀ k, k < 2 → elemAt 8 (landed old m2 x2) (2 * v.xs + k) = ((b k).1 % 256).toNat) ∧
        ∀ k, k < 256 → k ≠ 2 * v.xs → k ≠ 2 * v.xs + 1 → elemAt 8 (landed old m2 x2) k = elemAt 8 old k

/-- R81, R85, R87, R110, R114, R118: the widening multiply-add, and the conversion of two blocks. -/
def Obligations.WideningAndBlockRows : Prop := Claim.WideningFma ∧ Claim.BlockConverts

/-- R46, R47: `rib.put` sends 64 bytes of the core's own AB to its gang neighbours, visible to their rows three issue cycles later. -/
def Sys2Proof.Claim.RibPut : Prop :=
  ∀ (s : State) (b : BSlot), s.issuesNow b.core.toNat (.ribPut b) = true → (s.core b.core.toNat).inGang = true →
    let n := b.core.toNat
    let c := s.core n
    let d := Memory.readN (s.pcore n).mem (b.ribSrc c) 64
    (b.cnt = 1 → 0 < c.gangPos → exec (.ribPut b) s = .next (issued s n [⟨now s n + 3, .bytes (n - 1) (b.ribDst c) d⟩])) ∧
    (b.cnt = 2 → c.gangPos < c.gangLast → exec (.ribPut b) s = .next (issued s n [⟨now s n + 3, .bytes (n + 1) (b.ribDst c) d⟩])) ∧
    (b.cnt = 3 → 0 < c.gangPos → c.gangPos < c.gangLast → ∃ t, exec (.ribPut b) s = .next t ∧ t = { s with cores := t.cores } ∧
      (∀ m, m ≠ n → t.core m = s.core m) ∧ t.core n = { c with pipe := c.pipe ++
        [⟨now s n + 3, .bytes (n - 1) (b.ribDst c) d⟩, ⟨now s n + 3, .bytes (n + 1) (b.ribDst c) d⟩] }) ∧
    (c.gangLast = 31 → b.cnt = 1 → c.gangPos = 0 →
      exec (.ribPut b) s = .next (issued s n [⟨now s n + 3, .bytes (n + 31) (b.ribDst c) d⟩]))

/-! ### The B and D slots -/

namespace Sys2Proof.Claim

/-- A transaction in flight that carries data. -/
def carrying (id : Nat) (kind : TxKind) (core dst : Nat) (data : List Byte) (origin : Origin) : Txn :=
  { id := id, kind := kind, core := core, dst := dst, data := data, origin := origin }

/-- A core whose short path has one more operation outstanding: R157. -/
def shortAdded (k : Core) (o : ShortOp) : Core := { k with short := k.short ++ [o] }

/-- The 64-byte-scaled address of a B slot: a check operand and off, modulo 2^64 (R156). -/
def spLocal (k : Core) (r : BitVec 5) (b : BSlot) : Nat := ((k.readChk r).toNat + 64 * (b.f.toNat / 2 ^ 16)) % 2 ^ 64

/-- Bytes moved by a short-path operation: 8 (n8_m1 + 1), R156. -/
def spBytes (b : BSlot) : Nat := 8 * (b.f.toNat % 8 + 1)

/-- R156, R157: `sp.put` and `sp.word` write up to 64 bytes, and a scalar register, to a home: one operation more is outstanding and
one write is in flight. -/
def ShortWrites : Prop :=
  ∀ (s : State) (b : BSlot),
    let n := b.core.toNat
    let c := s.core n
    (s.issuesNow n (.spPut b) = true → s.place n (c.readChk b.dst).toNat ≠ .remote →
      s.readsClean n [(spLocal c b.src b, spBytes b)] = true →
      exec (.spPut b) s = .next (underWay { withCore s n (shortAdded c
          { id := s.nextId, kind := 8, remote := (c.readChk b.dst).toNat, loc := spLocal c b.src b, len := spBytes b }) with
        nextId := s.nextId + 1 } n (carrying 0 .write n (c.readChk b.dst).toNat
          (Memory.readN (s.pcore n).mem (spLocal c b.src b) (spBytes b)) (.short n s.nextId)))) ∧
    (s.issuesNow n (.spWord b) = true →
      let a := ((c.readChk b.dst).toNat + 8 * (b.f.toNat / 2 ^ 16)) % 2 ^ 64
      s.place n a ≠ .remote →
      exec (.spWord b) s = .next (underWay
        { withCore s n (shortAdded c { id := s.nextId, kind := 11, remote := a, loc := 0, len := 8 }) with nextId := s.nextId + 1 } n
        (carrying 0 .write n a (leBytes 8 (c.readS b.cnt).toNat) (.short n s.nextId))))

/-- R35, R152, R156, R157: `sp.get` counts into the ranges of its destination and sends one read; with nothing to combine with, it
sends its own, with which later reads of its bytes may combine unless it is volatile. -/
def ShortRead : Prop :=
  ∀ (s : State) (b : BSlot), s.issuesNow b.core.toNat (.spGet b) = true →
    let n := b.core.toNat
    let c := s.core n
    let a := (c.readChk b.src).toNat
    let rs := s.deliverRanges n (.spGet b)
    s.place n a ≠ .remote → c.combine = [] →
    exec (.spGet b) s = .next (underWay { withCore s n { (c.countUp rs) with
        combine := if b.f.getLsbD 3 = false ∧ s.combinable n a = true then [{ addr := a, txn := s.nextId + 1, line := true }] else []
        short := c.short ++ [{ id := s.nextId, kind := 9, remote := a, loc := spLocal c b.dst b, len := spBytes b, ranges := rs }] } with
      nextId := s.nextId + 1 } n
      { carrying 0 .readReq n a [] (.short n s.nextId) with vol := b.f.getLsbD 3, len := spBytes b, loc := spLocal c b.dst b })

/-- R156, R183: `sp.sig` is an ACKED release of its scope: its add is in flight at once where nothing is outstanding, else it waits. -/
def ShortSignal : Prop :=
  ∀ (s : State) (b : BSlot), s.issuesNow b.core.toNat (.spSig b) = true →
    let n := b.core.toNat
    let c := s.core n
    let a := (c.readChk b.dst).toNat
    let v := (c.readS b.cnt).setWidth 32
    let o : ShortOp := { id := s.nextId, kind := 10, remote := a, loc := 0, len := 8 }
    (s.outbound n (b.f.toNat / 16 % 4) = [] → s.place n a ≠ .remote →
      exec (.spSig b) s = .next (underWay { withCore s n (shortAdded c o) with nextId := s.nextId + 1 } n
        (carrying 0 .tallyAdd n a (leBytes 4 v.toNat) (.short n s.nextId)))) ∧
    (s.outbound n (b.f.toNat / 16 % 4) ≠ [] →
      exec (.spSig b) s = .next { withCore s n { shortAdded c o with rels := c.rels ++
        [⟨s.nextId + 1, a, v, s.outbound n (b.f.toNat / 16 % 4), .short n s.nextId⟩] } with nextId := s.nextId + 2 })

/-- R35, R128, R156: `b.move` counts into the ranges of its destination, and the 64 to 512 bytes it read set out for their places, one
after the other (with no stored error among them). -/
def BufferMove : Prop :=
  ∀ (s : State) (b : BSlot), s.issuesNow b.core.toNat (.bMove b) = true →
    let n := b.core.toNat
    let c := s.core n
    let rs := s.deliverRanges n (.bMove b)
    let len := 64 * (b.f.toNat % 8 + 1)
    let dst := (c.readChk b.dst).toNat
    s.readsClean n [(spLocal c b.src b, len)] = true →
    ∃ t, ∃ xs : List Txn, exec (.bMove b) s = .next t ∧ t = { s with cores := t.cores, nextId := t.nextId, flight := s.flight ++ xs } ∧
      (∀ m, m ≠ n → t.core m = calmed s n (s.core m)) ∧ t.core n = calmed s n { (c.countUp rs) with short := c.short ++
        [{ id := s.nextId, kind := 1, remote := 0x10000000000 + n * 2 ^ 24 + dst, loc := dst, len := len, ranges := rs }] } ∧
      xs.flatMap (fun x => x.data) = Memory.readN (s.pcore n).mem (spLocal c b.src b) len ∧
      (∀ x ∈ xs, x.kind = .landing ∧ x.core = n ∧ x.origin = .short n s.nextId) ∧
      ∀ k (h : k < xs.length), (xs[k]).loc = dst + ((xs.take k).flatMap (fun x => x.data)).length

/-- The word of a push: payload, source core, END, VALID (R210, R213). -/
def pushWord (s : State) (b : BSlot) : BitVec 64 :=
  BitVec.ofNat 64 (((s.core b.core.toNat).readS b.cnt).toNat % 2 ^ 56 + b.core.toNat % 32 * 2 ^ 56 + 2 ^ 63 +
    (if b.f.getLsbD 8 then 2 ^ 62 else 0))

/-- The FIFO that a slot names at a core. -/
def fifoOf (k : Core) (b : BSlot) : Fifo := mget {} k.fifos (b.f.toNat % 8)

end Sys2Proof.Claim

/-- R156, R157: the moves and the short path set out. -/
def Sys2Proof.Claim.BufferSlots : Prop := ShortWrites ∧ ShortRead ∧ ShortSignal ∧ BufferMove

/-- R46, R47, R156 to R159: `rib.put`, `b.move` and the short path. -/
def Obligations.BufferRows : Prop := Claim.RibPut ∧ Claim.BufferSlots

/-- R193, R210 to R216: a push spends a credit and its word arrives 1 cycle later in an own FIFO, 8 in another core's; a pop of an empty FIFO
gives 0; else the head word, whose writer gets a credit; a word or a credit on its way clears the quiet counts; POISON set and recorded where its parity fails; a status read changes nothing
but its register; the firmware's write puts a job word, of source 0, behind the others while there is space, and ends the task at a user
FIFO. -/
def Obligations.FifoRows : Prop :=
  ∀ (s : State) (b : BSlot),
    let n := b.core.toNat
    let c := s.core n
    let q := fifoOf c b
    let o := 32 * (n / 32) + b.f.toNat / 8 % 32
    let bad (w : BitVec 64) : Prop := ∃ p, q.parity.head? = some p ∧ p ≠ wordParity w
    let calm (k : Core) : Core := match q.writer with
      | some v => calmed s v k
      | none => k
    (s.issuesNow n (.fifoPush b) = true →
      exec (.fifoPush b) s = .next (stirred (withCore s o { s.core o with
        fifos := mset (s.core o).fifos (b.f.toNat % 8) { fifoOf (s.core o) b with credits := (fifoOf (s.core o) b).credits - 1 },
        pipe := (s.core o).pipe ++ [⟨now s o + (if n = o then 1 else 8) + 1, .fifoWord o (b.f.toNat % 8) (pushWord s b)⟩] }) n)) ∧
    (∀ ok, s.issuesNow n (.fifoPop b ok) = true → q.words = [] → exec (.fifoPop b ok) s = .next (scalar s n b.dst 2 0)) ∧
    (∀ w ws, s.issuesNow n (.fifoPop b true) = true → q.words = w :: ws → ¬ bad w →
      ∃ t, exec (.fifoPop b true) s = .next t ∧ t = { s with cores := t.cores } ∧
        (∀ m, m ≠ n → t.core m = calm (if q.writer = some m then
          { s.core m with pipe := (s.core m).pipe ++ [⟨now s m + 8, .credit n (b.f.toNat % 8)⟩] } else s.core m)) ∧
        t.core n = calm { c with
          fifos := mset c.fifos (b.f.toNat % 8) { q with words := ws, parity := q.parity.drop 1, popped := (q.popped + 1) % 2 ^ 32,
                                                         poisoned := min (2 ^ 16 - 1) q.poisoned },
          pipe := c.pipe ++ (if b.dst = 0 then [] else [⟨now s n + 2, .sreg b.dst w⟩, ⟨now s n + 6, .sview b.dst w⟩]) ++
            (if q.writer = some n then [⟨now s n + 1, .credit n (b.f.toNat % 8)⟩] else []) }) ∧
    (∀ ok w ws, s.issuesNow n (.fifoPop b ok) = true → q.words = w :: ws → ok = false ∨ bad w →
      ∃ t, exec (.fifoPop b ok) s = .next t ∧ t = { s with cores := t.cores, book := t.book, tasks := t.tasks } ∧
        (b.dst ≠ 0 → (⟨now s n + 2, .sreg b.dst (w ||| 1 <<< 61)⟩ : Pend) ∈ (t.core n).pipe) ∧
        (fifoOf (t.core n) b).words = ws ∧ (fifoOf (t.core n) b).poisoned = min (2 ^ 16 - 1) (q.poisoned + 1) ∧
        (∃ e, t.book.offered = s.book.offered ++ [e] ∧ e.code = 0x63) ∧
        ∀ k x, (s.core n).task = some k → s.task k = some x → t.task k = some { x with poisoned := true }) ∧
    (s.issuesNow n (.fifoStat b) = true → exec (.fifoStat b) s = .next (scalar s n b.dst 2
      (BitVec.ofNat 64 (q.words.length + 2 ^ 32 * q.words.countP (fun w => w.getLsbD 62))))) ∧
    ∀ (core : CoreId) (w : Word),
      let j : Fifo := mget {} (s.core core.toNat).fifos 0
      let x := (w ||| (1 : BitVec 64) <<< 63) &&& ~~~ ((1 : BitVec 64) <<< 61 ||| (0x1F : BitVec 64) <<< 56)
      (j.words.length < 32 → exec (.fifoDataWrite core 0 w) s = .next (withCore s core.toNat { s.core core.toNat with
        fifos := mset (s.core core.toNat).fifos 0 { j with words := j.words ++ [x], parity := j.parity ++ [wordParity x] } })) ∧
      (32 ≤ j.words.length → exec (.fifoDataWrite core 0 w) s = .next s) ∧
      ∀ f, f ≠ 0 → ∃ t, exec (.fifoDataWrite core f w) s = .next t ∧ t.phys = s.phys ∧ t.hbm = s.hbm ∧
        ((s.core core.toNat).task ≠ none → (t.core core.toNat).phase = .stopped)

/-- R35, R142, R144 to R148, R159, R198 to R202, R448: a descriptor takes the last place of its queue, addresses with their registers
added, counted into the ranges of what it writes in its own window; a strand message takes the last place of its endpoint's queue under the next sequence
number, and its grant request sets out; a cable command starts with what its header names. -/
def Obligations.DescriptorRows : Prop :=
  ∀ (s : State) (d : DSlot),
    let n := d.core.toNat
    let c := s.core n
    let q := d.q.toNat
    (∀ get, s.issuesNow n (if get then .dmaGet d else .dmaPut d) = true →
      let e := s.dmaDesc n d get
      let rs := s.deliverRanges n (if get then .dmaGet d else .dmaPut d)
      let covers := if e.sigEn = true ∧ e.ordered = false then s.outbound n e.scope else []
      exec (if get then .dmaGet d else .dmaPut d) s = .next { withCore s n { (c.countUp rs) with
        queues := mset c.queues q (mget [] c.queues q ++ [({ id := s.nextId, isGet := get, desc := e, ranges := rs, covers := covers } : DEntry)]) } with nextId := s.nextId + 1 } ∧
      let bytes := s.chkRead n (d.descAddr c) 64
      e.src = (leAt bytes 0 8 + (if get then c.readS d.rr else c.readChk d.src).toNat) % 2 ^ 64 ∧
      e.dst = (leAt bytes 8 8 + (if get then c.readChk d.dst else c.readS d.rr).toNat) % 2 ^ 64 ∧
      e.len0 = leAt bytes 16 4 ∧ e.n1 = leAt bytes 20 2 + 1 ∧ e.n2 = leAt bytes 22 2 + 1 ∧ e.n3 = leAt bytes 24 2 + 1) ∧
    (s.issuesNow n (.strandSend d) = true →
      let ep : SendEp := mget {} c.sends d.ep
      let m : Msg :=
        { id := s.nextId, g := d.granules, endMark := d.f.getLsbD 26, tag := d.bits 47 40, seq := ep.seqNext,
          payload := d.payload c, sig := if d.f.getLsbD 27 then some (d.bits 37 32, BitVec.ofNat 32 (d.bits 63 48)) else none,
          covers := if d.f.getLsbD 27 then s.outbound n 0 else [] }
      ep.tModule = s.config.module → ep.tCore < 256 → ep.tSkein < 16 →
      exec (.strandSend d) s = .next (underWay { withCore s n { c with
          sends := mset c.sends d.ep { ep with queue := ep.queue ++ [m], seqNext := (ep.seqNext + 1) % 2 ^ 32 } } with
        nextId := s.nextId + 1 } n
        { carrying 0 .strandReq n (0x10000000000 + ep.tCore * 2 ^ 24 + 0xF10000 + 64 * ep.tSkein) [] (.strand n d.ep s.nextId) with
          len := 64 * d.granules, aux := d.granules - 1 + 256 * d.ep })) ∧
    (s.issuesNow n (.cableRun d) = true → ∃ k, s.parseCable n (d.descAddr c) = some k ∧
      exec (.cableRun d) s = .next { withCore s n { c with cable := some { k with
          id := s.nextId, covers := s.outbound n 0, loadCovers := s.outbound n k.load.scope, storeCovers := s.outbound n k.store.scope } } with
        nextId := s.nextId + 1 })

/-! ### Transactions -/

namespace Sys2Proof.Claim

/-- R147, R149, R151 to R155: the oldest descriptor of a queue that has a burst left sends its next one: a read request, or a write of the
bytes of its source, of a transposed block its part; green traffic spends its tokens; nothing moves at the in-flight limit of the queue,
nor a read without landing space (homes of this module, and nothing to combine with). -/
def BurstSend : Prop :=
  ∀ (s : State) (core : CoreId) (q : BitVec 2) (e : DEntry) (u : Burst),
    let n := core.toNat
    let c := s.core n
    let mem := (s.pcore n).mem
    let cost := 1024 * ((u.len + 63) / 64)
    let data := if e.desc.transpose then
        slice (e.desc.transform ((e.desc.blockRows u.block).flatMap (fun r => Memory.readN mem r e.desc.len0)))
          (e.desc.blockOffset e.sent u.block) u.len
      else Memory.readN mem u.src u.len
    (mget [] c.queues q.toNat).find? (fun e => decide (e.sent < e.desc.bursts.length)) = some e → e.desc.bursts[e.sent]? = some u →
    (256 ≤ s.qBursts n q.toNat → exec (.dmaBurstSend core q) s = .next s) ∧
    (e.isGet = true → 64 ≤ s.landingUsed n → exec (.dmaBurstSend core q) s = .next s) ∧
    (s.qBursts n q.toNat < 256 → (e.isGet = true → s.landingUsed n < 64 ∧ c.combine = []) →
      (e.isGet = false → s.readsClean n (putReads e.desc u) = true) →
      s.place n (if e.isGet then u.src else u.dst) ≠ .remote →
      exec (.dmaBurstSend core q) s = .next (underWay (withCore s n { c with
          queues := mset c.queues q.toNat ((mget [] c.queues q.toNat).map (fun y => if y.id = e.id then { y with sent := y.sent + 1 } else y))
          tokens := if cost ≤ c.tokens then c.tokens - cost else c.tokens
          yellow := if cost ≤ c.tokens then c.yellow else min (2 ^ 32 - 1) (c.yellow + 1)
          combine := if e.isGet = true ∧ e.desc.vol = false ∧ s.combinable n u.src = true then
              [{ addr := u.src, txn := s.nextId, line := false }] else c.combine }) n
        (if e.isGet then { carrying 0 .readReq n u.src [] (.dma n q.toNat e.id) with vol := e.desc.vol, len := u.len, aux := e.sent }
         else { carrying 0 .write n u.dst data (.dma n q.toNat e.id) with len := u.len, aux := e.sent })))

/-- R150, R153: the oldest descriptor of a queue completes once its last burst has landed: it leaves the queue, `done` counts it, and an
ACKED signal that covers nothing else sets out (for a tally of this module). -/
def DescriptorCompletes : Prop :=
  ∀ (s : State) (core : CoreId) (q : BitVec 2) (e : DEntry) (es : List DEntry),
    let n := core.toNat
    let c := s.core n
    let signals : Prop := e.desc.sigEn = true ∧ e.desc.ordered = false
    mget [] c.queues q.toNat = e :: es →
    (e.landed ≠ e.desc.bursts.length → exec (.dmaComplete core q) s = .next s) ∧
    (e.landed = e.desc.bursts.length → e.covers = [] → (signals → s.place n (e.desc.signalAddr n e.isGet) ≠ .remote) →
      ∃ t, exec (.dmaComplete core q) s = .next t ∧ t = { s with cores := t.cores, nextId := t.nextId, flight := t.flight } ∧
        (mget [] (t.core n).queues q.toNat).map (fun y => y.id) = es.map (fun y => y.id) ∧
        mget 0 (t.core n).dmaDone q.toNat = (mget 0 c.dmaDone q.toNat + 1) % 2 ^ 32 ∧
        (t.core n).ranges = (if e.isGet = true ∧ e.counted = false then (c.countDown e.ranges).ranges else c.ranges) ∧
        (¬ signals → t.flight = s.flight ∧ ∀ m, m ≠ n → t.core m = s.core m) ∧
        (signals → (∀ m, m ≠ n → t.core m = calmed s n (s.core m)) ∧ t.flight = s.flight ++
          [carrying s.nextId .tallyAdd n (e.desc.signalAddr n e.isGet) (leBytes 4 e.desc.sigVal.toNat) (.dma n q.toNat e.id)]))

/-- R35, R37, R157, R158: the scoreboard counts of a delivery go with its last burst, and the operation itself with its
acknowledgement. -/
def DeliveriesComplete : Prop :=
  ∀ (s : State) (core : CoreId) (id : Nat),
    let n := core.toNat
    let c := s.core n
    (∀ o, c.short.find? (fun o => o.id == id) = some o →
      (o.done = true → o.counted = false → exec (.deliveryLastBurst core id) s = .next (withCore s n { (c.countDown o.ranges) with
        short := c.short.map (fun x => if x.id = id then { x with counted := true } else x) })) ∧
      (o.done = true → exec (.shortPathComplete core id) s = .next (withCore s n
        { (if o.counted then c else c.countDown o.ranges) with short := c.short.filter (fun x => x.id != id),
                                                               shortDone := (c.shortDone + 1) % 2 ^ 32 })) ∧
      (o.done = false → exec (.deliveryLastBurst core id) s = .next s ∧ exec (.shortPathComplete core id) s = .next s)) ∧
    ∀ e, c.short.find? (fun o => o.id == id) = none → (c.queues.flatMap (fun q => q.2)).find? (fun e => e.id == id) = some e →
      let ends : Prop := e.isGet = true ∧ e.landed = e.desc.bursts.length ∧ e.counted = false
      (ends → exec (.deliveryLastBurst core id) s = .next (withCore s n { (c.countDown e.ranges) with
        queues := c.queues.map (fun q => (q.1, q.2.map (fun x => if x.id = id then { x with counted := true } else x))) })) ∧
      (¬ ends → exec (.deliveryLastBurst core id) s = .next s)

/-- R128, R157: a burst of a short-path read or a move lands at the external port in one cycle: exactly its bytes change. -/
def BurstLands : Prop :=
  ∀ (s : State) (id oid : Nat) (x : Txn), s.txn id = some x → x.kind = .landing → x.origin = .short x.core oid →
    s.shortBlocked x.core oid = false →
    ∃ t, exec (.externalBurstWrite id) s = .next t ∧
      t = { s with cores := t.cores, phys := t.phys, flight := s.flight.filter (fun y => y.id != id) } ∧
      (∀ m, m ≠ x.core → t.core m = s.core m) ∧ t.core x.core = { s.core x.core with short := (s.core x.core).short.map (fun o =>
        if o.id = oid then { o with done := !(s.flight.any (fun y => y.id != id && y.origin == .short x.core oid)) } else o) } ∧
      (∀ p, p ≠ s.physOf x.core → t.ph p = s.ph p) ∧
      t.pcore x.core = { s.pcore x.core with mem := (t.pcore x.core).mem, weak := (t.pcore x.core).weak } ∧
      ∀ a, Memory.read (t.pcore x.core).mem a =
        if x.loc ≤ a ∧ a < x.loc + x.data.length then x.data.getD (a - x.loc) 0 else Memory.read (s.pcore x.core).mem a

/-- R152, R168, R169, R274: a read request of a core that may read finds the bytes of its home; every read combined with it takes the
same data; then the response lands in the space its requester reserved. -/
def ReadsAreAnswered : Prop :=
  ∀ (s : State) (id : Nat) (x : Txn), s.txn id = some x →
    (∀ n oid a, x.kind = .readReq → x.follows = none → x.origin = .short n oid → x.port = none → s.shortBlocked n oid = false →
      s.place x.core x.dst = .hbm a → s.hbmWaits a x.len = false → s.accessBreach x.core x.dst x.len false = none →
      exec (.readReq id) s = .next { s with flight := s.flight.map (fun y =>
        if y.id = id ∨ y.follows = some id then
          { y with kind := .readResp, data := if a + x.len ≤ 0xBFFFE00000 then Memory.readN s.hbm a x.len else s.hbmRead a x.len,
                   follows := none }
        else y) }) ∧
    (x.kind = .readResp → exec (.readResp id) s = .next { withCore s x.core { s.core x.core with
        combine := (s.core x.core).combine.filter (fun e => e.txn != id) } with
      flight := s.flight.map (fun y => if y.id = id then { y with kind := .landing } else y) })

/-- R157, R169, R170: a write of the short path is performed at its home, exactly its bytes change, and it is on its way back; its
acknowledgement marks the operation done, and no release waits for it any longer. -/
def WritesArePerformed : Prop :=
  ∀ (s : State) (id n oid : Nat) (x : Txn), s.txn id = some x → x.origin = .short n oid → x.port = none →
    (x.kind = .write → s.shortBlocked n oid = false → s.readIndexTarget x = none →
      (∀ a, s.place x.core x.dst = .hbm a → s.hbmShut a = false) → s.accessBreach x.core x.dst x.data.length true = none →
      ∃ t, exec (.write id) s = .next t ∧
        t.flight = s.flight.map (fun y => if y.id = id then { y with kind := .writeAck } else y) ∧
        (∀ a, s.place x.core x.dst = .hbm a → t.phys = s.phys ∧ ∀ b, Memory.read t.hbm b =
          if a ≤ b ∧ b < a + x.data.length then x.data.getD (b - a) 0 else Memory.read s.hbm b) ∧
        (∀ m off, s.place x.core x.dst = .win m off → s.fenced m = false → off + x.data.length ≤ 0xC00000 →
          t.hbm = s.hbm ∧ (∀ p, p ≠ s.physOf m → t.ph p = s.ph p) ∧ ∀ b, Memory.read (t.pcore m).mem b =
            if off ≤ b ∧ b < off + x.data.length then x.data.getD (b - off) 0 else Memory.read (s.pcore m).mem b) ∧
        ∀ m off, s.place x.core x.dst = .win m off → s.fenced m = true → t.phys = s.phys ∧ t.hbm = s.hbm) ∧
    (x.kind = .writeAck → exec (.writeAck id) s = .next { withCore s n { (s.core n).acked oid with
        short := (s.core n).short.map (fun o => if o.id = oid then { o with done := true } else o) } with
      flight := s.flight.filter (fun y => y.id != id) })

/-- R176, R177: an add that reaches its unit raises the tally by its value, modulo 2^32, and leaves flight (a core that is not fenced). -/
def AddsAreApplied : Prop :=
  ∀ (s : State) (id n rid c k : Nat) (x : Txn), s.txn id = some x → x.kind = .tallyAdd → x.origin = .release n rid → x.port = none →
    tallyAt (s.place x.core x.dst) = some (c, k) → s.addBreach x.core c = false → s.fenced c = false → (s.core c).reqs = [] →
    ∃ t, exec (.tallyAdd id) s = .next t ∧ t = { s with cores := t.cores, flight := s.flight.filter (fun y => y.id != id) } ∧
      (∀ m, m ≠ c → t.core m = s.core m) ∧ t.core c = { s.core c with
        tallies := mset (s.core c).tallies k (mget 0 (s.core c).tallies k + BitVec.ofNat 32 (leNat (x.data.take 4))) }

end Sys2Proof.Claim

/-- R35, R128, R150 to R158: bursts, descriptors and short-path operations on their way. -/
def Obligations.DmaAndShortPathFlow : Prop := BurstSend ∧ DescriptorCompletes ∧ DeliveriesComplete ∧ BurstLands

/-- R152, R157, R168 to R170, R176, R177: requests, writes and adds at their homes, and their answers. -/
def Sys2Proof.Claim.HomeTransactions : Prop := ReadsAreAnswered ∧ WritesArePerformed ∧ AddsAreApplied

/-- R9, R22, R29, R39, R167: every slot command that meets no hold and no breach completes; it changes no buffer and no HBM, no pattern and
no session, and neither the configuration, the time nor a unit's state. -/
def Sys2Proof.Claim.SlotsComplete : Prop :=
  ∀ (s : State) (i : Instr) (core : CoreId), slotCore i = some core → s.issuesNow core.toNat i = true →
    ∃ t, exec i s = .next t ∧ t.hbm = s.hbm ∧ (∀ p, (t.ph p).mem = (s.ph p).mem) ∧ t.patterns = s.patterns ∧ t.sessions = s.sessions ∧
      t.config = s.config ∧ t.clock = s.clock ∧ t.units = s.units

/-- Whether the transaction or the operation that an event names by number is known. -/
def Sys2Proof.Claim.named (s : State) (i : Instr) : Prop :=
  match i with
  | .readReq id | .readResp id | .write id | .writeAck id | .tallyAdd id | .strandReq id | .strandData id | .externalBurstWrite id =>
    (s.txn id).isSome = true
  | .deliveryLastBurst core id => ((s.core core.toNat).short.find? (fun o => o.id == id)).isSome = true ∨
      (((s.core core.toNat).queues.flatMap (fun q => q.2)).find? (fun e => e.id == id)).isSome = true
  | .shortPathComplete core id => ((s.core core.toNat).short.find? (fun o => o.id == id)).isSome = true
  | _ => True

/-- Every command that is no slot, no issue cycle and no held cycle completes, whatever the state, where the number it names is known. -/
def Sys2Proof.Claim.EventsComplete : Prop :=
  ∀ (s : State) (i : Instr), slotCore i = none → (∀ core e ports, i ≠ .issueCycle core e ports) → (∀ core k, i ≠ .heldTurnEnd core k) →
    named s i → ∃ t, exec i s = .next t

/-- An event that names no transaction in flight, or no operation outstanding, stops with `noSuchTransaction`. -/
def Sys2Proof.Claim.UnknownTransactionsFault : Prop :=
  ∀ (s : State) (id : Nat) (core : CoreId), s.txn id = none → (s.core core.toNat).short.find? (fun o => o.id == id) = none →
    ((s.core core.toNat).queues.flatMap (fun q => q.2)).find? (fun e => e.id == id) = none →
    ∀ i ∈ [Instr.readReq id, .readResp id, .write id, .writeAck id, .tallyAdd id, .strandReq id, .strandData id,
           .externalBurstWrite id, .deliveryLastBurst core id, .shortPathComplete core id],
      exec i s = .fault .noSuchTransaction

/-- R29, R39, R167: every slot command completes where it meets no hold and no breach, and every event but the issue and held cycles (of
which another statement speaks) wherever the number it names is known; one that names no transaction in flight and no operation outstanding
stops (the number is the model's own name for a transaction: entry 7). -/
def Obligations.CommandsComplete : Prop := Claim.SlotsComplete ∧ Claim.EventsComplete ∧ Claim.UnknownTransactionsFault

/-- R177, R183, R184: the answer of another core's tally unit clears the requester's row and is an acquire of its scope; a release whose
covered writes are all acknowledged sends its add (here where no message is held back behind it: R157). -/
def Sys2Proof.Claim.ReleasesAndAnswers : Prop :=
  ∀ (s : State) (core : CoreId),
    let n := core.toNat
    let c := s.core n
    (∀ h x, c.held = some h → h.granted = true → h.arrived = false → h.row = [.tallyTake x] ∨ h.row = [.tallyWait x] →
      ∃ t, exec (.tallyRelease core) s = .next t ∧ t = { s with cores := t.cores } ∧ (∀ m, m ≠ n → t.core m = s.core m) ∧
        t.core n = { acquired n (scopeOf x) c with held := some { h with arrived := true } }) ∧
    ∀ r, c.rels.find? (fun r => r.waits.isEmpty) = some r → s.place n r.addr ≠ .remote → r.origin.core? = some n →
      (∀ x ∈ s.flight, x.unsent = false) → (∀ m k, r.origin = .release m k → ∀ t, tallyAt (s.place n r.addr) ≠ some (n, t)) →
      exec (.ackedRelease core) s = .next (underWay (withCore s n { c with rels := c.rels.filter (fun x => x.id != r.id) }) n
        (carrying 0 .tallyAdd n r.addr (leBytes 4 r.value.toNat) r.origin))

/-- R152, R157, R168 to R170, R176, R177, R183, R184: transactions at their homes, and what their answers set off. -/
def Obligations.HomesAndAnswers : Prop := Claim.HomeTransactions ∧ Claim.ReleasesAndAnswers

/-! ### Strands and cables -/

/-- R198 to R208: requests queue at the skein in order; the oldest is granted where its ring has room, wrapping where the message does
not fit before the end, and waits where it has none; the reader's position releases the distance moved; a message that is written and
acknowledged leaves its queue; a grant that is fully written advances the completed contents and signals the notify tally. -/
def Sys2Proof.Claim.StrandFlow : Prop :=
  ∀ (s : State) (core : CoreId) (skein : BitVec 4),
    let n := core.toNat
    let c := s.core n
    let k : Skein := mget {} c.skeins skein.toNat
    let withSkein (k : Skein) : Core := { c with skeins := mset c.skeins skein.toNat k }
    (∀ id x, s.txn id = some x → x.kind = .strandReq → x.origin ≠ .outside → x.port = none →
      s.place x.core x.dst = .win n (0xF10000 + 64 * skein.toNat) → (∀ y ∈ s.flight, y.kind = .strandReq → id ≤ y.id) →
      exec (.strandReq id) s = .next { withCore s n (withSkein { k with reqs := k.reqs ++
          [{ core := x.core, module := s.config.module, ep := x.aux / 256, g := x.aux % 256 + 1 }] }) with
        flight := s.flight.filter (fun y => y.id != id) }) ∧
    (∀ r rs, k.reqs = r :: rs → k.enable = true → k.alloc ≤ 2 ^ k.log2 → (s.pcore r.core).weak = [] →
      let b := 64 * r.g
      let room := 2 ^ k.log2 - k.alloc
      let need := if b ≤ room then b else room + b
      (2 ^ k.log2 < k.used + need → exec (.strandGrant core skein) s = .next s) ∧
      (k.used + need ≤ 2 ^ k.log2 → ∃ t, exec (.strandGrant core skein) s = .next t ∧ t.phys = s.phys ∧ t.hbm = s.hbm ∧
        mget {} (t.core n).skeins skein.toNat =
          { k with
            reqs := rs, used := k.used + need, alloc := if b ≤ room then (k.alloc + b) % 2 ^ k.log2 else b,
            grants := k.grants ++ [⟨r, if b ≤ room then k.alloc else 0, if b ≤ room then none else some k.alloc,
              b + (if b ≤ room then 0 else 64), none⟩] })) ∧
    (∀ g gs, k.grants = g :: gs → g.left = 0 → k.notifyEn = false →
      let e := g.pos + 64 * g.req.g
      exec (.grantComplete core skein) s = .next (withCore s n (withSkein
        { k with
          grants := gs, wrOff := if e = 2 ^ k.log2 then 0 else e, msgs := (k.msgs + 1) % 2 ^ 20,
          wraps := (k.wraps + (if g.wrapAt.isSome = true ∨ e = 2 ^ k.log2 then 1 else 0)) % 2 ^ 24 }))) ∧
    (∀ off wraps, off < 2 ^ k.log2 → off < 2 ^ 20 → wraps < 2 ^ 24 → off % 64 = 0 →
      let whole := 2 ^ 24 * 2 ^ k.log2
      let ahead (w o : Nat) : Nat := (((w * 2 ^ k.log2 + o : Nat) - (k.rdWraps * 2 ^ k.log2 + k.rdOff : Nat) : Int) % whole).toNat
      ahead wraps off ≤ ahead k.wraps k.wrOff →
      exec (.readIndexWrite core skein (BitVec.ofNat 64 (off + wraps * 2 ^ 20))) s =
        .next (withCore s n (withSkein { k with rdOff := off, rdWraps := wraps, used := k.used - ahead wraps off }))) ∧
    (∀ ep : BitVec 4, ∀ m ms, (mget {} c.sends ep.toNat : SendEp).queue = m :: ms → m.unacked = some 0 → m.sig = none →
      ∃ t, exec (.strandSendComplete core ep) s = .next t ∧ t = { s with cores := t.cores } ∧ (∀ m, m ≠ n → t.core m = s.core m) ∧
        ((mget {} (t.core n).sends ep.toNat : SendEp).queue.map (fun x => x.id)) = ms.map (fun x => x.id)) ∧
    (∀ id x off, s.txn id = some x → x.kind = .strandData → x.origin ≠ .outside → x.port = none → s.place x.core x.dst = .win n off → s.fenced n = false →
      ∃ t, exec (.strandData id) s = .next t ∧ (∀ p, p ≠ s.physOf n → t.ph p = s.ph p) ∧ t.hbm = s.hbm ∧
        t.flight = s.flight.map (fun y => if y.id = id then { y with kind := .writeAck } else y) ∧
        ∀ a, Memory.read (t.pcore n).mem a =
          if off ≤ a ∧ a < off + x.data.length then x.data.getD (a - off) 0 else Memory.read (s.pcore n).mem a)

/-- R160, R165, R166: a stage whose ring slots are not ready waits inside the cable and does nothing else; a stage that starts a unit
is one unit further; a cable whose stages are all done and acknowledged ends, and its done_val sets out for its tally (the first and the last
with no result of the epilogue still on its way: R162). -/
def Sys2Proof.Claim.CableFlow : Prop :=
  ∀ (s : State) (core : CoreId) (k : Cable), (s.core core.toNat).cable = some k →
    let n := core.toNat
    let c := s.core n
    (∀ stage : BitVec 2, k.stageDone stage.toNat = false → k.canStart stage.toNat = false → k.waiting.testBit stage.toNat = false →
      k.epiPipe = [] →
      exec (.cableStageUnit core stage) s = .next (withCore s n { c with cable := some { k with waiting := k.waiting + 2 ^ stage.toNat } })) ∧
    (∀ stage : BitVec 2, k.stageDone stage.toNat = false → k.canStart stage.toNat = true →
      ∃ t j, exec (.cableStageUnit core stage) s = .next t ∧ (t.core n).cable = some j ∧ t.hbm = s.hbm ∧
        (∀ p, p ≠ s.physOf n → t.ph p = s.ph p) ∧ j.waiting.testBit stage.toNat = false ∧
        j.loadU = k.loadU + (if stage = 0 then 1 else 0) ∧ j.arrU = k.arrU + (if stage = 1 then 1 else 0) ∧
        j.epiU = k.epiU + (if stage = 2 then 1 else 0) ∧ j.stoU = k.stoU + (if stage = 3 then 1 else 0)) ∧
    ((∀ i < 4, k.stageDone i = true) → k.toStore = [] → k.unacked = 0 → s.cableLoads n = false → k.covers = [] → k.epiPipe = [] →
      c.lent = 0 →
      k.doneTally < 63 →
      ∃ t, exec (.cableComplete core) s = .next t ∧ t = { s with cores := t.cores, nextId := s.nextId + 1, flight := t.flight } ∧
        (t.core n).cable = none ∧ (∀ m, m ≠ n → t.core m = calmed s n (s.core m)) ∧
        t.flight = s.flight ++
          [carrying s.nextId .tallyAdd n (0x10000000000 + n * 2 ^ 24 + 0xF00000 + 8 * k.doneTally) (leBytes 4 k.doneVal.toNat) (.cable n)])

/-- R160, R165, R166, R198 to R208: strand messages through their skein, and cables through their stages. -/
def Obligations.StrandAndCableFlow : Prop := Claim.StrandFlow ∧ Claim.CableFlow

/-! ### Rows and held turns -/

namespace Sys2Proof.Claim

/-- The state in which the firmware has offered one event more to the scorebook: R411, R413. -/
def told (s : State) (code source : Nat) (data : List Byte) : State :=
  { s with book := { s.book with offered := s.book.offered ++ [{ code := code, source := source, data := data }] } }

/-- A core whose check stage passes a fetched row of empty slots: the row joins those that wait to issue, and the row pointer goes on (R29,
R31, R32, R54). -/
def passed (k : Core) (pips tag : Nat) (hold : Option (Nat × Nat)) : Core :=
  { k with
    pc := (match k.next with | some r => r | none => (afterRow k.pc k.loops).2)
    loops := (match k.next with | some _ => k.loops | none => (afterRow k.pc k.loops).1)
    next := none, held := none, stepLeft := k.stepLeft.map (fun j => j - 1)
    skid := k.skid ++ [some { row := [], pips := pips, tag := tag, pc := k.pc, bank := k.bank, loops := k.loops, hold := hold }] }

/-- A core after some held or idle cycles: R192, R294. -/
def waited (s : State) (n cycles : Nat) : Core :=
  { s.core n with quiet := if s.quiet n then min (2 ^ 20) ((s.core n).quiet + cycles) else 0
                  wait := if s.waits n then min 4096 ((s.core n).wait + cycles) else 0 }

/-- Held cycles of the turn in progress, the one now open included. -/
def turnLen (k : Core) : Nat := k.turn.elim 0 (fun t => t.len) + 1

/-- A core whose held turn ends with this cause, length and row tag: R54. -/
def turnEnded (k : Core) (cause : Nat × Nat) (len tag : Nat) : Core :=
  { k with turn := none, lastCause := cause.1, lastDetail := cause.2, lastLen := min (2 ^ 24 - 1) len, lastTag := tag
           lastMember := if cause.1 = 0xD then 0 else k.gangPos }

/-- A held row checked again, found with the condition `y` of the lowest code: R39, R54. -/
def heldAgain (h : Held) (y : Nat × Nat) (broke : Bool) : Held :=
  { (if y.1 < h.cause ∨ h.cause = 0xD then { h with cause := y.1, detail := y.2 } else h) with broke := h.broke || broke }

/-- A lending core has requested its pips back, once its check stage finds these conditions and none of them but PIPS: R293, R296. -/
def asks (c : Core) (holds : List (Nat × Nat)) : Bool := c.reclaiming || (c.lent != 0 && holds.all (fun h => h.1 == 0xA))

/-- R27, R29, R32, R38, R39, R53, R293: the row that passed its check stage four cycles before issues and is counted, and results due are
visible to the rows of the next cycle; meanwhile the row at the check stage passes, or begins its hold with the lowest condition found. -/
def IssueCycles : Prop :=
  ∀ (s : State) (core : CoreId) (ports : List PortFact) (k : Checked) (ks : List (Option Checked)) (w : Row),
    let n := core.toNat
    let c := s.core n
    let p := s.pcore n
    (∀ x ∈ ports, x.found = []) → p.weak = [] →
    c.inGang = false → s.debugOf n = none → c.late = [] → s.rescaleDue n = none → c.phase = .running → c.fetchEnd = false →
    c.held = none → c.skid = some k :: ks → ks.length = 3 → k.row = [] → k.breach = none → s.fetchRow n = some w → w.slots = [] →
    c.mx.base = none →
      let holds := s.rowHolds n { row := [], pips := w.pips.toNat }
      let u := withPhys s n { p with rowCount := p.rowCount + 1 }
      let c' : Core := { c with skid := ks, wait := 0, quiet := 0, chkOld := c.chkOld.filter (fun e => now s n + 1 < e.1)
                                rowFrom := none, reclaiming := asks c holds }
      let next := passed c' w.pips.toNat w.tag.toNat none
      (holds = [] →
        (c.pipe = [] → exec (.issueCycle core [] ports) s = .next (withCore u n next)) ∧
        (∀ due r v, c.pipe = [⟨due, .sreg r v⟩] → exec (.issueCycle core [] ports) s = .next (withCore u n
          (if due ≤ now s n + 1 then { next with s := mset c.s r.toNat v, pipe := [] } else next))) ∧
        ∀ due r m v, c.pipe = [⟨due, .vreg r m v⟩] → exec (.issueCycle core [] ports) s = .next (withCore u n
          (if due ≤ now s n + 1 then { next with v := mset c.v r.toNat (landed (c.readV r) m v), pipe := [] } else next))) ∧
      (holds ≠ [] → c.pipe = [] → ∃ y ∈ holds, (∀ h ∈ holds, y.1 ≤ h.1) ∧
        exec (.issueCycle core [] ports) s = .next (withCore u n { c' with
          skid := ks ++ [none]
          held := some { cause := y.1, detail := y.2, tag := w.tag.toNat, row := [], pips := w.pips.toNat, fetched := true,
                         broke := holds.any (fun h => h.1 == 0xE) } }))

/-- R39, R41, R53, R54, R192, R294: a held cycle is counted in its turn; the held row is checked again, and passes once no condition is
left; the turn ends, with the lowest code found in it, when a row that met no hold is due. -/
def HeldCycles : Prop :=
  ∀ (s : State) (core : CoreId) (h : Held) (ks : List (Option Checked)),
    let n := core.toNat
    let c := s.core n
    let p := s.pcore n
    c.inGang = false → s.debugOf n = none → c.late = [] → s.rescaleDue n = none → c.phase = .running → c.fetchEnd = false →
    c.held = some h → h.fetched = true → h.row = [] → c.skid = none :: ks → ks.length = 3 → c.pipe = [] →
      let holds := s.rowHolds n { row := [], pips := h.pips }
      let cause := s.curCause n
      let u := withPhys s n { p with holdCount := p.holdCount + (if c.turn = none then 1 else 0), holdCycles := p.holdCycles + 1 }
      let c' : Core := { waited s n 1 with
        skid := ks, turn := some { cause := cause.1, detail := cause.2, len := turnLen c }, reclaiming := asks c holds }
      ∃ next : Core,
        (holds = [] → next = passed c' h.pips h.tag (if h.cause = 0xD then none else some (h.cause, h.detail))) ∧
        (holds ≠ [] → ∃ y ∈ holds, (∀ z ∈ holds, y.1 ≤ z.1) ∧
          next = { c' with skid := ks ++ [none], held := some (heldAgain h y (holds.any (fun z => z.1 == 0xE))) }) ∧
        (ks.head? = some none → exec (.heldTurnEnd core { cycles := 1 }) s = .next (withCore u n next)) ∧
        ∀ k, ks.head? = some (some k) → exec (.heldTurnEnd core { cycles := 1 }) s = .next (withCore u n
          { turnEnded next cause (turnLen c) k.tag with skid := some { k with hold := none } :: next.skid.drop 1 })

/-- R39, R53, R54, R177: a tally slot that stands alone and is held goes on in the cycle in which its release or grant has arrived. -/
def SlotTurnEnds : Prop :=
  ∀ (s : State) (core : CoreId) (h : Held) (x : CSlot),
    let n := core.toNat
    let c := s.core n
    let p := s.pcore n
    c.inGang = false → c.late = [] → s.rescaleDue n = none → c.phase = .idle ∨ c.phase = .running → c.held = some h →
    h.fetched = false → h.row = [.tallyTake x] ∨ h.row = [.tallyWait x] → x.core = core → c.skid = [] → c.pipe = [] →
    s.rowHolds n { row := h.row, pips := h.pips } = [] →
      let u := withPhys s n { p with holdCount := p.holdCount + (if c.turn = none then 1 else 0), holdCycles := p.holdCycles + 1 }
      exec (.heldTurnEnd core { cycles := 1 }) s = .next (withCore u n
        { turnEnded (waited s n 1) (s.curCause n) (turnLen c) 0 with held := none, reclaiming := asks c [] })

/-- R44, R190, R192, R294: a core that issues no row issues none; outside the held turns of its gang its cycles pass without one, and its
pipelines go on by themselves where no member of its gang issues. -/
def IdleCycles : Prop :=
  ∀ (s : State) (core : CoreId),
    let n := core.toNat
    let c := s.core n
    (c.phase ≠ .running → ∀ fetch ports, exec (.issueCycle core fetch ports) s = .next (s.appear ports)) ∧
    (c.phase ≠ .running → n ∉ s.members n ∨ s.stalled n = false → c.pipe = [] → c.late = [] → (∀ w ∈ c.mx.work, w.rescales = []) → c.mx.base = none →
      ∀ held, exec (.heldTurnEnd core held) s = .next (withCore s n { waited s n held.cycles with
        drained := if s.issuing n = [] then c.drained + held.cycles else c.drained }))

end Sys2Proof.Claim

/-- R27, R29, R32, R38, R39, R41, R53, R54, R177, R190, R192, R294: on a core in no gang, the rows of a cycle at their check stage and at
issue, stated with empty slots; held cycles and the end of their turn; and the cycles of a core that issues no row. -/
def Obligations.IssueTurns : Prop := IssueCycles ∧ HeldCycles ∧ SlotTurnEnds ∧ IdleCycles

/-- R292: at the check stage a row whose pips exceed the available ones, pip_allot less what is lent, holds with cause PIPS, and no other
row does; a core that has lent nothing never holds on pips (its rows declare no more than pip_allot: the loader sees to it, R289). -/
def Obligations.PipsHold : Prop :=
  ∀ (s : State) (n : Nat) (x : Issue),
    let c := s.core n
    ((∃ h ∈ s.rowHolds n x, h.1 = 0xA) ↔ c.allot - c.lent < x.pips) ∧
    (c.lent = 0 → x.pips ≤ c.allot → ∀ h ∈ s.rowHolds n x, h.1 ≠ 0xA)

/-! ### Tasks -/

namespace Sys2Proof.Claim

/-- No management request waits for a task boundary, no two tasks share a number, and the cores of a pattern are mapped as the ring
order asks, each on a working core: R43, R375, R386, R400. -/
def Settled (s : State) (p : Pattern) : Prop :=
  s.mgmt.waiting = [] ∧ (∀ u, (s.unit u).pending = none) ∧ (s.tasks.map (fun t => t.num)).Nodup ∧ s.mapped p.man.coreSet = true ∧
    ((coreRecs p.image).map (fun r => r.core)).Nodup ∧
    ∀ q < 8, onPanel p.man.coreSet q ≠ [] → ∀ e ∈ s.ringMap q 0, s.physOf e.1 = e.2

/-- What may cast on: the oldest queued task `t` of a pattern, its input received, the pattern fitting, no earlier task of its image
awaiting a check, its cores free and none of them draining, its channels accepting accesses, the module's time locked, its P none or the state
head (R189, R243, R259, R277, R318, R378, R388). -/
def MayCastOn (s : State) (p : Pattern) (t : Task) (ts : List Task) : Prop :=
  s.pattern p.handle = some p ∧ s.queued p.handle = t :: ts ∧ s.config.formed = true ∧ t.inHash.isSome = true ∧ p.unfit = false ∧
    s.awaitsCheck p.handle = false ∧ s.coresFree p.man.coreSet t.num = true ∧ s.unsettled p.man.coreSet = false ∧
    s.rangesShut p = false ∧ s.clock.locked = true ∧ (t.p = 0 ∨ t.p = p.stateHead)

/-- The batch of the oldest queued task needs no batching window: it is closed, full, or none is set (R369). -/
def AtOnce (p : Pattern) (t : Task) (ts : List Task) : Prop :=
  p.batchMax ≤ 1 ∨ p.windowUs = 0 ∨ t.p ≠ 0 ∨ p.batchMax ≤ (p.batch (t :: ts)).length

/-- These tasks, in their slots, have cast on together: each knows its slot, its batch and its start time (R266, R369), and each core of the pattern
stands ready at its entry row with nothing queued, nothing held, and the cast-on values of its tallies (R189, R232). -/
def CastsOn (s u : State) (p : Pattern) (members : List Task) (st : TState) : Prop :=
  (∀ i (h : i < members.length), ∃ k, u.task members[i].num = some k ∧ k.state = st ∧ k.start = startAfter s.clock.gt ∧
    k.slot = members[i].slot ∧ k.batch = members[i].batch ∧ k.coreSet = p.man.coreSet ∧ k.poisoned = false) ∧
  ∀ r ∈ coreRecs p.image, let c := u.core r.core
    c.phase = .ready ∧ c.task = members.head?.map (fun t => t.num) ∧ c.pc = r.entryRow ∧ c.bank = r.entryBank ∧ c.held = none ∧
    c.pipe = [] ∧ c.loops = [] ∧ c.queues = [] ∧ c.short = [] ∧ c.mx = {} ∧
    ∀ k < 63, mget 0 c.tallies k = if r.tallyMask.testBit k then BitVec.ofNat 32 (r.tallyInit.getD k 0) else 0

/-- A batch in its slots: slot 0 to the first, and so on; each member of several knows them all (R369). -/
def inSlots (b : List Task) : List Task :=
  b.mapIdx (fun i t => { t with slot := i, batch := if b.length = 1 then [] else b.map (fun t => t.num) })

end Sys2Proof.Claim

/-- R266: the start time of a cast-on is the first GT value of the form k × 65,536 + 32,768 at least 40,000 units after the decision,
so that it is never an epoch mark, a multiple of 65,536 (R255). -/
def Obligations.StartTime : Prop :=
  ∀ (s : State) (p : Pattern) (t : Task) (ts : List Task), MayCastOn s p t ts → Settled s p →
    AtOnce p t ts → ∀ twin, s.twinTakes p twin = false →
      ∃ u k, exec (.taskCastOn { task := t.num, twinQueued := twin }) s = .next u ∧ u.task t.num = some k ∧ k.state = .running ∧
        (∃ j, k.start = j * 65536 + 32768) ∧ s.clock.gt + 40000 ≤ k.start ∧
        (∀ j, s.clock.gt + 40000 ≤ j * 65536 + 32768 → k.start ≤ j * 65536 + 32768) ∧ ¬ 65536 ∣ k.start

/-- R189, R266, R326, R369, R374, R383: the oldest queued task casts on with those of its batch, at once or when the batching window has
passed, and not before; under SHARE the twin may take it; a stopped task casts on again when its cores are free, with what is left of its
batch; the second run of a DUAL task casts on cores that no reserved core of its panel had; at the start time, as the panel counts GT, the
cores of the panel begin issue. -/
def Obligations.CastOns : Prop :=
  ∀ (s : State),
    (∀ p t ts, MayCastOn s p t ts → Settled s p →
      (AtOnce p t ts → ∀ twin, s.twinTakes p twin = false → ∃ u, exec (.taskCastOn { task := t.num, twinQueued := twin }) s = .next u ∧
        CastsOn s u p (inSlots (p.batch (t :: ts))) .running) ∧
      (∀ twin, s.twinTakes p twin = true → ∃ u k, exec (.taskCastOn { task := t.num, twinQueued := twin }) s = .next u ∧
        u.task t.num = some k ∧ k.state = .running ∧ k.check = .twin ∧ u.cores = s.cores) ∧
      (AtOnce p t ts ∨ s.windowOver p t = true → ∃ u, exec (.batchingWindow p.handle) s = .next u ∧
        CastsOn s u p (inSlots (p.batch (t :: ts))) .running) ∧
      (¬ AtOnce p t ts → s.windowOver p t = false → exec (.batchingWindow p.handle) s = .next s)) ∧
    (∀ p t, s.task t.num = some t → s.pattern t.handle = some p → Settled s p → s.awaitsReplay t p = true → s.config.formed = true →
      s.coresFree p.man.coreSet t.num = true → s.unsettled p.man.coreSet = false → s.rangesShut p = false → s.clock.locked = true →
      p.dual = false → (p.twin ≠ 1 ∨ t.runs.length ≠ 2) → t.batch.Nodup →
      ∃ u, exec (.taskReplay t.num) s = .next u ∧ CastsOn s u p ((s.liveOf t.num).filterMap s.task) .replaying) ∧
    (∀ p t, s.task t.num = some t → s.pattern t.handle = some p → Settled s p → t.check = .second → t.state = .running →
      t.batch = [] → s.config.formed = true → s.clock.locked = true → s.coresFree p.man.coreSet t.num = true → p.dual = true →
      t.runs.length = 1 → s.rangesShut p = false → t.runCores.headD [] = p.man.coreSet.map s.physOf →
      (let free := (s.freeCores p.man.coreSet).boundary p.man;
        free.mayRemap (free.mapFor p.man.coreSet (free.secondMap p.man.coreSet (t.runCores.headD []))) = true) →
      s.fitDual s.images p.image = true →
      ∃ u, exec (.dualSecondRun t.num) s = .next u ∧ CastsOn s u p [t] .running ∧
        ∀ n ∈ p.man.coreSet, ∀ m ∈ reservedBy s.images, m / 32 = n / 32 → u.physOf n ≠ s.physOf m) ∧
    ∀ (core : CoreId) (t : Task), (s.core core.toNat).task = some t.num → s.task t.num = some t →
      (s.core core.toNat).phase = .ready →
      (s.panelGt (core.toNat / 32) < t.start → exec (.startTimeReached core) s = .next s) ∧
      (t.start ≤ s.panelGt (core.toNat / 32) → ∃ u, exec (.startTimeReached core) s = .next u ∧ u = { s with cores := u.cores } ∧
        ∀ m, u.core m = if m ∈ t.coreSet ∧ m / 32 = core.toNat / 32 ∧ (s.core m).phase = .ready ∧ (s.core m).task = some t.num
          then { s.core m with phase := .running } else s.core m)

/-- R190, R192 to R194, R259, R316 to R320, R360, R367, R381: a core whose queues are empty casts off, as many cycles later as its pipelines
have left; a task whose cores have all cast
off completes with its result, D and Q, and moves the state head; a quiet task ends with STALEMATE; equal votes deliver a MIRROR task,
unequal ones start its third run; I is formed once the input has landed; a delivered task is forgotten after 300 s; a cast-on that
waits 10 ms on an unlocked module loses the module. -/
def Obligations.TaskEnds : Prop :=
  ∀ (s : State),
    (∀ core : CoreId, let n := core.toNat
      let c := s.core n
      (c.phase = .ended → (∀ q ∈ c.queues, q.2 = []) → c.short = [] → c.cable = none →
        (∀ e ∈ c.sends, e.2.queue = []) → s.pipesEnd n = true →
        (∃ u, exec (.coreCastOff core) s = .next u ∧ (u.core n).phase = .castOff ∧ (u.core n).atCastoff = true ∧
          (u.core n).drained = c.drained + s.pipesLeft n ∧ (u.core n).mx.work = []) ∧
        (c.pipe = [] → c.mx.work = [] →
          exec (.coreCastOff core) s = .next (withCore s n { c with
            phase := .castOff, atCastoff := true, held := none, mx := c.mx.close }))) ∧
      (c.phase ≠ .ended ∨ (∃ q ∈ c.queues, q.2 ≠ []) ∨ c.short ≠ [] ∨ c.cable ≠ none ∨ (∃ e ∈ c.sends, e.2.queue ≠ []) ∨
          s.pipesEnd n = false → exec (.coreCastOff core) s = .next s)) ∧
    (∀ t p res, s.task t.num = some t → s.pattern t.handle = some p → t.live = true → Settled s p → s.coresOf t.num ≠ [] →
      (∀ n ∈ s.coresOf t.num, (s.core n).phase = .castOff ∧ (s.core n).pipe = [] ∧ (s.core n).rels = [] ∧ (s.core n).skeins = [] ∧
        (∀ f ∈ (s.core n).fifos, f.2.words = []) ∧ ∀ k < 64, s.tally n k = mget 0 (s.core n).tally0 k) →
      (∀ x ∈ s.flight, x.origin.byCores (s.coresOf t.num) = false) → t.poisoned = false → t.cancelled = false → t.batch = [] →
      p.dual = false → p.twin ≠ 1 → s.leads = true → s.slotResult p.man t.slot = some res →
      ∃ u k, exec (.taskCastOff t.num {}) s = .next u ∧ u.task t.num = some k ∧ k.state = .complete ∧ k.status = 0 ∧ k.result = res ∧
        k.digest = resultDigest s.config.n p.hash p.weights (t.inHash.getD 0) t.seeds ∧ k.qHash = sha384 res ∧
        k.gtCastoff = s.clock.gt ∧ (u.pattern t.handle).map (fun q => q.stateHead) = some k.digest ∧
        ∀ n ∈ s.coresOf t.num, (u.core n).task = none) ∧
    (∀ t, s.task t.num = some t → (s.tasks.map (fun t => t.num)).Nodup → t.live = true → t.batch = [] → s.coresOf t.num ≠ [] →
      (∀ n ∈ s.coresOf t.num, 2 ^ 20 ≤ (s.core n).quiet ∧ ∀ h, (s.core n).held = some h → h.cause ≠ 0xE ∧ h.broke = false) →
      (∃ n ∈ s.coresOf t.num, (s.core n).phase ≠ .castOff) →
      (∀ n ∈ s.coresOf t.num, (s.core n).phase ≠ .stopped) → t.cancelled = false → s.inFlight (s.coresOf t.num) = false →
      ∃ u k, exec (.stalemate t.num) s = .next u ∧ u.task t.num = some k ∧ k.state = .complete ∧ k.status = 0x30 ∧ k.result = [] ∧
        u.book.offered.length = s.book.offered.length + 1 + (s.coresOf t.num).length ∧
        ∀ n ∈ s.coresOf t.num, (u.core n).phase = .stopped ∧ (u.core n).task = none) ∧
    (∀ t d q res, s.task t.num = some t → (s.tasks.map (fun t => t.num)).Nodup → t.check = .vote →
      ((d, q) = (t.digest, t.qHash) → ∀ p, s.pattern t.handle = some p → ∃ u k, exec (.mirrorVote t.num d q res) s = .next u ∧
        u.task t.num = some k ∧ k.state = .complete ∧ k.check = .none ∧ k.result = t.result ∧
        (u.pattern t.handle).map (fun q => q.stateHead) = some t.digest) ∧
      ((d, q) ≠ (t.digest, t.qHash) → ∃ u, exec (.mirrorVote t.num d q res) s = .next u ∧
        u.task t.num = some { t with state := .replaying, replays := t.replays + 1, check := .third,
                                     runs := [(t.digest, t.qHash), (d, q)] } ∧
        u.book.offered.length = s.book.offered.length + 2 ∧ u.cores = s.cores)) ∧
    (∀ t, s.task t.num = some t → (s.tasks.map (fun t => t.num)).Nodup →
      (t.inHash = none → t.state = .queued → ∃ u, exec (.inputHash t.num) s = .next u ∧ u = { s with tasks := u.tasks } ∧
        u.task t.num = some { t with inHash := some (sha384 (hashBytes t.p ++ t.input)) }) ∧
      (t.state = .delivered → t.deliveredAt + 300 * 2000000000 ≤ s.clock.gt →
        exec (.taskForgotten t.num) s = .next { s with tasks := s.tasks.filter (fun x => x.num != t.num) }) ∧
      (∀ g, t.waitsUnlocked = some g → s.clock.locked = false → g + 10 * 2000000 < s.clock.gt →
        ∃ u, exec (.castonUnlockedTimeout t.num) s = .next u ∧ u.tasks = [] ∧ u.sessions = [] ∧ u.flight = [] ∧
          u.config.formed = false ∧ u.phys = s.phys ∧ u.hbm = s.hbm ∧ ∀ n, (u.core n).task = none))

/-! ### Errors in the memories -/

/-- R40, R76, R135 to R139, R164, R373: a re-read at an engine port is counted and shown by `ECC_LAST`, and its cycles freeze the core: as a
late hold of its own, as a part of a rescale sequence in progress, or not at all where a running cable owns the port; a re-read at the
external port is counted; the scrubber of a core outside NAP goes on to the next burst, and what it writes back is counted and holds no
error any longer; a word whose re-reads fail is recorded; a sector of HBM that fails outside every pattern's ranges and the firmware's top
4 GiB is recorded, and its row repaired at the channel's next task boundary; a load counts each word it reads that holds a stored error, and
the error stays. -/
def Obligations.MemoryErrors : Prop :=
  ∀ (s : State) (w : EccWord) (corrected : Bool),
    let reread (p : Phys) : Phys :=
      { p with
        uncorr := min (2 ^ 8 - 1) (p.uncorr + 1), eccLast := eccLastOf w false
        corr := if corrected then mset p.corr (bufferCode w.buffer) (min (corrMax w.buffer) (mget 0 p.corr (bufferCode w.buffer) + 1))
                else p.corr
        weak := if corrected ∧ w ∉ p.weak then p.weak ++ [w] else p.weak }
    let recorded (i : Instr) (phys : Nat) : Prop :=
      ∃ u d rest, exec i s = .next u ∧ u.book.offered = s.book.offered ++ ⟨0x60, phys, d⟩ :: rest ∧ u.hbm = s.hbm
    (∀ (core : CoreId) (time : RereadTime),
      let n := core.toNat
      let c := s.core n
      let u := withPhys s n (reread (s.pcore n))
      let inRescale (l : Late) : Prop := l.cause = 0xC ∧ l.after = 0 ∧ l.clear = false
      (w.buffer = .imem → ∀ o, exec (.eccReread core w o time) s = .next s) ∧
      (w.buffer ≠ .imem → recorded (.eccReread core w .failed time) (s.physOf n) ∧
        (time.cable = true → c.cable ≠ none → exec (.eccReread core w (.good corrected) time) s = .next u) ∧
        (time.cable = false ∨ c.cable = none →
          ((∃ l ∈ c.late, inRescale l) → exec (.eccReread core w (.good corrected) time) s = .next (withCore u n { c with
            late := c.late.map (fun l => if l.cause = 0xC ∧ l.after = 0 ∧ l.clear = false then { l with left := l.left + time.cycles } else l) })) ∧
          ((∀ l ∈ c.late, ¬ inRescale l) → exec (.eccReread core w (.good corrected) time) s = .next
            (if c.phase = .running ∨ c.phase = .ended then
              withCore u n { c with late := c.late ++ [{ cause := 0xB, detail := bufferCode w.buffer, left := time.cycles }] }
             else u))))) ∧
    (∀ phys : PhysId, exec (.externalReread phys w (.good corrected)) s =
        .next { s with phys := mset s.phys phys.toNat (reread (s.ph phys.toNat)) } ∧
      recorded (.externalReread phys w .failed) phys.toNat) ∧
    (∀ (phys : PhysId) (r : Reread), let p := s.ph phys.toNat
      (p.nap = true ∨ w.buffer = .acc → ∀ e, exec (.scrubRead phys w e r) s = .next s) ∧
      (p.nap = false → w.buffer ≠ .acc →
        let on (p : Phys) : Phys := { p with scrubPos := (p.scrubPos + 1) % 51200 }
        let back (p : Phys) : Phys :=
          { on p with scrubCorr := min (2 ^ 16 - 1) (p.scrubCorr + 1), weak := p.weak.filter (fun x => x != w) }
        exec (.scrubRead phys w .clean r) s = .next { s with phys := mset s.phys phys.toNat (on p) } ∧
        exec (.scrubRead phys w .corrected r) s = .next { s with phys := mset s.phys phys.toNat (back p) } ∧
        exec (.scrubRead phys w .uncorrectable (.good corrected)) s = .next { s with phys := mset s.phys phys.toNat (back (reread p)) } ∧
        recorded (.scrubRead phys w .uncorrectable .failed) phys.toNat)) ∧
    (∀ (addr : Nat) (first : Bool), let a := addr / 32 * 32
      let c := hbmChannel a
      let b := a / 4096 / 512 * 4096 + a % 4096
      (∀ p ∈ s.patterns, p.roleAt a = none) → a < 0xC000000000 - 2 ^ 32 →
      exec (.hbmUncorr addr true first) s = .next { told s 0x62 (296 + c) (leBytes 8 a ++ [0]) with
        channels := mset s.channels c { s.channel c with repairs := if b ∈ (s.channel c).repairs then (s.channel c).repairs else (s.channel c).repairs ++ [b] } } ∧
      ((s.unit (296 + c)).state = .inService → ∃ u, exec (.hbmUncorr addr false first) s = .next u ∧
        (u.unit (296 + c)).state = .suspect ∧ u.hbm = s.hbm ∧ u.cores = s.cores) ∧
      ((s.unit (296 + c)).state = .suspect → exec (.hbmUncorr addr false first) s = .next (told s 0x62 (296 + c) (leBytes 8 a ++ [1])))) ∧
    ∀ c : CSlot, let n := c.core.toNat
      let p := s.pcore n
      s.mayIssue n (.sLd c) = true → ∃ u, exec (.sLd c) s = .next u ∧ (u.pcore n).weak = p.weak ∧ (u.pcore n).mem = p.mem ∧
        ∀ b : Buffer, mget 0 p.corr (bufferCode b) ≤ corrMax b → mget 0 (u.pcore n).corr (bufferCode b) =
          min (corrMax b) (mget 0 p.corr (bufferCode b) + (p.weak.filter (fun w => w.buffer == b && p.wordMet w (c.addr (s.core n)) 8)).length)

/-! ### Registers -/

/-- R8, R256, R264, R283, R310: a write to a register of module register space acts on its RW fields alone, clamped to their ranges; a
write elsewhere changes nothing; a read of `GT_LO` latches the upper half of GT. -/
def Obligations.ModuleRegisters : Prop :=
  ∀ (s : State) (v : Word),
    let lim (lo hi x : Nat) : Nat := min hi (max lo x)
    let ceiling (p : Nat) : State := told { s with
        panels := mset s.panels p { s.panel p with ceilingNext := some (lim 32 132 (v.toNat % 256)), boundary := false } } 0x16 0x805
      ([5, 1] ++ leBytes 4 (lim 32 132 (v.toNat % 256)))
    let interval : State := told { s with cal := { s.cal with wrInterval := lim 250 4000 (v.toNat % 4096) } } 0x16 0x805
      ([6, 1] ++ leBytes 4 (lim 250 4000 (v.toNat % 4096)))
    exec (.calCtlWrite v) s = .next interval ∧
    exec (.registerWrite 0x20000002000 v) s = .next interval ∧
    exec (.registerWrite 0x20000003018 v) s = .next (told { s with
      power := { s.power with idleMs := lim 1 60000 (v.toNat / 2 ^ 16 % 2 ^ 16) } } 0x16 0x805 ([4, 1] ++ leBytes 4 (lim 1 60000 (v.toNat / 2 ^ 16 % 2 ^ 16)))) ∧
    (∀ p : PanelId, exec (.freqCtlWrite p v) s = .next (ceiling p.toNat)) ∧
    (∀ p < 8, exec (.registerWrite (0x20000001140 + BitVec.ofNat 64 (8 * p)) v) s = .next (ceiling p)) ∧
    (∀ a : Word, a ≠ 0x20000002000 → a ≠ 0x20000003018 → (a < 0x20000001140 ∨ 0x20000001180 ≤ a ∨ a.toNat % 8 ≠ 0) →
      exec (.registerWrite a v) s = .next s) ∧
    exec .gtLoRead s = .next { s with clock := { s.clock with gtHi := s.clock.gt / 2 ^ 32 % 2 ^ 32 } }

/-! ### Loader -/

/-- R50, R51, R234, R236, R363, R365: with the channels of its weights open and every object here or asked for, a load that names a resident
pattern renews its batch settings; one that this or another module refuses leaves patterns and memory alone; one that is accepted becomes a
pattern with the next handle, and HBM changes only in the places of its weight objects. A bank
load that is due writes its segment into the other bank and no other, and is refused at the active bank; its end signals tally 63. -/
def Obligations.LoaderEvents : Prop :=
  ∀ (s : State),
    (∀ l rest, s.loads = l :: rest → s.weightsShut l.image = false → s.mustAsk l = false →
      (∀ p, s.resident l = some p → ∃ t, exec .patternLoad s = .next t ∧ t.loads = rest ∧ t.phys = s.phys ∧ t.hbm = s.hbm ∧
        t.patterns = s.patterns.map (fun q => if q.handle = p.handle then { q with batchMax := l.batchMax, windowUs := l.windowUs } else q)) ∧
      (∀ st record, s.resident l = none → s.verify l.image (l.options.testBit 0) (l.options.testBit 1) = .refuse st record →
        ∃ t, exec .patternLoad s = .next t ∧ t.loads = rest ∧ t.phys = s.phys ∧ t.hbm = s.hbm ∧ t.patterns = s.patterns) ∧
      (∀ refusal, s.resident l = none → l.peerRefusal = some refusal →
        ∃ t, exec .patternLoad s = .next t ∧ t.loads = rest ∧ t.phys = s.phys ∧ t.hbm = s.hbm ∧ t.patterns = s.patterns) ∧
      (∀ ws k, s.resident l = none → l.peerRefusal = none → s.verify l.image (l.options.testBit 0) (l.options.testBit 1) = .accept ws k →
        ∃ t p, exec .patternLoad s = .next t ∧ t.loads = rest ∧ t.phys = s.phys ∧ t.patterns = s.patterns ++ [p] ∧
          t.nextHandle = s.nextHandle + 1 ∧ p.handle = s.nextHandle ∧ p.image = l.image ∧ p.hash = imgHash l.image ∧
          p.batchMax = l.batchMax ∧ p.windowUs = l.windowUs ∧ p.debug = l.options.testBit 0 ∧
          ∀ a, (∀ w ∈ wrefs l.image, w.placesOn s.config.module = true → a < w.addr ∨ w.addr + ((s.loaderObject w.hash).getD []).length ≤ a) →
            Memory.read t.hbm a = Memory.read s.hbm a)) ∧
    ∀ (core : CoreId) (p : Pattern) (k : Nat) (rest : List Nat),
      let n := core.toNat
      let c := s.core n
      ((c.task.bind s.task).bind (fun t => s.pattern t.handle)) = some p → c.flipList = k :: rest → c.bankDue p n = true →
      (∀ bank : BitVec 1, bank.toNat ≠ c.bank → (segAt p.image k).rows ≤ 4096 →
        ∃ t, exec (.ibankLoad core bank k) s = .next t ∧
        t = { s with cores := t.cores, phys := t.phys } ∧ (∀ m, m ≠ n → t.core m = s.core m) ∧ (∀ q, q ≠ s.physOf n → t.ph q = s.ph q) ∧
        t.core n = { c with flipList := rest, loadDone := true, loadRefused := false, segs := mset c.segs bank.toNat k } ∧
        t.pcore n = { s.pcore n with
          imem := (t.pcore n).imem, weak := (s.pcore n).weak.filter (fun w => w.buffer != .imem || w.bank != bank.toNat) } ∧
        (∀ r < 4096, mget 0 (t.pcore n).imem (4096 * bank.toNat + r) =
          if r < (segAt p.image k).rows then segRow p.image (segAt p.image k) r else 0) ∧
        ∀ a, (a < 4096 * bank.toNat ∨ 4096 * (bank.toNat + 1) ≤ a) → mget 0 (t.pcore n).imem a = mget 0 (s.pcore n).imem a) ∧
      (∀ (bank : BitVec 1) (seg : Nat), bank.toNat = c.bank → exec (.ibankLoad core bank seg) s = .next (told (withCore (withPhys s n
        { s.pcore n with refused := min 65535 ((s.pcore n).refused + 1) }) n { c with loadRefused := true }) 0x70 (s.physOf n)
        ([BitVec.ofNat 8 bank.toNat, 0, 0, 0]))) ∧
      (c.loadDone = true → c.reqs = [] → exec (.bankReadySignal core) s = .next (withCore s n
        { c with loadDone := false, tallies := mset c.tallies 63 (mget 0 c.tallies 63 + 1) }))

/-! ### Time, frequency and calibration -/

/-- R299: V(code) of a panel is 0.550 V + 3.5 mV × (code − 32) + its trim, between −25 and +25 mV in steps of 5 mV, here in half
millivolts; no panel rail exceeds 0.95 V. -/
def Obligations.PanelVoltage : Prop :=
  ∀ p : Nat, ∃ step : Int, -5 ≤ step ∧ step ≤ 5 ∧
    ∀ code, 32 ≤ code → code ≤ 132 →
      (vHalfMv p code : Int) = 2 * 550 + 7 * ((code : Int) - 32) + 2 * (5 * step) ∧ vHalfMv p code ≤ 2 * 950

/-- R295: at each epoch mark a panel forms pool_raise: with A the sum of allot over its cores that run a task and are not lending, the
largest n from 0 to 12 for which ceil(A × n / 40) is not above its pool (a panel that is not faulted at the mark). -/
def Obligations.PoolRaise : Prop :=
  ∀ (s : State) (r : EpochReadings) (p : Nat), p < 8 → s.tOn = true → s.panelRuns = true →
    ((s.panel p).sustained = 3 → (s.panel p).droop = false) →
      let a := ((s.cores.filter (fun c => c.1 / 32 == p && c.2.task.isSome && c.2.lent == 0)).map (fun c => c.2.allot)).sum
      ∃ u, exec (.epochMark r) s = .next u ∧ (u.panel p).raised ≤ 12 ∧ (a * (u.panel p).raised + 39) / 40 ≤ (s.panel p).pool ∧
        ∀ n, n ≤ 12 → (u.panel p).raised < n → (s.panel p).pool < (a * n + 39) / 40

/-- R154, R253 to R264, R300, R302 to R304: a unit of GT passes at T, at every region's estimate and in the token buckets, and none passes a
mark that has not come; an epoch mark brings GT to the next multiple of 65,536, or to the one it stands on, with the tokens of its units; a
region whose clock stays as it is corrects its increment by what its estimate is off; and a panel commits its request unless its voltage or
its PLL is not ready, forms the next from its terms, and asks for the voltage of a raise, or of the code it has come down to; a beacon pair with the time source corrects the offset and, within the bound, the lock; four
epochs without one unlock the module. A step on an empty queue is one unit of GT, and holds at a mark or a summary (the model's choice:
entry 6); which sources serve is open (entry 50). -/
def Obligations.TimeKeeping : Prop :=
  ∀ (s : State),
    let due := (s.tOn = true ∧ 65536 ∣ s.clock.gt ∧ s.clock.epoch ≠ s.clock.gt / 65536 % 2 ^ 48) ∨ s.summaryDue = true
    (s.pending = [] → s.boot.aux = false ∨ due → step s = .next s) ∧
    (s.pending = [] → s.boot.aux = true → ¬ due → ∃ u, step s = .next u ∧
      u.clock = { s.clock with
        gt := if s.tOn then s.clock.gt + 1 else if s.clock.sub + 1 < 20 then s.clock.gt else s.clock.gt + 20
        sub := if s.tOn then s.clock.sub else if s.clock.sub + 1 < 20 then s.clock.sub + 1 else 0
        regions := u.clock.regions } ∧
      (∀ i x, s.clock.regions[i]? = some x →
        let p := x.phase + s.regionRate i
        u.clock.regions[i]? = some (if s.stretches i then { x with phase := p % 320, est := x.est + p / 320 * (2 * x.inc) }
          else { x with phase := p % 160, est := x.est + p / 160 * x.inc })) ∧
      u.phys = s.phys ∧ u.hbm = s.hbm ∧ u.flight = s.flight ∧ u.tasks = s.tasks ∧ u.pending = [] ∧
      ∀ n c, s.tOn = true → mfind s.cores n = some c →
        mfind u.cores n = some { c with tokens := min (1024 * c.bwDepth) (c.tokens + c.bwRate) }) ∧
    (∀ r, s.tOn = true → ∃ u m, exec (.epochMark r) s = .next u ∧ 65536 ∣ m ∧ s.clock.gt ≤ m ∧ m ≤ s.clock.gt + 65536 ∧
      (∀ n c, mfind s.cores n = some c →
        mfind u.cores n = some { c with tokens := min (1024 * c.bwDepth) (c.tokens + (m - s.clock.gt) * c.bwRate) }) ∧
      (∀ i x, s.clock.regions[i]? = some x → 0 < s.regionRate i → u.regionRate i = s.regionRate i → s.stretches i = false →
        let p := x.phase + s.regionRate i * (m - s.clock.gt)
        let est := x.est + p / 160 * x.inc
        let err : Int := ((m * 2 ^ 32 : Nat) - (est + p % 160 * x.inc / 160 : Nat) : Int) / 2 ^ 28 * 2 ^ 28
        let inc : Int := (160 * 2 ^ 32 / s.regionRate i : Nat) + err * 160 / (65536 * s.regionRate i : Nat)
        u.clock.regions[i]? = some { phase := p % 160, est := est, inc := inc.toNat }) ∧
      (m = s.clock.gt ↔ 65536 ∣ s.clock.gt ∧ s.clock.epoch ≠ s.clock.gt / 65536 % 2 ^ 48) ∧
      u.clock.gt = m ∧ u.clock.epoch = m / 65536 % 2 ^ 48 ∧
      u.clock.holdover = !(s.clock.beaconSeen || s.clock.isLead) ∧ u.clock.locked = s.clock.locked ∧
      u.power.cap = s.power.capNext.getD s.power.cap ∧ u.power.capNext = none ∧ (∀ q, (u.port q).swapped = false) ∧
      ∀ p < 8, s.panelRuns = true → (s.panel p).sustained = 0 →
        let x := s.panel p
        let y := u.panel p
        let want := if x.reclaimStretch then min x.req (max 32 (120 + y.raised)) else x.req
        let m := if x.drooped || x.droop then 0 else min 15 (mget 15 r.margins p)
        let margin := if x.voutLow ∨ m ≤ 1 then y.cur - 2 else if m ≤ 3 then y.cur - 1 else if m ≤ 7 then y.cur else y.cur + 1
        y.cur = (if want ≠ x.cur ∧ r.unlocked.all (fun q => q.toNat != p) = true ∧ (x.cur < want → want ≤ x.settled) then want else x.cur) ∧
        y.commits = (if y.cur = x.cur then x.commits else (x.commits + 1) % 2 ^ 16) ∧
        y.ceiling = (if x.boundary then x.ceilingNext.getD x.ceiling else x.ceiling) ∧ y.margin = m ∧ y.tj = mget 0 r.tj p ∧
        y.vset = (if y.cur < y.req then some y.req else if y.cur < x.cur then some y.cur else x.vset) ∧
        y.req = max 32 ([y.ceiling, margin, thermalLimit y.cur (mget 0 r.tj p) r.hbmMax, capLimit y.cur r.inPips u.power.cap,
          y.cur + 1].foldl min (120 + y.raised))) ∧
    (∀ (port : PortId) (t1 t2 t3 t4 : Nat), let p := port.toNat
      let sent : State := { s with linkOut := s.linkOut ++ [(p, .beacon)], nextFree := s.nextFree + 1 }
      let off : Int := (((t1 : Int) - t2) + ((t4 : Int) - t3)) / 2
      (s.tOn = false ∨ (s.port p).state ≠ .up → exec (.beacon port t1 (t2, t3) t4) s = .next s) ∧
      (s.tOn = true → (s.port p).state = .up →
        (s.clock.isLead = true ∨ (s.port p).swapped = true ∨ (s.timeSource s.nextFree).all (fun x => x.1 != p) = true →
          exec (.beacon port t1 (t2, t3) t4) s = .next sent) ∧
        ∀ hop, s.clock.isLead = false → (s.port p).swapped = false → s.timeSource s.nextFree = some (p, hop) →
          let bound := if hop || s.config.side then 12 else 8
          ∃ u, exec (.beacon port t1 (t2, t3) t4) s = .next u ∧
            u = { (if s.clock.locked = false ∧ u.clock.locked = true then sent.relocked else sent) with clock := u.clock } ∧
            u.clock.before = some (s.clock.pairing p) ∧ u.clock.gt = s.clock.gt ∧ u.clock.offset = off ∧ u.clock.beaconSeen = true ∧ u.clock.srcPort = p ∧ u.clock.twoHop = hop ∧
            (off = 0 ∨ s.clock.locked = false → u.clock.rate = s.clock.rate ∧ u.clock.slews = s.clock.slews) ∧
            (off ≠ 0 → s.clock.locked = true → |u.clock.rate| ≤ 10000 ∧ u.clock.slews = (s.clock.slews + 1) % 2 ^ 16) ∧
            u.clock.beyond = (if 2 * bound < off.natAbs then s.clock.beyond + 1 else 0) ∧
            (s.clock.locked = true → u.clock.locked = true) ∧
            (s.clock.locked = false → (u.clock.locked = true ↔ off.natAbs ≤ bound ∧ 1 ≤ s.clock.within)))) ∧
    (s.clock.locked = true → s.clock.isLead = false → (4 ≤ s.clock.missed ∨ 4 ≤ s.clock.beyond) →
      ∃ c : Clock, exec .timeUnlocked s = .next (told { s with clock := c, nextFree := s.nextFree + 1 } 0x21 0x800
          (leBytes 1 s.clock.srcPort ++ leBytes 1 s.clock.unlockedEpochs)) ∧
        c = { s.clock with
          locked := false, within := 0, missed := 0, beyond := 0, passed := c.passed, srcPort := c.srcPort, twoHop := c.twoHop } ∧
        (∀ src, ({ s with clock := c } : State).timeSource s.nextFree = some src → c.srcPort = src.1 ∧ c.twoHop = src.2) ∧
        ((∃ x ∈ s.timeSources s.nextFree, x.1 ≠ s.clock.srcPort ∧ x.1 ∉ s.clock.passed) → c.srcPort ≠ s.clock.srcPort))

/-- R262, R263, R300, R387: a voltage settled at what was asked for, a droop, its end, a sustained droop, the reading of a rail and a
regulator's fault, which drains the panel with its working cores. -/
def Obligations.PanelEvents : Prop :=
  ∀ (s : State) (panel : PanelId) (mv : Nat),
    let p := panel.toNat
    let x := s.panel p
    let with' (x : Panel) : State := { s with panels := mset s.panels p x }
    let low := leBytes 1 p ++ leBytes 2 mv ++ leBytes 2 (vHalfMv p x.cur / 2)
    exec (.droopRecovery panel) s = .next (with' { x with droop := false, sustained := 0 }) ∧
    (x.droop = true → x.sustained = 0 → exec (.sustainedDroop panel mv) s = .next (told (with' { x with sustained := 1 }) 0x31 0x803 low)) ∧
    (s.panelRuns = true →
      (∀ code, x.vset = some code → x.cur < code →
        exec (.voltageSettled panel code) s = .next (with' { x with settled := max x.settled code })) ∧
      (∀ code, x.vset ≠ some code → exec (.voltageSettled panel code) s = .next s) ∧
      (x.droop = false → exec (.droop panel) s = .next (with'
        { x with droop := true, drooped := true, stretches := min (2 ^ 16 - 1) (x.stretches + 1) })) ∧
      (2 * mv + 40 < vHalfMv p x.cur →
        exec (.voutTelemetry [(panel, mv)]) s = .next (told (with' { x with voutLow := true }) 0x31 0x803 low)) ∧
      (vHalfMv p x.cur ≤ 2 * mv + 40 → exec (.voutTelemetry [(panel, mv)]) s = .next s)) ∧
    (6 ≤ s.boot.rails → (s.unit (288 + p)).state = .inService → ∃ u, exec (.regulatorFault panel) s = .next u ∧
      (u.unit (288 + p)).state = .draining ∧ (u.unit (288 + p)).target = .disabled ∧ (u.unit (288 + p)).cause = 8 ∧
      (∀ i < 36, s.working (36 * p + i) = true → (u.unit (36 * p + i)).state = .draining) ∧ u.cores = s.cores ∧ u.panels = s.panels)

/-- R272, R274 to R277, R279 to R281, R283 to R286: a channel's one decision of an interval moves its read phase one step or leaves it; a
due window opens after a refresh unless a limit defers it, and at its end the channel reopens with its posted writes retired; a degrading
lane asks for the spare, unless a replay holds the request, the lane moves at the slot chosen, which makes a beacon pair of the epoch on its
port invalid and undoes what that pair has changed, and the receiver confirms; the summary of a
multiple of 2^37 is recorded and cleared once. -/
def Obligations.Calibration : Prop :=
  ∀ (s : State),
    (∀ (chan : ChanId) (temp : Int), s.hbmRuns = true →
      let n := chan.toNat
      let o := s.channel n
      let c := if o.interval = s.clock.gt / 8000000 then o else
        { o with interval := s.clock.gt / 8000000, windows := 0, fillers := 0, recentred := false }
      (∀ l r bursts,
        (c.recentred = true → c.recentreExit = s.cal.exits → exec (.recentre chan l r bursts) s = .next s) ∧
        (c.recentred = false ∨ c.recentreExit ≠ s.cal.exits →
          ∃ u, exec (.recentre chan l r bursts) s = .next u ∧ u = { s with channels := u.channels, cal := u.cal } ∧
          (∀ m, m ≠ n → u.channel m = s.channel m) ∧ u.channel n = { c with
            phase := c.phase + (if 16 ≤ l + r ∧ l + r < 4 * ((l : Int) - r).natAbs then (if l < r then -1 else 1) else 0)
            moved := c.moved + (if 16 ≤ l + r ∧ l + r < 4 * ((l : Int) - r).natAbs then 1 else 0)
            recentred := true, recentreExit := s.cal.exits, fillers := min 1024 (c.fillers + (1024 - bursts)) })) ∧
      (c.isOpen = true ∨ (c.stopped = true ∧ c.windowExit = s.cal.exits) → exec (.allBankRefresh chan temp) s = .next s) ∧
      (c.isOpen = false → c.stopped = false ∨ c.windowExit ≠ s.cal.exits →
        let known := c.temp.getD temp
        let due := max c.lastWindow s.cal.base + s.cal.wrInterval * 2000000 ≤ s.clock.gt ∨ c.due = true ∨ 4 ≤ c.moved ∨
          5 ≤ (temp - known).natAbs ∨ c.windowExit ≠ s.cal.exits
        let free := c.windows < 7 ∧ s.openIn (n / 32) < 2
        ∃ u, exec (.allBankRefresh chan temp) s = .next u ∧ u = { s with channels := u.channels, cal := u.cal } ∧
          (∀ m, m ≠ n → u.channel m = s.channel m) ∧
          u.channel n = (if due ∧ free then { c with isOpen := true, windows := c.windows + 1, temp := some temp }
            else { c with temp := some known }) ∧
          u.cal.defers = (if due ∧ ¬ free then min (2 ^ 16 - 1) (s.cal.defers + 1) else s.cal.defers))) ∧
    (∀ (chan : ChanId) (eye : Nat), let n := chan.toNat
      let c := s.channel n
      c.isOpen = true →
      (35 * 64 ≤ eye * 100 → ∃ u, exec (.windowEnd chan eye) s = .next u ∧ u = { s with channels := u.channels, cal := u.cal } ∧
        (∀ m, m ≠ n → u.channel m = s.channel m) ∧
        u.channel n = { c with
          isOpen := false, posted := [], due := false, fails := 0, moved := 0, lastWindow := s.clock.gt, windowExit := s.cal.exits }) ∧
      (eye * 100 < 35 * 64 → ∃ u, exec (.windowEnd chan eye) s = .next u ∧
        u.channel n = { c with
          isOpen := false, posted := [], due := true, fails := c.fails + 1, stopped := c.stopped || decide (3 ≤ c.fails + 1)
          windowExit := s.cal.exits } ∧
        (c.stopped = false → c.fails + 1 < 3 → (u.unit (296 + n)).state = (s.unit (296 + n)).state) ∧
        (c.stopped = true ∨ 3 ≤ c.fails + 1 → (u.unit (296 + n)).state = .suspect))) ∧
    (∀ (port : PortId) (lane slot : Nat) (open' corr : List Nat),
      let p := port.toNat
      let x := s.port p
      let with' (x : Port) : State := { s with ports := mset s.ports p x }
      let moved (x : Port) : State := { with' x with
        clock := s.clock.unpaired p }
      let here := (s.clock.gt - x.aligned) * 25 / 64
      (s.boot.rails < 8 → exec (.eyeCheck port open' corr) s = .next s) ∧
      (8 ≤ s.boot.rails → x.state ≠ .up → exec (.eyeCheck port open' corr) s = .next { s with
        cal := { s.cal with checks := min (2 ^ 32 - 1) (s.cal.checks + 1) } }) ∧
      (8 ≤ s.boot.rails → x.state = .up → (∀ l < 9, 12 ≤ open'.getD l 63 ∧ corr.getD l 0 ≤ 16384) →
        ∃ u, exec (.eyeCheck port open' corr) s = .next u ∧ u = { s with ports := u.ports, cal := u.cal } ∧
        (∀ q, q ≠ p → u.port q = s.port q) ∧ (u.port p).lowChecks = [] ∧ (u.port p).swapReq = x.swapReq ∧
        (u.port p).corrected = min (2 ^ 32 - 1) (x.corrected + (corr.take 9).sum) ∧ u.cal.checks = min (2 ^ 32 - 1) (s.cal.checks + 1)) ∧
      (8 ≤ s.boot.rails → x.state = .up → lane < 8 → x.spareFor = 15 → x.swapReq = none → x.swapHeld = none → 16384 < corr.getD lane 0 →
        (∀ l, l < lane → 12 ≤ open'.getD l 63 ∧ corr.getD l 0 ≤ 16384) → ∃ u, exec (.eyeCheck port open' corr) s = .next u ∧
        (x.naked = false → (u.port p).swapReq = some lane ∧ (u.port p).swapGt = s.clock.gt ∧ u.linkOut = s.linkOut ++ [(p, .swapReq lane)]) ∧
        (x.naked = true → (u.port p).swapReq = none ∧ (u.port p).swapHeld = some lane ∧ u.linkOut = s.linkOut)) ∧
      (x.state = .up → x.txSpareFor = 15 →
        (∀ n, x.swapTx = some (lane, n) ∨ (x.swapTx = none ∧ n = here + 64) → exec (.swapReq port lane here) s = .next { with'
          { x with swapTx := some (lane, n) } with linkOut := s.linkOut ++ [(p, .swapAt lane n)] }) ∧
        (∀ l n, x.swapTx = some (l, n) → l ≠ lane → exec (.swapReq port lane here) s = .next s)) ∧
      (slot ≠ here → exec (.swapReq port lane slot) s = .next s) ∧
      (x.swapReq = some lane → exec (.swapAt port lane slot) s = .next (with' { x with swapRx := some (lane, slot) })) ∧
      (x.swapTx = some (lane, slot) →
        (here < slot → exec (.laneSwap port true) s = .next s) ∧
        (slot ≤ here → exec (.laneSwap port true) s = .next (told (moved { x with txSpareFor := lane, swapTx := none, swapped := true })
          0x42 0x802 (leBytes 2 (808 + p) ++ leBytes 1 1 ++ leBytes 1 lane)))) ∧
      (x.swapRx = some (lane, slot) →
        (here < slot → exec (.laneSwap port false) s = .next s) ∧
        (slot ≤ here → exec (.laneSwap port false) s = .next (told (moved
          { x with spareFor := lane, swapRx := none, swapped := true, lowChecks := x.lowChecks.filter (fun e => e.1 != lane) }) 0x42 0x802
          (leBytes 2 (808 + p) ++ leBytes 1 0 ++ leBytes 1 lane)))) ∧
      (x.swapReq = some lane → x.spareFor = lane → exec (.swapDone port) s = .next { with' { x with swapReq := none } with
          linkOut := s.linkOut ++ [(p, .swapDone lane)] }) ∧
      (x.swapReq = some lane → x.swapRx = none → x.spareFor ≠ lane → x.naked = false → x.swapGt + 20000 ≤ s.clock.gt →
        exec (.swapReqResend port) s = .next { with' { x with swapReq := some lane, swapGt := s.clock.gt, swapHeld := none } with
          linkOut := s.linkOut ++ [(p, .swapReq lane)] })) ∧
    (∀ (c : Clock) (off rate : Int) (bound : Nat) (src : Nat × Bool),
      (c.paired off bound src rate).unpaired src.1 = { c with beaconSeen := false, before := none } ∧
      ∀ q, q ≠ src.1 → (c.paired off bound src rate).unpaired q = c.paired off bound src rate) ∧
    let due := s.tOn = true ∧ 2 ^ 37 ∣ s.clock.gt ∧ s.cal.summed ≠ s.clock.gt / 2 ^ 37
    (¬ due → exec .calSummary s = .next s) ∧
    (due → ∃ u, exec .calSummary s = .next u ∧ u.clock = s.clock ∧
      u.book = (told s 0x40 0x802 (leBytes 8 s.cal.sumWord ++ (List.range 4).flatMap (fun g => leBytes 8 (s.cal.hbmWord g)))).book ∧
      u.cal = { wrInterval := s.cal.wrInterval, base := s.cal.base, exits := s.cal.exits, summed := s.clock.gt / 2 ^ 37 } ∧
      (∀ p, (u.panel p).marginLow = false ∧ (u.panel p).cur = (s.panel p).cur) ∧
      ∀ p, (u.port p).corrected = 0 ∧ (u.port p).eyeMin = 63 ∧ (u.port p).spareFor = (s.port p).spareFor)

/-! ### Power -/

/-- R303: a panel sensor at 112 °C or an HBM stack at 105 °C trips the module: every rail derived from 48 V goes, it is in AUX-ONLY and
recorded, nothing of its work is left, and it restarts only once PWR_EN has been cycled; below those temperatures nothing happens. -/
def Obligations.ThermalTrip : Prop :=
  ∀ (s : State) (unit : Nat) (temp : Int),
    let hot := (288 ≤ unit ∧ unit < 296 ∧ 112 ≤ temp) ∨ (296 ≤ unit ∧ unit < 808 ∧ 105 ≤ temp)
    (¬ hot → exec (.thermalTrip unit temp) s = .next s) ∧
    (hot → s.boot.rails ≠ 0 → ∃ u, exec (.thermalTrip unit temp) s = .next u ∧ u.boot.rails = 0 ∧ u.power.state = .auxOnly ∧
      u.book = (told s 0x30 0x803 (leBytes 2 unit ++ leBytes 1 (temp % 256).toNat)).book ∧ u.tasks = [] ∧ u.sessions = [] ∧
      u.flight = [] ∧ u.cores = [] ∧ u.config.formed = false ∧
      (∀ facts, ∃ v, exec (.pwrEnAssert facts) u = .next v ∧ v.boot.rails = 0 ∧ v.power.state = .auxOnly ∧ v.power.tripped = true) ∧
      ∃ v, exec .pwrEnDeassert u = .next v ∧ v.boot.rails = 0 ∧ v.power.tripped = false)

/-- R292 to R297, R307 to R310: a waiting core lends what it does not keep, and has it back from the batch that grants it; a core
without a running task naps; an idle module naps its cores, and STANDBY begins once it is asked for and nothing runs. -/
def Obligations.PipsAndPowerStates : Prop :=
  ∀ (s : State),
    (∀ core : CoreId, let n := core.toNat
      let c := s.core n
      s.panelRuns = true → c.lent = 0 → 4096 ≤ c.wait → c.keepPips < c.allot →
      exec (.lend core) s = .next { withCore s n { c with
          lends := (c.lends + 1) % 2 ^ 32, lent := c.allot - c.keepPips, keep := c.keepPips } with
        panels := mset s.panels (n / 32) { s.panel (n / 32) with pool := (s.panel (n / 32)).pool + (c.allot - c.keepPips) } }) ∧
    (∀ (panel : PanelId) (n : Nat), let p := panel.toNat
      let c := s.core n
      let x := s.panel p
      ((List.range 32).map (fun i => 32 * p + i)).filter s.wantsPips = [n] → c.lent ≤ 512 →
      ∃ u, exec (.reclaimBatch panel) s = .next u ∧ u = { s with cores := u.cores, panels := u.panels } ∧
        (∀ m, m ≠ n → u.core m = s.core m) ∧ (∀ q, q ≠ p → u.panel q = s.panel q) ∧
        u.core n = { c with lent := 0, keep := 0, wait := 0, reclaiming := false } ∧ (u.panel p).pool = x.pool - c.lent ∧
        ((u.panel p).reclaimStretch = true ↔ x.reclaimStretch = true ∨ x.pool - c.lent < (u.activeAllot p * (x.cur - 120) + 39) / 40)) ∧
    (∀ phys : PhysId, s.panelRuns = true → s.mayNap phys.toNat = true →
      exec (.napEntry phys) s = .next { s with phys := mset s.phys phys.toNat { s.ph phys.toNat with nap := true } }) ∧
    (s.power.state = .serve → s.openCount = 0 → s.power.idleSince + s.power.idleMs * 2000000 ≤ s.clock.gt →
      ∃ u, exec .idleEntry s = .next u ∧ u = { s with phys := u.phys, power := u.power } ∧ u.power.state = .idle ∧
        u.power.lastCause = 1 ∧ u.power.transitions = (s.power.transitions + 1) % 2 ^ 32 ∧
        ∀ q, (u.ph q) = if q < 288 then { s.ph q with nap := true } else s.ph q) ∧
    (s.boot.aux = true → s.mgmt.eid ≠ 0 → s.power.state = .serve ∨ s.power.state = .idle →
      exec .standbyRequest s = .next { s with
        power := { s.power with standbyAsked := true, target := .standby }
        mgmt := { s.mgmt with out := s.mgmt.out ++ [[0]] } }) ∧
    (s.power.standbyAsked = true → s.power.state = .serve ∨ s.power.state = .idle → s.openCount = 0 →
      ∃ u, exec .standbyEntry s = .next u ∧ u.power.state = .standby ∧ u.power.standbyAsked = false ∧ u.power.lastCause = 2 ∧
        u.hbm = s.hbm ∧ u.cores = s.cores ∧ (∀ q < 288, (u.ph q).nap = true ∧ (u.ph q).mem = (s.ph q).mem) ∧
        (∀ p < 8, (u.panel p).vset = none) ∧
        ∀ n, (u.channel n).isOpen = false ∧ (u.channel n).posted = [] ∧ (u.channel n).repairs = [] ∧ (u.channel n).softRows = [])

/-- R254, R309, R380, R396 to R401, R415, R431 to R433: 48 V or PWR_EN that goes takes every rail and the work with it; PWR_EN boots a
module whose image verified; auxiliary power that goes takes all but the MRAM, the flash and the cartridges; when it comes, the strap
is read and an image verified; a silent CP resets the module. -/
def Obligations.RailsAndReset : Prop :=
  ∀ (s : State) (facts : BootFacts) (strap : BitVec 6),
    (s.boot.rails ≠ 0 → s.power.state ≠ .auxOnly →
      (∃ u, exec .mainRailLost s = .next u ∧ u.boot.rails = 0 ∧ u.boot.main = false ∧ u.power.state = .auxOnly ∧ u.power.lastCause = 4 ∧
        u.clock.gt = s.clock.gt ∧ u.tasks = [] ∧ u.patterns = [] ∧ u.sessions = [] ∧ u.cores = [] ∧ u.hbm = [] ∧
        (∀ p, (u.ph p).mem = []) ∧ u.book = (told s 0x32 0x803 (0 :: leBytes 2 s.liveCount)).book) ∧
      ∃ u, exec .pwrEnDeassert s = .next u ∧ u.boot.rails = 0 ∧ u.boot.pwrEn = false ∧ u.power.state = .auxOnly ∧ u.power.lastCause = 3 ∧
        u.clock.gt = s.clock.gt ∧ u.tasks = [] ∧ u.patterns = [] ∧ u.sessions = [] ∧ u.cores = [] ∧ u.hbm = [] ∧
        u.power.tripped = false ∧ u.book = (told s 0x32 0x803 (1 :: leBytes 2 s.liveCount)).book) ∧
    (s.boot.aux = true → s.boot.rails = 0 → s.power.tripped = false → s.boot.failStep = 0 → 2 ≤ s.boot.step → s.mgmt.waiting = [] →
      facts.railsOk = true → facts.badChannels = [] →
      ∃ u, exec (.pwrEnAssert facts) s = .next u ∧ u.boot.rails = 8 ∧ u.boot.step = 8 ∧ u.boot.pwrEn = true ∧ u.power.state = .serve ∧
        u.clock = { s.clock with
          sub := 0, gtHi := s.clock.gt / 2 ^ 32 % 2 ^ 32, epoch := s.clock.gt / 65536 % 2 ^ 48, regions := u.clock.regions } ∧
        u.clock.regions.length = 23 ∧ ∀ x ∈ u.clock.regions, x.est = s.clock.gt * 2 ^ 32) ∧
    (s.boot.aux = true → ∃ u, exec .auxPowerLost s = .next u ∧ u.boot.aux = false ∧ u.boot.rails = 0 ∧ u.power.state = .auxOnly ∧
      u.clock = {} ∧ u.tasks = [] ∧ u.sessions = [] ∧ u.hbm = [] ∧ u.book.queue = [] ∧ u.boot.minSvn = s.boot.minSvn ∧
      u.mgmt.keys = s.mgmt.keys ∧ u.mgmt.cas = s.mgmt.cas ∧ ∀ b, (u.bay b).cart = (s.bay b).cart) ∧
    (s.boot.aux = false →
      let first := if s.boot.activeB then s.boot.slotBImg else s.boot.slotAImg
      let other := if s.boot.activeB then s.boot.slotAImg else s.boot.slotBImg
      let ok (f : Flash) : Prop := f.sigOk = true ∧ s.boot.minSvn ≤ f.svn
      ∃ u, exec (.auxPowerOn strap true) s = .next u ∧ u.boot.aux = true ∧ u.config.module = strap.toNat % 32 ∧
        u.config.side = strap.getLsbD 5 ∧
        (ok first → u.boot.step = 3 ∧ u.boot.failStep = 0 ∧ u.boot.slotB = s.boot.activeB ∧ u.boot.fallback = false) ∧
        (¬ ok first → ok other → u.boot.step = 3 ∧ u.boot.failStep = 0 ∧ u.boot.slotB = !s.boot.activeB ∧ u.boot.fallback = true) ∧
        (¬ ok first → ¬ ok other → u.boot.step = 2 ∧ u.boot.failStep = 2)) ∧
    (s.boot.rails = 8 → ∀ core check, ∃ u, exec (.watchdog core check) s = .next u ∧ u.boot.boots = (s.boot.boots + 1) % 2 ^ 16 ∧
      u.clock.gt = s.clock.gt ∧ u.tasks = [] ∧ u.patterns = [] ∧ u.sessions = [] ∧ u.flight = [] ∧ u.cores = [])

/-! ### Links -/

namespace Sys2Proof.Claim

/-- The state with one port put in another condition. -/
def withPort (s : State) (p : Nat) (x : Port) : State := { s with ports := mset s.ports p x }

/-- R329 to R331, R333: a flit has 256 bytes: its sequence number and whether it is idle, the number of the last flit that came in order with
or without a nak, the credits given back, the chunk that begins a transaction, and the CRC of the first 252 bytes; a flit of the retry
buffer carries its 15 chunks. -/
def FlitLayout : Prop :=
  ∀ (x : Port),
    (∀ nak : Bool, x.owed.length = 4 → let b := x.idleFlit nak
      b.length = 256 ∧ leAt b 0 2 = x.txSeq % 4096 + 4096 ∧
      leAt b 2 2 = (x.rxSeq + 4095) % 4096 + 4096 + (if nak then 8192 else 0) ∧ leAt b 8 1 = 15 ∧
      (∀ c < 4, leAt b (4 + c) 1 = min 255 (x.owed.getD c 0)) ∧ leAt b 252 4 = (crc32 (b.take 252)).toNat) ∧
    ∀ (f : Flit) (credits : List Nat), credits.length = 4 → let b := x.dataFlit credits f
      let chunks := slice f.msg.bytes (240 * f.part) 240
      b.length = 256 ∧ leAt b 0 2 = f.seq % 4096 ∧ leAt b 2 2 = (x.rxSeq + 4095) % 4096 + 4096 ∧
      leAt b 8 1 = (if f.part = 0 then 0 else 15) ∧ (∀ c < 4, leAt b (4 + c) 1 = min 255 (credits.getD c 0)) ∧
      slice b 12 chunks.length = chunks ∧ leAt b 252 4 = (crc32 (b.take 252)).toNat

/-- Flits and the retry buffer: R281, R329 to R333, R343. A flit in order is accepted and acknowledged in an idle flit where no other goes
out, and a swap request that the replay held goes out; one that is not is counted and answered by a nak, once; a tally add, a read request
or a short write in a flit of its own is in flight from then on, and its receive buffer is given back; naks and time-outs replay all that is
unacknowledged, from the oldest. -/
def Flits : Prop :=
  ∀ (s : State) (port : PortId) (flit : List Byte) (fec : FecFact),
    let p := port.toNat
    let x := s.port p
    let b := padTo 256 flit
    let good := fec.bad = false ∧ leAt b 252 4 = (crc32 (b.take 252)).toNat ∧ leAt b 0 2 % 4096 = x.rxSeq
    let ctl := leAt b 2 2
    let data : Bool := decide (leAt b 0 2 / 4096 % 16 = 0)
    let held := if x.spareFor = 15 then x.swapHeld else none
    let words := min (2 ^ 16 - 1) (x.fecUncorr + fec.words)
    let bad : Port := { x with
      naked := true, fecUncorr := words, crcErrors := min (2 ^ 16 - 1) (x.crcErrors + (if fec.bad then 0 else 1)) }
    let seen : Port := { x with
      naked := false, fecUncorr := words, rxSeq := if data then (x.rxSeq + 1) % 4096 else x.rxSeq
      swapHeld := none, swapReq := held.or x.swapReq, swapGt := if held.isSome then s.clock.gt else x.swapGt
      credits := List.zipWith (fun c i => c + leAt b (4 + i) 1) x.credits (List.range 4) }
    let out := s.linkOut ++ held.toList.map (fun l => (p, LinkMsg.swapReq l))
    let resent (fs : List Flit) : List (Nat × LinkMsg) := fs.map (fun f => (p, .flit (x.dataFlit [0, 0, 0, 0] f)))
    x.state = .up →
    (¬ good → (x.naked = true → exec (.flitReceive port flit fec) s = .next (withPort s p bad)) ∧
      (x.naked = false → exec (.flitReceive port flit fec) s = .next { withPort s p bad.paid with
        linkOut := s.linkOut ++ [(p, .flit (bad.idleFlit true))] })) ∧
    (good → ctl.testBit 12 = false → ctl.testBit 13 = false → x.txQ = [] → x.partChunks = [] →
      (data = false → exec (.flitReceive port flit fec) s = .next { withPort s p seen with linkOut := out }) ∧
      (data = true → leAt b 8 1 % 16 = 15 → exec (.flitReceive port flit fec) s = .next { withPort s p seen.paid with
          linkOut := out ++ [(p, .flit (seen.idleFlit false))] }) ∧
      (∀ k, data = true → leAt b 8 1 % 16 = 0 → kindOf (leAt b 12 1) = some k → leAt b 13 1 % 32 = 1 → kindOf (leAt b 44 1) = none →
        k = .tallyAdd ∨ k = .write ∨ k = .readReq →
        let dst := leAt b 20 8
        dst / 2 ^ 56 % 64 = s.config.module → ((leAt b 15 1).testBit 5 = s.config.side ↔ dst.testBit 62 = false) →
        let len := 8 * (leAt b 18 1 + 1)
        let freed : Port := { seen with owed := seen.owed.set k.cls (seen.owed.getD k.cls 0 + 1) }
        exec (.flitReceive port flit fec) s = .next { withPort s p freed.paid with
          linkOut := out ++ [(p, .flit (freed.idleFlit false))]
          nextId := s.nextId + 1
          flight := s.flight ++ [{ id := s.nextId, kind := k, core := leAt b 14 1, module := leAt b 15 1 % 32,
                                   side := (leAt b 15 1).testBit 5, vol := (leAt b 19 1).testBit 0, dst := dst, len := len,
                                   data := (slice b 28 16).take (if k = .tallyAdd then 256 else len), origin := .outside,
                                   port := some p, aux := leAt b 16 2 }] })) ∧
    (∀ seq, x.txQ = [] → (∃ f ∈ x.unacked, f.seq = seq % 4096) →
      let left := (x.unacked.dropWhile (fun f => f.seq != seq % 4096)).drop 1
      exec (.nak port seq) s = .next { withPort s p { x with
          unacked := left, oldest := if left = [] then 0 else 1, replays := if left = [] then x.replays else min (2 ^ 32 - 1) (x.replays + left.length) } with
        linkOut := s.linkOut ++ resent left }) ∧
    (x.unacked ≠ [] → x.oldest < 7 → exec (.retryTimeout port) s = .next { withPort s p { x with
        oldest := x.oldest + 1, replays := min (2 ^ 32 - 1) (x.replays + x.unacked.length) } with linkOut := s.linkOut ++ resent x.unacked }) ∧
    (x.unacked ≠ [] → x.oldest = 7 → ∃ u, exec (.retryTimeout port) s = .next u ∧ (u.port p).state = .retrain)

/-- Training and retraining of a port: R332, R334 to R336, R390. -/
def Training : Prop :=
  ∀ (s : State) (port : PortId),
    let p := port.toNat
    let x := s.port p
    (p < 36 → s.boot.rails = 8 → x.state = .down ∨ x.state = .train →
      (∀ (m : ModuleId) side pp ok messages, ∃ u, exec (.trainAttempt port (.up m side pp ok messages)) s = .next u ∧
        u.linkOut = s.linkOut ++ [(p, .auth (spdmSign 0 challengeContext messages))] ∧
        (ok = true ∧ s.wired p m.toNat side pp = true → (u.port p).state = .up ∧ (u.port p).peerModule = m.toNat ∧
          (u.port p).peerSide = side ∧ (u.port p).peerPort = pp ∧ (u.port p).txSeq = 0 ∧ (u.port p).rxSeq = 0 ∧ (u.port p).unacked = []) ∧
        (¬ (ok = true ∧ s.wired p m.toNat side pp = true) → (u.port p).state = .miswired)) ∧
      (x.attempts + 1 < 3 → exec (.trainAttempt port .failed) s = .next (withPort s p { x with state := .train, attempts := x.attempts + 1 })) ∧
      (3 ≤ x.attempts + 1 → ∃ u, exec (.trainAttempt port .failed) s = .next u ∧ (u.port p).state = .failed)) ∧
    (x.state = .up → ∀ lane, exec (.retrain port lane) s = .next (told (withPort s p
      { x with state := .retrain, retrains := min (2 ^ 16 - 1) (x.retrains + 1), attempts := 0 }) 0x50 0x800
      (leBytes 2 (808 + p) ++ leBytes 1 (if lane = true ∧ x.spareFor ≠ 15 then 2 else 0)))) ∧
    (x.state = .retrain →
      (x.txQ = [] → exec (.retrainAttempt port true) s = .next { withPort s p { x with
          state := .up, attempts := 0, oldest := 0, replays := min (2 ^ 32 - 1) (x.replays + x.unacked.length) } with
        linkOut := s.linkOut ++ x.unacked.map (fun f => (p, .flit (x.dataFlit [0, 0, 0, 0] f))) }) ∧
      (x.attempts + 1 < 3 → exec (.retrainAttempt port false) s = .next (withPort s p { x with attempts := x.attempts + 1 })) ∧
      (3 ≤ x.attempts + 1 → ∃ u, exec (.retrainAttempt port false) s = .next u ∧ (u.port p).state = .failed))

/-- Formation, heartbeats, firmware messages, and the loss of a module or of the twin: R257, R280, R325, R332, R334 to R336, R341, R344, R363,
R380, R384. -/
def Configurations : Prop :=
  ∀ (s : State),
    (∀ peers, s.boot.rails = 8 → ∃ u, exec (.configFormation true peers) s = .next u ∧ u.config.formed = false ∧ u.phys = s.phys ∧ u.hbm = s.hbm ∧
      ∀ p < 36, (u.port p).state = .train ∧ (u.port p).unacked = [] ∧ (u.port p).txQ = [] ∧ (u.port p).credits = [256, 256, 64, 128] ∧
        (u.port p).spareActive = false ∧ (u.port p).relay = false) ∧
    (∀ peers, s.boot.rails = 8 →
      let used := (List.range 31).filter (fun p => (s.port p).state == .up || (s.port p).state == .retrain)
      let n := (used.map (fun p => (s.port p).peerModule + 1)).foldl max 1
      let nums := s.config.module :: (peers.filter (fun q => q.side == s.config.side)).map (fun q => q.module.toNat)
      let agreed := (∀ m < n, m ∈ nums) ∧ (∀ m ∈ nums, m < n) ∧ ∀ q ∈ peers, q.n = n ∧ q.arch = 1
      ∃ u, exec (.configFormation false peers) s = .next u ∧ u.cores = s.cores ∧ u.phys = s.phys ∧ u.hbm = s.hbm ∧
        (agreed → u.config.formed = true ∧ u.config.n = n ∧ u.config.degree = (if n < 2 then 0 else if n % 2 = 0 then 31 else 30) ∧
          u.config.lead = 0 ∧ u.config.lost = [] ∧ u.config.formations = (s.config.formations + 1) % 2 ^ 32 ∧
          u.clock.gt = (peers.map (fun q => q.gt)).foldl max s.clock.gt ∧
          (∀ p x, mfind s.ports p = some x → u.clock.gt - (u.port p).aligned = s.clock.gt - x.aligned) ∧
          ∀ p < 31, meshPeer n s.config.module p = none → (u.port p).state = .unused) ∧
        (¬ agreed → u.config.formed = false ∧ u.config.n = 0 ∧ u.clock = s.clock ∧ u.tasks = s.tasks)) ∧
    (∀ m q, s.config.formed = true → s.config.twin = false → s.config.n = 2 → s.config.module = 1 - m → m < 2 → s.config.lost = [] →
      let a := 2 ^ 63 + m * 2 ^ 56
      s.outPort 256 a = some q →
      let x := s.port q
      let f : Flit := ⟨x.txSeq % 4096, .txn .fwMsg 255 s.config.module s.config.side 0 8 false a (zeros 8), 0⟩
      x.state = .up → x.txQ = [] → 1 ≤ x.credits.getD 3 0 → x.unacked.length < 2048 →
      exec .heartbeat s = .next { withPort s q { x.paid with
          credits := x.credits.set 3 (x.credits.getD 3 0 - 1), unacked := x.unacked ++ [f], txSeq := (x.txSeq + 1) % 4096
          lastSel := x.lastSel.set 3 256, skipped := [0, 0, 0, 0] } with
        linkOut := s.linkOut ++ [(q, .flit (x.dataFlit x.owed f))] }) ∧
    (∀ peer msg, ∃ u, exec (.fwMsg peer msg) s = .next u ∧
      (∀ k, k ≠ peer → mget [] u.fwStore k = mget [] s.fwStore k) ∧ (mget [] u.fwStore peer).length ≤ 65536 ∧
      (mget [] u.fwStore peer) <:+ (mget [] s.fwStore peer ++ msg) ∧
      (((mget [] s.fwStore peer).length + msg.length ≤ 65536) → mget [] u.fwStore peer = mget [] s.fwStore peer ++ msg) ∧
      (leAt msg 0 4 < 5 ∨ 9 < leAt msg 0 4 → u = { s with fwStore := u.fwStore, flight := u.flight }) ∧
      (leAt msg 0 4 = 5 → ∀ k, s.task (leAt msg 4 4) = some k → k.live = true → k.batch = [] → k.replays < 8 →
        (∃ n ∈ s.coresOf (leAt msg 4 4), (s.core n).phase ≠ .stopped) →
        ∃ j, u.task (leAt msg 4 4) = some j ∧ j.state = .replaying ∧ j.replays = k.replays + 1) ∧
      (leAt msg 0 4 = 7 → ∀ l rest, s.loads = l :: rest → l.peerRefusal = none →
        u.loads = { l with peerRefusal := some (leAt msg 8 2, slice msg 10 16) } :: rest)) ∧
    (∀ module : ModuleId, s.config.formed = true →
      (module.toNat = s.config.module → ∃ u, exec (.moduleLost module) s = .next u ∧ u.tasks = [] ∧ u.sessions = [] ∧ u.flight = [] ∧
        u.config.formed = false ∧ u.phys = s.phys ∧ u.hbm = s.hbm ∧ ∀ n, (u.core n).task = none) ∧
      (module.toNat ≠ s.config.module → module.toNat < s.config.n → s.config.twin = false → (s.tasks.map (fun t => t.num)).Nodup →
        (∀ t ∈ s.tasks, t.batch = [] ∨ t.num ∈ t.batch) →
        ∃ u, exec (.moduleLost module) s = .next u ∧ u.config.formed = false ∧ module.toNat ∈ u.config.lost ∧
          ∀ t ∈ s.tasks, t.live = true ∨ t.state = .queued → ∃ k, u.task t.num = some k ∧ k.state = .complete ∧
            k.status = if t.cancelled then 0x32 else 0x40)) ∧
    (s.config.twin = true → s.config.twinLost = false → (s.tasks.map (fun t => t.num)).Nodup →
      ∃ u, exec .twinLost s = .next u ∧ u.config = { s.config with twinLost := true } ∧ u.cores = s.cores ∧ u.flight = s.flight ∧
        (∀ t ∈ s.tasks, t.check = .vote → t.live = true → (s.pattern t.handle).isSome = true →
          ∃ k, u.task t.num = some k ∧ k.state = .complete ∧ k.check = .none ∧ k.flags / 128 % 2 = 0) ∧
        ∀ t ∈ s.tasks, t.check = .twin → t.live = true → ∃ k, u.task t.num = some k ∧ k.state = .replaying ∧ k.check = .none ∧
          k.replays = t.replays + 1)

end Sys2Proof.Claim

/-- R257, R325, R329 to R338, R341, R343, R344, R363, R380, R384, R390: flits as they are laid out, sent and replayed, the training of ports,
formation, heartbeats, firmware messages (their codes are the model's: entry 44) and losses. -/
def Obligations.LinkEvents : Prop := FlitLayout ∧ Flits ∧ Training ∧ Configurations

/-! ### Sessions and packets -/

namespace Sys2Proof.Claim

/-- A packet arrives on its session in its place: intact, clean, with the next sequence number, nothing held or left unanswered before
it, its opcode permitted to the session, and no result waiting for an acknowledgement: R348, R350, R351, R353, R357. -/
def Arrives (s : State) (p : Packet) (x : Session) : Prop :=
  s.session p.cid = some x ∧ p.intact = true ∧ p.session.toNat = p.cid ∧ p.clean = true ∧
    (p.oob = false → p.seqOut = x.expected) ∧ x.held = [] ∧ x.unanswered.length < 63 ∧
    (opcodeKnown p.opcode.toNat = true → x.permits p.opcode.toNat = true) ∧ ∀ t ∈ s.tasks, t.deliverSeq = none

/-- The state in which such a packet has been taken: R345, R347, R353, R356. -/
def taken (s : State) (p : Packet) (x : Session) : State :=
  { s with sessions := mset s.sessions p.cid { x with
      peer := p.src, lastGt := s.clock.gt, clientAck := p.seqAck, expected := x.expected + 1 } }

/-- The command of one packet that a row names, and whether a packet's fields make it that row's: R248, R249, R358, R366, R393. -/
def singleOf (i : Instr) : Option (Packet × Bool) :=
  match i with
  | .ping p => some (p, p.opcode == 0x01)
  | .queryStatus p => some (p, p.opcode == 0x11)
  | .fetchResult p => some (p, p.opcode == 0x12)
  | .cancel p => some (p, p.opcode == 0x13)
  | .unloadPattern p => some (p, p.opcode == 0x21)
  | .listPatterns p => some (p, p.opcode == 0x22)
  | .getObject p => some (p, p.opcode == 0x31)
  | .deleteObject p => some (p, p.opcode == 0x32)
  | .readScorebook p => some (p, p.opcode == 0x41)
  | .setPowerCap p => some (p, p.opcode == 0x50)
  | .getHealth p => some (p, p.opcode == 0x51)
  | .cartridgeInfo p => some (p, p.opcode == 0x60)
  | .cartridgeRetire p => some (p, p.opcode == 0x61)
  | .arm p => some (p, p.opcode == 0x70 && (armAction p.params < 2 || 6 < armAction p.params))
  | .disarmAll p => some (p, p.opcode == 0x70 && armAction p.params == 2)
  | .refereeLog p => some (p, p.opcode == 0x70 && armAction p.params == 3)
  | .refereeStop p => some (p, p.opcode == 0x70 && armAction p.params == 4)
  | .resume p => some (p, p.opcode == 0x70 && armAction p.params == 5)
  | .step p => some (p, p.opcode == 0x70 && armAction p.params == 6)
  | .readRefereeLog p => some (p, p.opcode == 0x71 && readWhat p.params != 1)
  | .readWindowBytes p => some (p, p.opcode == 0x71 && readWhat p.params == 1)
  | .getCapabilities p => some (p, p.opcode == 0x40 && spdmCode p.params == 0xE1)
  | .negotiateAlgorithms p => some (p, p.opcode == 0x40 && spdmCode p.params == 0xE3)
  | .getDigests p => some (p, p.opcode == 0x40 && spdmCode p.params == 0x81)
  | .getCertificate p => some (p, p.opcode == 0x40 && spdmCode p.params == 0x82)
  | .challenge p => some (p, p.opcode == 0x40 && spdmCode p.params == 0x83)
  | .getMeasurements p => some (p, p.opcode == 0x40 && spdmCode p.params == 0xE0)
  | .getVersion p => some (p, p.opcode == 0x40 && !([0xE1, 0xE3, 0x81, 0x82, 0x83, 0xE0].contains (spdmCode p.params)))
  | _ => none

/-- A session has ended: its context is free and no task is its own any more (R347, R360). -/
def Ended (u : State) (cid : Nat) : Prop := u.session cid = none ∧ ∀ t ∈ u.tasks, t.session ≠ cid

end Sys2Proof.Claim

/-- R349, R350, R353, R354: a numbered reply goes out with the next number of the device, the acknowledgement of the last packet taken
and its own CRC, is kept in the window of the last 256, and answers its command. -/
def Sys2Proof.Claim.NumberedReplies : Prop :=
  ∀ (s : State) (cid op : Nat) (tag seq : BitVec 32) (status : Nat) (params : List Byte) (x : Session), s.session cid = some x →
    ∃ q : Packet, ∃ y : Session, s.reply cid op tag (some seq) status params =
        { s with out := s.out ++ [q], sessions := mset s.sessions cid y } ∧
      q.cid = cid ∧ q.isReply = true ∧ q.oob = false ∧ q.opcode = BitVec.ofNat 16 op ∧ q.tag = tag ∧ q.seqOut = x.devNext ∧
      q.seqAck = x.expected - 1 ∧ q.status = BitVec.ofNat 16 status ∧ q.params = params ∧ q.crc = q.crcOf ∧
      y.devNext = x.devNext + 1 ∧ y.window.getLast? = some (some seq, q) ∧ y.window.length ≤ 256 ∧ y.sent = x.sent + 1 ∧
      y.expected = x.expected ∧ (tag, seq) ∉ y.unanswered

/-- R351, R353, R356, R358: a command of one packet that arrives in its place is answered by a numbered reply with the answer of its
opcode; a packet that is not the row's changes nothing (the model's choice: entry 38); GET_SEQ answers out of band; CLOSE is answered,
a close_notify follows, and the session has ended. -/
def Sys2Proof.Claim.CommandAnswers : Prop :=
  ∀ (s : State) (p : Packet) (x : Session), Arrives s p x → p.more = false → x.multis = [] →
    (∀ i mine, singleOf i = some (p, mine) →
      (mine = true → p.oob = false → let r := (taken s p x).answerOne p.cid p.opcode.toNat p.params
        exec i s = done s (r.1.reply p.cid p.opcode.toNat p.tag (some p.seqOut) r.2.1 r.2.2)) ∧
      (mine = false → exec i s = .next s)) ∧
    (p.opcode = 0x03 → p.oob = false → p.params = [] → p.cid < 16384 →
      ∃ u, exec (.close p) s = .next u ∧ Ended u p.cid ∧ u.out = ((taken s p x).reply p.cid 3 p.tag (some p.seqOut) 0 []).out ∧
        u.alerts = s.alerts ++ [(p.src, .closeNotify)] ∧ u.phys = s.phys ∧ u.hbm = s.hbm ∧ u.patterns = s.patterns) ∧
    (p.opcode = 0x02 → p.oob = true → p.params = [0, 0, 0, 0] →
      let y : Session := { x with peer := p.src, lastGt := s.clock.gt, clientAck := p.seqAck }
      exec (.getSeq p) s = done s (({ s with sessions := mset s.sessions p.cid y } : State).replyOob p.cid 2 p.tag 0 y.seqState)) ∧
    (opcodeKnown p.opcode.toNat = false → p.oob = false → ∃ u q, exec (.badOpcode p) s = .next u ∧ u.out = s.out ++ [q] ∧
      q.status = 0x10 ∧ q.params = [] ∧ q.tag = p.tag ∧ u.tasks = s.tasks ∧ u.patterns = s.patterns)

/-- R349 to R351, R353, R354, R356, R358: numbered replies, and the answers of commands of one packet (a packet that is not
its row's changes nothing: the model's choice, entry 38). -/
def Obligations.PacketAnswers : Prop := Claim.NumberedReplies ∧ Claim.CommandAnswers

/-- R352, R357, R359, R363, R365: a SUBMIT, LOAD_PATTERN or PUT_OBJECT of one packet takes effect and is answered, a load later; a
continuation with the right offset completes the command it belongs to, or adds to it. -/
def Obligations.LongCommands : Prop :=
  ∀ (s : State) (p : Packet) (x : Session), Arrives s p x → p.oob = false →
    let t := taken s p x
    (p.more = false → x.multis = [] →
      (p.opcode = 0x10 → ∀ input, p.params.length = 128 + input.length → p.params.drop 128 = input →
        submitLen (p.params.take 128) = input.length → t.submitBreach p.cid (p.params.take 128) = none →
        let r := t.submit p.cid p.tag (p.params.take 128) input
        exec (.submit p) s = done s (r.1.reply p.cid 0x10 p.tag (some p.seqOut) r.2.1 r.2.2)) ∧
      (p.opcode = 0x20 → ∀ img, p.params.length = 64 + img.length → p.params.drop 64 = img → loadLeadOk (p.params.take 64) = true →
        loadInline (p.params.take 64) = img.length →
        (∀ a r, t.loadPattern p.cid p.tag (p.params.take 64) img = (r, some a) →
          exec (.loadPattern p) s = done s (r.reply p.cid 0x20 p.tag (some p.seqOut) a.1 a.2)) ∧
        (∀ r, t.loadPattern p.cid p.tag (p.params.take 64) img = (r, none) → ∃ u, exec (.loadPattern p) s = .next u ∧
          u.loads = s.loads ++ (r.loads.drop s.loads.length) ∧ u.out = s.out ∧
          (u.session p.cid).map (fun y => y.unanswered) = some (x.unanswered ++ [(p.tag, p.seqOut)]))) ∧
      (p.opcode = 0x30 → ∀ data, p.params.length = 64 + data.length → p.params.drop 64 = data → putLen (p.params.take 64) = data.length →
        t.putBreach (p.params.take 64) = none →
        let r := t.putObject (p.params.take 64) data
        exec (.putObject p) s = done s (r.1.reply p.cid 0x30 p.tag (some p.seqOut) r.2.1 r.2.2))) ∧
    (∀ m : Multi, x.multis = [m] → m.opcode = p.opcode.toNat → m.tag = p.tag → m.dead = false → (leadBytes p.opcode.toNat).isSome = true →
      8 ≤ p.params.length → beAt p.params 0 4 = m.data.length → slice p.params 4 4 = zeros 4 →
      let data := m.data ++ p.params.drop 8
      (p.more = false → data.length = m.total → exec (.continuationBlock p) s = done s (t.wholeCommand p m.lead data)) ∧
      (p.more = true → data.length ≤ m.total → ∃ u y, exec (.continuationBlock p) s = .next u ∧
        u = { s with sessions := mset s.sessions p.cid y } ∧ y.multis = [{ m with data := data }] ∧ y.expected = x.expected + 1) ∧
      (m.total < data.length → ∃ u q, exec (.continuationBlock p) s = .next u ∧ u.out = s.out ++ [q] ∧ q.status = 0x11 ∧
        u.tasks = s.tasks ∧ u.patterns = s.patterns ∧ u.bays = s.bays))

/-- R318, R323, R359 to R364, R376, R378: what SUBMIT, CANCEL, FETCH_RESULT, UNLOAD_PATTERN, QUERY_STATUS and LIST_PATTERNS do. -/
def Obligations.TaskCommands : Prop :=
  ∀ (s : State) (cid : Nat) (tag : BitVec 32) (b : List Byte) (k : Task), (s.tasks.map (fun t => t.num)).Nodup →
    (∀ lead input, s.submitBreach cid lead = none → ∃ t, (s.submit cid tag lead input).1.tasks = s.tasks ++ [t] ∧ t.num = s.nextTask ∧
      t.session = cid ∧ t.tag = tag ∧ t.handle = submitHandle lead ∧ t.input = input ∧ t.seeds = slice lead 64 64 ∧ t.p = submitP lead ∧
      t.state = .queued ∧ t.inHash = none ∧ (s.submit cid tag lead input).1.nextTask = (s.nextTask + 1) % 2 ^ 32 ∧
      (s.submit cid tag lead input).2.1 = 1 ∧ (s.submit cid tag lead input).1.power.state ≠ .idle ∧
      (s.submit cid tag lead input).1.power.state ≠ .standby) ∧
    (b.length = 4 → s.ownTask cid (beNat b) = none → s.answerOne cid 0x13 b = (s, (0x15, [])) ∧ s.answerOne cid 0x11 b = (s, (0x15, []))) ∧
    (b.length = 4 → s.task (beNat b) = some k → k.session = cid →
      (k.state = .queued → (s.answerOne cid 0x13 b).2 = (0, []) ∧
        (s.answerOne cid 0x13 b).1 = { s with tasks := (s.answerOne cid 0x13 b).1.tasks } ∧
        (s.answerOne cid 0x13 b).1.task (beNat b) = some { k with
          state := .complete, status := 0x32, result := [], waitsUnlocked := none, check := .none, input := [] }) ∧
      (k.state = .running → k.check ≠ .none → (s.answerOne cid 0x13 b).1 = { s with tasks := (s.answerOne cid 0x13 b).1.tasks } ∧
        ∃ y, (s.answerOne cid 0x13 b).1.task (beNat b) = some y ∧ y.state = .complete ∧ y.status = 0x32) ∧
      (k.state = .running → k.check = .none → (∃ m ∈ s.liveOf k.num, m ≠ k.num ∧ ∃ j, s.task m = some j ∧ j.cancelled = false) →
        (s.answerOne cid 0x13 b).2 = (0, []) ∧ (s.answerOne cid 0x13 b).1 = { s with tasks := (s.answerOne cid 0x13 b).1.tasks } ∧
        (s.answerOne cid 0x13 b).1.task (beNat b) = some { k with cancelled := true, input := [] }) ∧
      (k.state = .running → k.batch = [] → k.check = .none → (s.answerOne cid 0x13 b).2 = (0, []) ∧
        (∃ y, (s.answerOne cid 0x13 b).1.task (beNat b) = some y ∧ y.state = .complete ∧ y.status = 0x32 ∧ y.result = []) ∧
        ∀ n, (s.core n).task = some k.num → ((s.answerOne cid 0x13 b).1.core n).phase = .stopped) ∧
      (k.state = .delivered → s.answerOne cid 0x13 b = (s, (0, []))) ∧
      ((s.answerOne cid 0x11 b).1 = s ∧ (s.answerOne cid 0x11 b).2.1 = 0 ∧ (s.answerOne cid 0x11 b).2.2.length = 16)) ∧
    (b.length = 12 → s.task (beAt b 0 4) = some k → k.session = cid → k.state = .complete → k.released = false →
      beAt b 4 4 ≤ k.result.length → (k.options.testBit 0 = false ∨ beAt b 4 4 ≠ 0) → ∀ x, s.session cid = some x → k.deliverSeq = none →
      let n := min (beAt b 8 4) 8144
      let chunk := (k.result.drop (beAt b 4 4)).take n
      (s.answerOne cid 0x12 b).2 = (k.status, beBytes 4 k.flags ++ beBytes 4 k.result.length ++ beBytes 4 (beAt b 4 4) ++
        beBytes 4 chunk.length ++ chunk) ∧
      (chunk ≠ [] → beAt b 4 4 + chunk.length = k.result.length →
        (s.answerOne cid 0x12 b).1.task (beAt b 0 4) = some { k with deliverSeq := some x.devNext } ∧
        ∀ ack, (ack - x.devNext).toNat < 2 ^ 31 → ∃ y, ((s.answerOne cid 0x12 b).1.takeAck cid ack).task (beAt b 0 4) = some y ∧
          y.state = .delivered ∧ y.input = [] ∧ y.result = [] ∧ y.deliveredAt = s.clock.gt)) ∧
    (b.length = 8 → ∀ p, s.pattern (beNat b) = some p →
      ((∃ t ∈ s.tasks, t.handle = beNat b ∧ t.state ≠ .delivered ∧ (t.session ≠ 16384 ∨ t.live = true)) →
        s.answerOne cid 0x21 b = (s, (0x20, []))) ∧
      ((∀ t ∈ s.tasks, t.handle = beNat b → t.state = .delivered ∨ (t.session = 16384 ∧ t.live = false)) →
        (s.answerOne cid 0x21 b).2 = (0, []) ∧ (s.answerOne cid 0x21 b).1.pattern (beNat b) = none ∧
        (s.answerOne cid 0x21 b).1.phys = s.phys ∧ (s.answerOne cid 0x21 b).1.hbm = s.hbm)) ∧
    ((s.answerOne cid 0x22 []).1 = s ∧ (s.answerOne cid 0x22 []).2.1 = 0 ∧
      (s.answerOne cid 0x22 []).2.2.length = 8 + 64 * s.patterns.length)

/-- R247 to R249, R305, R358, R365, R366, R391 to R395, R404, R405, R408, R409, R417: what the other commands answer: a cap in its range
takes effect at the next mark; an object that is put is there to get, and one deleted is gone; a cartridge is retired only where the
other bay mirrors it; SPDM requests come in their order; breakpoints, RESUME and STEP. -/
def Obligations.OtherCommands : Prop :=
  ∀ (s : State) (cid : Nat) (b : List Byte),
    (b.length ≤ 64 → s.answerOne cid 0x01 b = (s, (0, b))) ∧ (64 < b.length → s.answerOne cid 0x01 b = (s, (0x11, []))) ∧
    (b.length = 4 → (beNat b < 24000 ∨ 48000 < beNat b → s.answerOne cid 0x50 b = (s, (0x11, []))) ∧
      (24000 ≤ beNat b → beNat b ≤ 48000 → (beNat b < s.fitTotal s.images →
          s.answerOne cid 0x50 b = ({ s with power := { s.power with fitFormed := true } }, (0x13, []))) ∧
        (s.fitTotal s.images ≤ beNat b → s.answerOne cid 0x50 b = (told
          { s with power := { s.power with fitFormed := true, capNext := some (beNat b) } }
          0x16 0x805 ([0, 0] ++ leBytes 4 (beNat b)), (0, beBytes 4 (beNat b) ++ beBytes 4 (s.fitTotal s.images)))))) ∧
    (b.length = 12 → 1 ≤ leAt b 8 1 → leAt b 8 1 ≤ 126 → slice b 9 3 = [0, 0, 0] →
      s.answerOne cid 0x41 b = (s, (0, beBytes 4 (s.book.read (beAt b 0 8) (leAt b 8 1)).length ++
        (s.book.read (beAt b 0 8) (leAt b 8 1)).flatten)) ∧ (s.book.read (beAt b 0 8) (leAt b 8 1)).length ≤ leAt b 8 1) ∧
    ((s.answerOne cid 0x51 []).1 = s ∧ (s.answerOne cid 0x51 []).2.1 = 0 ∧ (s.answerOne cid 0x51 []).2.2.length = 32) ∧
    (∀ lead data, s.putBreach lead = none → sha384 data = putHash lead → putKind lead = 0 → s.object (putHash lead) = none →
      (s.putObject lead data).2 = (0, []) ∧ (s.putObject lead data).1.object (putHash lead) = some data) ∧
    (∀ o, b.length = 60 → s.object (hashOf (b.take 48)) = some o → beAt b 48 8 ≤ o.length →
      s.answerOne cid 0x31 b = (s, (0, (o.drop (beAt b 48 8)).take (min (beAt b 56 4) 8160)))) ∧
    (b.length = 48 → (s.object (hashOf b)).isSome = true →
      ((∃ p ∈ s.patterns, ∃ w ∈ wrefs p.image, w.hash = hashOf b) → s.answerOne cid 0x32 b = (s, (0x20, []))) ∧
      ((∀ p ∈ s.patterns, ∀ w ∈ wrefs p.image, w.hash ≠ hashOf b) → (s.answerOne cid 0x32 b).2 = (0, []) ∧
        ((∀ k < 2, (s.bay k).mounted = true → (s.bay k).writable = true) → (s.answerOne cid 0x32 b).1.object (hashOf b) = none))) ∧
    (∀ k < 2, b = [BitVec.ofNat 8 k, 0, 0, 0] →
      ((s.answerOne cid 0x60 b).1 = s ∧ (s.answerOne cid 0x60 b).2.1 = 0 ∧ (s.answerOne cid 0x60 b).2.2.length = 128) ∧
      ((s.bay k).mounted = true → (s.bay k).cart.isSome = true →
        (((s.bay k).target = true ∨ (s.bay (1 - k)).mirroring = false) → s.answerOne cid 0x61 b = (s, (0x20, []))) ∧
        ((s.bay k).target = false → (s.bay (1 - k)).mirroring = true → (s.answerOne cid 0x61 b).2 = (0, []) ∧
          ((s.answerOne cid 0x61 b).1.bay k).retired = true ∧ ((s.answerOne cid 0x61 b).1.bay k).mounted = false ∧
          ((s.answerOne cid 0x61 b).1.bay k).powered = false ∧
          ∃ c, ((s.answerOne cid 0x61 b).1.bay k).cart = some c ∧ c.state = 2 ∧ c.objects = []))) ∧
    (∀ x, s.session cid = some x → 4 ≤ b.length →
      (spdmCode b = 0x84 → b.length = 4 → b.head? = some 0x10 → (s.answerOne cid 0x40 b).2 = (0, [0x10, 0x04, 0, 0, 0, 1, 0x00, 0x13]) ∧
        ((s.answerOne cid 0x40 b).1.session cid).map (fun y => y.spdm) = some 1) ∧
      (b.head? = some 0x13 →
        ((spdmCode b = 0xE1 ∧ x.spdm ≠ 1) ∨ (spdmCode b = 0xE3 ∧ x.spdm ≠ 2) ∨ (spdmCode b ∈ [0x81, 0x82, 0x83, 0xE0] ∧ x.spdm ≠ 3) →
          s.answerOne cid 0x40 b = (s, (0, [0x13, 0x7F, 4, 0]))) ∧
        (spdmCode b = 0xE1 → x.spdm = 1 → b.length = 20 → ((s.answerOne cid 0x40 b).1.session cid).map (fun y => y.spdm) = some 2) ∧
        (spdmCode b = 0x81 → x.spdm = 3 → b.length = 4 → (s.answerOne cid 0x40 b).2 = (0, [0x13, 0x01, 3, 3] ++
          hashBytes (sha384 (s.chain 0)) ++ hashBytes (sha384 (s.chain 1)))))) ∧
    (s.armBreach cid b = none →
      (armAction b = 1 → (∀ i < armCount b, breakOk (slice b (16 + 16 * i) 16) = true) →
        (s.debugFor (armHandle b) (armTask b)).breaks.length + armCount b ≤ 8 → armTask b ≠ 0 → (s.answerOne cid 0x70 b).2 = (0, []) ∧
        ((s.answerOne cid 0x70 b).1.debugFor (armHandle b) (armTask b)).breaks = (s.debugFor (armHandle b) (armTask b)).breaks ++
          (List.range (armCount b)).map (fun i => breakOf (slice b (16 + 16 * i) 16))) ∧
      (armAction b = 2 → armTask b ≠ 0 → (s.answerOne cid 0x70 b).2 = (0, []) ∧
        ((s.answerOne cid 0x70 b).1.debugFor (armHandle b) (armTask b)).breaks = []) ∧
      (armAction b = 3 ∨ armAction b = 4 → armTask b ≠ 0 → (s.answerOne cid 0x70 b).2 = (0, []) ∧
        ((s.answerOne cid 0x70 b).1.debugFor (armHandle b) (armTask b)).stop = (armAction b == 4)) ∧
      (armAction b = 5 ∨ (armAction b = 6 ∧ armSteps b ≠ 0) → (s.answerOne cid 0x70 b).2 = (0, []) ∧
        ∀ n h, (s.core n).held = some h → (h.broke = true ∨ h.cause = 0xE) →
          (∃ k ∈ s.tasks, k.handle = armHandle b ∧ (armTask b = 0 ∨ k.num = armTask b) ∧ ∃ m ∈ s.batchOf k.num, n ∈ s.coresOf m) →
          (((s.answerOne cid 0x70 b).1.core n).held = some { h with resumed := true, broke := false } ∧
            ((s.answerOne cid 0x70 b).1.core n).stepLeft = if armAction b = 6 then some (armSteps b) else none))) ∧
    (b.length = 20 → readWhat b ≤ 1 → slice b 5 3 = [0, 0, 0] → s.ownTask cid (beAt b 0 4) = none → s.answerOne cid 0x71 b = (s, (0x15, []))) ∧
    (∀ k p, b.length = 20 → s.ownTask cid (beAt b 0 4) = some k → s.pattern k.handle = some p → p.debug = true → slice b 5 3 = [0, 0, 0] →
      (readWhat b = 0 → s.answerOne cid 0x71 b = (s, (0, ((s.referee.drop (beAt b 8 8)).flatten).take (min (beAt b 16 4) 8160)))) ∧
      (readWhat b = 1 → ∀ c off, localPlace (beAt b 8 8) = .win c off → c ∈ s.taskCores k → (s.core c).broken = false →
        s.answerOne cid 0x71 b = (s, (0x20, []))))

/-- R346, R347, R352, R353, R360: a handshake opens a context with the roles of its CA and keys of its own, for a chain of at most four
certificates, and answers internal_error where no context is left; key updates; the ends of a session; commands left incomplete and packets
held too long. Which keys they are is open (Config.recordKey: entry 38). -/
def Obligations.SessionEvents : Prop :=
  ∀ (s : State) (cid : Nat), cid < 16384 →
    (∀ src cert chain c, s.boot.rails = 8 → s.session cid = none → s.sessions.length < 16384 → chain.length ≤ 4 →
      s.mgmt.cas.find? (fun c => c.hash == chain.ca) = some c →
      let same := s.mgmt.cas.filter (fun d => d.keyId == c.keyId)
      let x : Session := { cert := cert, roles := same.foldl (fun a d => a ||| d.roles) 0, cas := same.map (fun d => d.hash), peer := src,
                           lastGt := s.clock.gt, txKey := Config.recordKey s.nextFree, rxKey := Config.recordKey (s.nextFree + 1) }
      exec (.handshake cid src cert chain) s = .next { s with sessions := mset s.sessions cid x, nextFree := s.nextFree + 2 }) ∧
    (∀ src cert chain, s.sessions.length < 16384 → s.mgmt.cas.find? (fun c => c.hash == chain.ca) = none ∨ 4 < chain.length →
      exec (.handshake cid src cert chain) s = .next s) ∧
    (∀ src cert chain, s.boot.rails = 8 → 16384 ≤ s.sessions.length →
      exec (.handshake cid src cert chain) s = .next { s with alerts := s.alerts ++ [(src, .internalError)] }) ∧
    (∃ u, exec (.closeNotify cid) s = .next u ∧ Ended u cid ∧ u.phys = s.phys ∧ u.hbm = s.hbm ∧ u.out = s.out) ∧
    ∀ x, s.session cid = some x →
      (x.sent < 2 ^ 23 → exec (.keyUpdate cid) s = .next s) ∧
      (2 ^ 23 ≤ x.sent → exec (.keyUpdate cid) s =
        .next { s with nextFree := s.nextFree + 1, sessions := mset s.sessions cid { x with
          sent := x.sent - 2 ^ 23, txEpoch := x.txEpoch + 1, txKey := Config.recordKey s.nextFree } }) ∧
      exec (.clientKeyUpdate cid) s = .next { s with nextFree := s.nextFree + 1, sessions := mset s.sessions cid { x with
        rxEpoch := x.rxEpoch + 1, rxKey := Config.recordKey s.nextFree } } ∧
      (s.clock.gt < x.lastGt + 300 * 2000000000 → exec (.sessionExpired cid) s = .next s) ∧
      (x.lastGt + 300 * 2000000000 ≤ s.clock.gt → ∃ u, exec (.sessionExpired cid) s = .next u ∧ Ended u cid ∧
        u.book = (told s 0x54 0x807 (leBytes 2 cid ++ leBytes 2 (s.tasks.filter (fun t => t.session == cid && (t.state == .queued || t.live))).length)).book) ∧
      (∀ m, x.multis = [m] → m.dead = false → m.since + 2 * 2000000000 ≤ s.clock.gt → ∃ u q, exec (.commandTimeout cid) s = .next u ∧
        (u.session cid).map (fun y => y.multis) = some [] ∧ u.out = s.out ++ [q] ∧ q.status = 0x11 ∧ q.tag = m.tag) ∧
      (∀ g p ps, x.held = (g, p) :: ps → g + 5 * 2000000 ≤ s.clock.gt → ∃ u q, exec (.seqGap cid) s = .next u ∧
        (u.session cid).map (fun y => y.held) = some [] ∧ u.out = s.out ++ [q] ∧ q.status = 0x21 ∧ q.oob = true ∧
        q.params = beBytes 4 x.expected.toNat)

/-! ### Cartridge bays -/

namespace Sys2Proof.Claim

/-- The state with one bay put in another condition. -/
def withBay (s : State) (b : Nat) (y : Bay) : State := { s with bays := mset s.bays b y }

/-- The cartridge of the facts that a pulled-in cartridge presents: R404, R409. -/
def cartOf (f : CartFacts) : Cartridge :=
  { serial := f.serial, fwRev := f.fwRev, capacity := f.capacity, authOk := f.authOk, valid := f.valid, state := f.state,
    mirrorId := f.mirrorId, generation := f.generation, written := f.written, objects := f.objects, staged := f.staged,
    pctUsed := f.pctUsed, certHash := f.certHash }

/-- Bay `b` has its cartridge mounted in `u` with these objects and this mirror_id, which is recorded: R404, R405. -/
def MountedWith (u : State) (b : Nat) (objects : List (Hash × Nat × List Byte)) (mirrorId : Nat) : Prop :=
  (u.bay b).mounted = true ∧ (u.bay b).detail = 0 ∧
    ∃ d, (u.bay b).cart = some d ∧ d.objects = objects ∧ d.mirrorId = mirrorId

/-- What becomes of a powered bay whose cartridge `c` is presented in state `t`: it is refused when it does not authenticate, when it is
retired, or when its mirror_id is not that of the mounted partner; else it is mounted, and the older of two of one mirror is the resync
target; a blank one joins the mounted partner's mirror as its target, or begins a mirror: R402, R405, R406, R408. -/
def Mounting (t : State) (b : Nat) (c : Cartridge) (u : State) : Prop :=
  let other := t.bay (1 - b)
  (c.authOk = false → (u.bay b).mounted = false ∧ (u.bay b).detail = 1 ∧
    u.book.offered = t.book.offered ++ [⟨0x80, 0x800, leBytes 1 b ++ leBytes 1 1⟩]) ∧
  (c.authOk = true → c.valid = true → c.state = 2 → (u.bay b).mounted = false ∧ (u.bay b).detail = 4) ∧
  (c.authOk = true → c.valid = true → c.state ≠ 2 →
    (other.mounted = false ∨ other.cart = none → MountedWith u b c.objects c.mirrorId ∧ u.mgmt.mirrorId = c.mirrorId) ∧
    (∀ p, other.mounted = true → other.cart = some p →
      (c.mirrorId ≠ p.mirrorId → (u.bay b).mounted = false ∧ (u.bay b).detail = 5) ∧
      (c.mirrorId = p.mirrorId → MountedWith u b c.objects c.mirrorId ∧ u.mgmt.mirrorId = c.mirrorId ∧
        (c.generation < p.generation → (u.bay b).target = true ∧ (u.bay b).resyncLeft = p.used ∧
          (u.unit (844 + b)).state = .disabled ∧ u.bay (1 - b) = other) ∧
        (p.generation < c.generation → (u.bay (1 - b)).target = true ∧ (u.bay (1 - b)).resyncLeft = c.used ∧
          (u.unit (844 + (1 - b))).state = .disabled) ∧
        (c.generation = p.generation → (u.bay b).target = (t.bay b).target ∧ u.bay (1 - b) = other)))) ∧
  (c.authOk = true → c.valid = false →
    (other.mounted = false ∨ other.cart = none → MountedWith u b [] u.mgmt.mirrorId) ∧
    (∀ p, other.mounted = true → other.cart = some p → MountedWith u b [] p.mirrorId ∧ (u.bay b).target = true ∧
      (u.bay b).resyncLeft = p.used ∧ (u.unit (844 + b)).state = .disabled ∧ u.bay (1 - b) = other))

end Sys2Proof.Claim

/-- R402, R405 to R408, R441: a cartridge that enters an unpowered bay waits; 500 ms of PRSNT# power a bay that is in service, with PERST#
asserted; its release authenticates and mounts the cartridge; a resync ends with the partner's objects; a bay fails, is read for its
wear, and is emptied. -/
def Obligations.Bays : Prop :=
  ∀ (s : State) (bay : BayId), let b : Nat := bay.val
    let y := s.bay b
    let off : Prop := y.retired = true ∨ ((s.unit (844 + b)).cause ≠ 0 ∧
      ((s.unit (844 + b)).state = .disabled ∨ (s.unit (844 + b)).state = .retired))
    (∀ facts, y.cart = none →
      let t := withBay s b { y with cart := some (cartOf facts), lastWritten := facts.written }
      (y.powered = false ∨ y.perst = true → exec (.cartridgeInsert bay facts) s = .next t) ∧
      (y.powered = true → y.perst = false → y.mounted = false → ∃ u, exec (.cartridgeInsert bay facts) s = .next u ∧
        Mounting t b (cartOf facts) u ∧ u.hbm = s.hbm ∧ u.cores = s.cores)) ∧
    (∀ facts, y.cart.isSome = true → exec (.cartridgeInsert bay facts) s = .next s) ∧
    (7 ≤ s.boot.rails → y.powered = false → ¬ off → exec (.prsntDebounce bay) s =
      .next (withBay s b { y with powered := true, pwrdis := false, perst := true })) ∧
    (s.boot.rails < 7 ∨ y.powered = true ∨ off → exec (.prsntDebounce bay) s = .next s) ∧
    (y.powered = true → y.perst = true →
      (y.cart = none → exec (.perstRelease bay) s = .next (withBay s b { y with perst := false })) ∧
      (∀ c, y.cart = some c → y.mounted = false → ∃ u, exec (.perstRelease bay) s = .next u ∧ (u.bay b).perst = false ∧
        Mounting (withBay s b { y with perst := false }) b c u ∧ u.hbm = s.hbm ∧ u.cores = s.cores)) ∧
    (∀ c p, y.target = true → y.draining = false → y.cart = some c → (s.bay (1 - b)).mounted = true → (s.bay (1 - b)).cart = some p →
      ∃ u d, exec (.resyncComplete bay) s = .next u ∧ (u.bay b).target = false ∧ (u.bay b).resyncLeft = 0 ∧ (u.bay b).cart = some d ∧
        d.objects = p.objects ∧ d.staged = p.staged ∧ d.mirrorId = p.mirrorId ∧ (u.unit (844 + b)).state = .inService ∧
        (u.unit (844 + b)).cause = 0 ∧ u.bay (1 - b) = s.bay (1 - b) ∧ u.tasks = s.tasks) ∧
    (y.target = false ∨ y.draining = true → exec (.resyncComplete bay) s = .next s) ∧
    (y.mounted = true → exec (.bayFailure bay) s =
      .next (withBay s b { y with mounted := false, target := false, resyncLeft := 0, detail := 7 })) ∧
    (y.mounted = false → exec (.bayFailure bay) s = .next s) ∧
    (∀ (pct : Byte) c, y.mounted = true → y.draining = false → y.cart = some c →
      let d : Cartridge := { c with pctUsed := pct.toNat }
      let life := max pct.toNat ((c.written * 100 + 14 * 10 ^ 15 - 1) / (14 * 10 ^ 15))
      let data := leBytes 1 b ++ padTo 16 c.serial ++ leBytes 1 (min 255 life)
      (life < 80 → exec (.smartRead bay pct) s = .next (withBay s b { y with cart := some d })) ∧
      (80 ≤ life → life < 100 → y.warned = false → exec (.smartRead bay pct) s =
        .next (told (withBay s b { y with cart := some d, warned := true }) 0x82 0x800 data)) ∧
      (100 ≤ life → c.state = 0 → ∃ u e, exec (.smartRead bay pct) s = .next u ∧ (u.bay b).cart = some e ∧ e.state = 1 ∧
        e.objects = c.objects ∧ u.book.offered.getLast? = some ⟨0x83, 0x800, data⟩)) ∧
    (∀ pct, y.mounted = false ∨ y.draining = true → exec (.smartRead bay pct) s = .next s) ∧
    (y.cart = none → exec (.cartridgeRemove bay) s = .next s) ∧
    (y.cart.isSome = true →
      let out : Bay := { cart := none, lastWritten := y.lastWritten, detail := if y.mounted = true ∧ y.drained = false then 7 else 0 }
      (y.retired = false → y.target = false → exec (.cartridgeRemove bay) s = .next (withBay s b out)) ∧
      (y.retired = true ∨ y.target = true → ∃ u, exec (.cartridgeRemove bay) s = .next u ∧ u.bays = mset s.bays b out ∧
        (u.unit (844 + b)).state = .inService ∧ (u.unit (844 + b)).cause = 0 ∧ u.cores = s.cores))

/-! ### Management -/

namespace Sys2Proof.Claim

/-- The state in which a response has gone out on the management path: R423. -/
def answered (s : State) (b : List Byte) : State := { s with mgmt := { s.mgmt with out := s.mgmt.out ++ [b] } }

/-- A management endpoint that answers, of a module whose CP runs, with nothing waiting and no task running: R400, R421, R423. -/
def Ready (s : State) : Prop :=
  s.boot.aux = true ∧ s.mgmt.eid ≠ 0 ∧ s.boot.rails = 8 ∧ s.mgmt.waiting = [] ∧ ∀ t ∈ s.tasks, t.live = false

/-- Requests for units, and their drains: R386, R387, R400, R423. -/
def UnitRequests : Prop :=
  ∀ (s : State) (u code gen : Nat) (now : Bool), s.boot.aux = true → s.mgmt.eid ≠ 0 →
    let e := s.unit u
    let channel := 296 ≤ u ∧ u < 808
    (s.boot.rails < 8 → exec (.unitRequest u code now gen) s =
      .next { s with mgmt := { s.mgmt with waiting := s.mgmt.waiting ++ [.unitRequest u code now gen] } }) ∧
    (s.boot.rails = 8 → u < 846 →
      (code ∉ [0, 3, 4] ∨ gen < e.generation ∨ (code ≠ 0 ∧ channel) ∨ (e.state = .retired ∧ u < 288) →
        exec (.unitRequest u code now gen) s = .next (answered s ([0, 0] ++ leBytes 8 (s.unitWord u)))) ∧
      (code = 0 → e.generation ≤ gen → ¬ (e.state = .retired ∧ u < 288) → now = true ∨ s.unitUsed u = false →
        ∃ t, exec (.unitRequest u code now gen) s = .next t ∧ (t.unit u).cause = 9 ∧ (t.unit u).pending = none ∧
          (t.unit u).state = (if u < 288 ∧ s.logicalOf u = none then .spare else .inService) ∧
          t.mgmt.out = s.mgmt.out ++ [[0, 1] ++ leBytes 8 (t.unitWord u)] ∧ t.cores = s.cores ∧ t.hbm = s.hbm) ∧
      (∀ st : UState, (code = 3 ∧ st = .disabled) ∨ (code = 4 ∧ st = .retired) → e.generation ≤ gen → ¬ channel →
        ¬ (e.state = .retired ∧ u < 288) →
        (now = true → e.state ≠ st → e.state ≠ .draining → ∃ t, exec (.unitRequest u code now gen) s = .next t ∧
          (t.unit u).state = .draining ∧ (t.unit u).target = st ∧ (t.unit u).cause = 9 ∧
          (t.unit u).generation = min (2 ^ 32 - 1) (e.generation + 1) ∧ t.mgmt.out = s.mgmt.out ++ [[0, 1] ++ leBytes 8 (t.unitWord u)] ∧
          t.cores = s.cores ∧ t.hbm = s.hbm) ∧
        (now = false → s.unitUsed u = true → ∃ t, exec (.unitRequest u code now gen) s = .next t ∧
          (t.unit u) = { e with pending := some st, mgmt := true, generation := min (2 ^ 32 - 1) (e.generation + 1) } ∧
          t = { s with units := t.units, mgmt := t.mgmt, book := t.book } ∧
          t.mgmt.out = s.mgmt.out ++ [[0, 1] ++ leBytes 8 (t.unitWord u)]) ∧
        (now = false → s.unitUsed u = false → ∃ t, exec (.unitRequest u code now gen) s = .next t ∧ (t.unit u).state = st ∧
          (t.unit u).cause = 9 ∧ (t.unit u).pending = none ∧ t.mgmt.out = s.mgmt.out ++ [[0, 1] ++ leBytes 8 (t.unitWord u)] ∧
          t.cores = s.cores ∧ t.hbm = s.hbm))) ∧
    (u < 846 → e.state = .draining → e.target = .disabled ∨ e.target = .retired →
      (s.unitIdle u = false → exec (.drainEnd u false) s = .next s) ∧
      (s.unitIdle u = true → s.tasksUsing u = [] → ∃ t, exec (.drainEnd u false) s = .next t ∧ (t.unit u).state = e.target ∧
        (t.unit u).cause = e.cause ∧ t.cores = s.cores ∧ t.hbm = s.hbm) ∧
      ∃ t, exec (.drainEnd u true) s = .next t ∧ (t.unit u).state = e.target ∧ (t.unit u).cause = 0x0A ∧
        t.book.offered.getLast? = some ⟨0x66, 0x800, leBytes 2 u⟩) ∧
    (e.state ≠ .draining → ∀ forced, exec (.drainEnd u forced) s = .next s)

/-- Settings of the management path: R230, R264, R305, R310, R345, R348, R398, R422, R423, R425. Each waits for a boundary where a task runs,
but for the cap and the ceilings, which wait only for the CP. -/
def SettingRequests : Prop :=
  ∀ (s : State),
    (s.boot.aux = true → s.mgmt.eid ≠ 0 → (∃ t ∈ s.tasks, t.live = true) →
      let later (i : Instr) : Prop := exec i s = .next { s with mgmt := { s.mgmt with waiting := s.mgmt.waiting ++ [i] } }
      (∀ r, later (.enrol r)) ∧ (∀ es, later (.stagedSet es)) ∧ (∀ a b ip, later (.netCfg a b ip)) ∧
        ∀ v, later (.effecterSet .idleMs v) ∧ later (.effecterSet .wrInterval v)) ∧
    (s.boot.aux = true → s.mgmt.eid ≠ 0 → s.boot.rails < 8 → ∀ e v, (e = .cap ∨ ∃ p, e = .ceiling p) →
      exec (.effecterSet e v) s = .next { s with mgmt := { s.mgmt with waiting := s.mgmt.waiting ++ [.effecterSet e v] } }) ∧
    (s.boot.aux = true → s.mgmt.eid ≠ 0 → s.boot.rails = 8 → ∀ v,
      let formed : State := { s with power := { s.power with fitFormed := true } }
      (v < 24000 ∨ 48000 < v → exec (.effecterSet .cap v) s = .next (answered s [2])) ∧
      (24000 ≤ v → v ≤ 48000 →
        (v < s.fitTotal s.images → exec (.effecterSet .cap v) s = .next (answered formed [2])) ∧
        (s.fitTotal s.images ≤ v → exec (.effecterSet .cap v) s = .next (answered (told
          { s with power := { s.power with fitFormed := true, capNext := some v } } 0x16 0x805 ([0, 1] ++ leBytes 4 v)) [0]))) ∧
      ∀ p : PanelId, exec (.effecterSet (.ceiling p) v) s = .next (answered (told { s with
        panels := mset s.panels p.toNat { s.panel p.toNat with ceilingNext := some (min 132 (max 32 v)), boundary := false } }
        0x16 0x805 ([5, 1] ++ leBytes 4 (min 132 (max 32 v)))) [0])) ∧
    (Ready s →
      (∀ r, let cs := if r.ca then s.mgmt.cas else s.mgmt.keys
        let rest := cs.filter (fun c => c.hash != r.hash)
        let more := rest ++ [⟨r.hash, r.keyId, r.roles⟩]
        let most := if r.ca then 32 else 8
        (r.add = true → r.certOk = false ∨ most < more.length →
          exec (.enrol r) s = .next (answered s [2, BitVec.ofNat 8 cs.length])) ∧
        (r.add = true → r.certOk = true → more.length ≤ most → exec (.enrol r) s = .next (answered (told { s with
            mgmt := if r.ca then { s.mgmt with cas := more } else { s.mgmt with keys := more }
            book := { s.book with stateGen := s.book.stateGen + 1 } } 0x16 0x805
            ([if r.ca then 2 else 1, 1] ++ (hashBytes r.hash).take 32)) [0, BitVec.ofNat 8 more.length])) ∧
        (r.add = false → rest ≠ cs → ∃ u, exec (.enrol r) s = .next u ∧
          (if r.ca then u.mgmt.cas = rest ∧ (∀ x ∈ u.sessions, x ∈ s.sessions ∧ r.hash ∉ x.2.cas)
           else u.mgmt.keys = rest ∧ u.sessions = s.sessions) ∧ u.book.stateGen = s.book.stateGen + 1 ∧
          u.mgmt.out = s.mgmt.out ++ [[0, BitVec.ofNat 8 rest.length]])) ∧
      (∀ es, es.length ≤ 16 → ∃ u, exec (.stagedSet es) s = .next u ∧ u.mgmt.out = s.mgmt.out ++ [[0]] ∧
        u.book.offered.getLast? = some ⟨0x16, 0x805, [3, 1] ++ leBytes 4 es.length⟩ ∧
        ∀ b < 2, (s.bay b).writable = true → ∃ c, (u.bay b).cart = some c ∧
          c.staged = es ++ List.replicate (16 - es.length) (List.replicate 52 0)) ∧
      (∀ udp port ip, exec (.netCfg udp port ip) s = .next (answered { s with
        mgmt := { s.mgmt with udpPort := udp.toNat, mgmtPort := port.toNat, ipv6 := ip }
        book := { s.book with stateGen := s.book.stateGen + 1 } } [0])) ∧
      (∀ v, exec (.effecterSet .idleMs v) s = .next (answered (told { s with power := { s.power with idleMs := min 60000 (max 1 v) } }
          0x16 0x805 ([4, 1] ++ leBytes 4 (min 60000 (max 1 v)))) [0]) ∧
        exec (.effecterSet .wrInterval v) s = .next (answered (told { s with cal := { s.cal with wrInterval := min 4000 (max 250 v) } }
          0x16 0x805 ([6, 1] ++ leBytes 4 (min 4000 (max 250 v)))) [0])))

/-- Reads and the firmware by the management path, and the buses it runs on: R396, R399, R417, R421 to R424. -/
def ManagementReads : Prop :=
  ∀ (s : State), s.boot.aux = true →
    (∀ eid : Byte, (eid = 0 ∨ eid = 0xFF → exec (.setEndpointId eid) s = .next (answered s [2])) ∧
      (eid ≠ 0 → eid ≠ 0xFF → exec (.setEndpointId eid) s = .next { s with
        mgmt := { s.mgmt with eid := eid.toNat, out := s.mgmt.out ++ [[0, eid]] } })) ∧
    exec .i3cBroadcastCcc s = .next { s with mgmt := { s.mgmt with i3c := true } } ∧
    (s.mgmt.eid = 0 → (∀ seq n, exec (.sbRead seq n) s = .next s) ∧ (∀ a, exec (.regRead a) s = .next s) ∧
      (∀ x, exec (.sensorRead x) s = .next s) ∧ ∀ c, exec (.moduleReset c) s = .next s) ∧
    (s.mgmt.eid ≠ 0 →
      (∀ seq n, let rs := s.book.read seq n
        exec (.sbRead seq n) s = .next (answered s ([0, BitVec.ofNat 8 rs.length] ++ rs.flatten))) ∧
      (∀ a : Word, 0x20000000000 ≤ a.toNat → let off := a.toNat - 0x20000000000
        (s.boot.rails = 8 ∨ off ∈ [0x3000, 0x3018, 0x6C00, 0x7000, 0x7008] →
          (off ≠ 0x1000 → exec (.regRead a) s = .next (answered s (0 :: leBytes 8 (s.modReg off)))) ∧
          (off = 0x1000 → exec (.regRead a) s = .next (answered
            { s with clock := { s.clock with gtHi := s.clock.gt / 2 ^ 32 % 2 ^ 32 } } (0 :: leBytes 8 (s.clock.gt % 2 ^ 32))))) ∧
        (s.boot.rails < 8 → off ∉ [0x3000, 0x3018, 0x6C00, 0x7000, 0x7008] →
          exec (.regRead a) s = .next { s with mgmt := { s.mgmt with waiting := s.mgmt.waiting ++ [.regRead a] } })) ∧
      (s.boot.rails = 8 → (∀ c : BitVec 32, c ≠ 0x52535431 → exec (.moduleReset c) s = .next (answered s [2])) ∧
        ∃ u, exec (.moduleReset 0x52535431) s = .next u ∧ u.boot.boots = (s.boot.boots + 1) % 2 ^ 16 ∧ u.clock.gt = s.clock.gt ∧
          u.tasks = [] ∧ u.patterns = [] ∧ u.sessions = [] ∧ u.flight = [] ∧ u.cores = []) ∧
      (∀ x, let v := s.sensorValue x
        let quiet : Mgmt := { s.mgmt with alert := if v.2 then false else s.mgmt.alert }
        (s.boot.rails = 8 ∨ x = .modState →
          exec (.sensorRead x) s = .next (answered { s with mgmt := quiet } ([0, 1] ++ leBytes 4 v.1))) ∧
        (s.boot.rails < 8 → x ≠ .modState →
          exec (.sensorRead x) s = .next (answered { s with mgmt := quiet } [0, 0, 0, 0, 0, 0]))) ∧
      (∀ svn hash sig raise, let f : Flash := { sigOk := sig, svn := svn, hash := hash, raise := raise }
        (s.boot.updating = true → exec (.pldmFirmwareUpdate svn hash sig raise) s = .next (answered s [0x81])) ∧
        (s.boot.updating = false → exec (.pldmFirmwareUpdate svn hash sig raise) s = .next (answered { s with
          boot := if s.boot.activeB then { s.boot with slotAImg := f, updating := true }
            else { s.boot with slotBImg := f, updating := true } } [0]))) ∧
      (s.boot.updating = false → exec .activateFirmware s = .next (answered s [2])) ∧
      (s.boot.updating = true → let f := if s.boot.activeB then s.boot.slotAImg else s.boot.slotBImg
        exec .activateFirmware s = .next (answered (told { s with
          boot := { s.boot with activeB := !s.boot.activeB, updating := false } } 0x12 0x800
          (leBytes 1 (if s.boot.activeB then 0 else 1) ++ leBytes 2 f.svn ++ (hashBytes f.hash).take 32)) [0])))

end Sys2Proof.Claim

/-- R230, R264, R283, R305, R310, R345, R348, R386, R387, R396, R398, R400, R417, R421 to R425: the requests of the management path, their
responses, and what waits for a boundary (the responses' layouts and codes are the model's own: entry 39). -/
def Obligations.Management : Prop := UnitRequests ∧ SettingRequests ∧ ManagementReads

/-- R411 to R413: the controller takes the next event into a record of 64 bytes with the next sequence number, the time, its code and
source and its data, at the slot of its number; without an allowance it drops the event and counts it; paused, it writes nothing; without
auxiliary power it does nothing (the events offered and the moment of acceptance are the model's own: entry 8). -/
def Obligations.ScorebookRecords : Prop :=
  ∀ (s : State) (e : Event) (es : List Event),
    let b := s.book
    (s.boot.aux = false → exec .recordWrite s = .next s) ∧
    (s.boot.aux = true → b.offered = e :: es →
      (b.paused = false → b.queue = [] → b.owed = 0 → 1 ≤ b.allowance → e.data.length ≤ 44 → b.nextSeq % 256 < 252 →
        b.nextSeq < 2 ^ 48 →
        let slot := if b.nextSeq < 4096 then b.nextSeq else 4096 + (b.nextSeq - 4096) % 520192
        exec .recordWrite s = .next { s with book := { b with
          offered := es, nextSeq := b.nextSeq + 1, allowance := b.allowance - 1
          slots := mset b.slots slot (leBytes 6 b.nextSeq ++ leBytes 2 e.code ++ leBytes 8 s.clock.gt ++ leBytes 2 e.source ++ [0, 0] ++
            padTo 44 e.data) } }) ∧
      (b.allowance < max 1 ((e.data.length + 43) / 44) + (if b.owed = 0 then 0 else 1) → b.paused = true →
        exec .recordWrite s = .next { s with book := { b with
          offered := es, dropped := min (2 ^ 16 - 1) (b.dropped + 1), owed := b.owed + 1 } }) ∧
      ∃ u, exec .recordWrite s = .next u ∧ u = { s with book := u.book } ∧ u.book.offered = es ∧
        (b.paused = true → u.book.slots = b.slots) ∧ (b.paused = false → u.book.queue = []))

/-- R436 to R438: the debug pins pause and release the writing of the scorebook, only with auxiliary power; DBG_VREF raises DBG_RDY
without it; the links of the service ports and of the management Ethernet. -/
def Obligations.DebugPinsAndLinks : Prop :=
  ∀ (s : State),
    let m := s.mgmt
    (s.boot.aux = true → m.dbgReq = false → exec .dbgReq s = .next { s with
      book := { s.book with paused := true }, mgmt := { m with dbgReq := true, dbgRdy := true, dbgIgnored := false } }) ∧
    (s.boot.aux = false ∨ m.dbgReq = true → exec .dbgReq s = .next s) ∧
    (m.dbgReq = true → exec .dbgReqRelease s = .next { s with
      book := { s.book with paused := false }
      mgmt := { m with dbgReq := false, dbgRdy := m.vref && !s.boot.aux, dbgIgnored := false } }) ∧
    (m.dbgReq = false → exec .dbgReqRelease s = .next s) ∧
    (m.dbgReq = true → m.dbgRdy = true → exec .dbgReqTimeout s = .next { s with
      book := { s.book with paused := false }, mgmt := { m with dbgRdy := false, dbgIgnored := true } }) ∧
    (m.dbgReq = false ∨ m.dbgRdy = false → exec .dbgReqTimeout s = .next s) ∧
    (∀ on, exec (.dbgVref on) s = .next { s with mgmt := { m with vref := on, dbgRdy := if s.boot.aux then m.dbgRdy else on } }) ∧
    (∀ (port : Fin 2) up, (s.boot.rails = 8 → exec (.servicePortLink port up) s =
        .next { s with boot := { s.boot with ethUp := mset s.boot.ethUp port.val up } }) ∧
      (s.boot.rails < 8 → exec (.servicePortLink port up) s = .next s)) ∧
    (∀ up, (s.boot.aux = true → exec (.sgmiiLink up) s = .next { s with boot := { s.boot with sgmiiUp := up } }) ∧
      (s.boot.aux = false → exec (.sgmiiLink up) s = .next s))

/-! ### Rows of 512 bits -/

namespace Sys2Proof.Claim

/-- A row whose slots are encodings of their kinds that the loader admits, of one core: R20 to R24. -/
def RowOk (core : CoreId) (r : Row) : Prop :=
  (∀ i, r.c = some i → i.wf = true ∧ ∃ op x, opC i = some (op, x) ∧ x.core = core) ∧
  (∀ i, r.m = some i → i.wf = true ∧ ∃ op x, opM i = some (op, x) ∧ x.core = core) ∧
  (∀ i, r.v0 = some i → i.wf = true ∧ ∃ op x, opV i = some (op, x) ∧ x.core = core ∧ x.pipe = false) ∧
  (∀ i, r.v1 = some i → i.wf = true ∧ ∃ op x, opV i = some (op, x) ∧ x.core = core ∧ x.pipe = true) ∧
  (∀ i, r.b = some i → i.wf = true ∧ (∀ x, i ≠ .fifoPop x false) ∧ ∃ op x, opB i = some (op, x) ∧ x.core = core) ∧
  (∀ i, r.d = some i → i.wf = true ∧ ∃ op x, opD i = some (op, x) ∧ x.core = core)

end Sys2Proof.Claim

/-- R20 to R24: a row whose slots the loader admits is read back from its 512 bits, with every field of every slot; and a row that is
read from 512 bits gives those bits back, so that two words of one core never spell one row. -/
def Obligations.RowsRoundTrip : Prop :=
  (∀ (core : CoreId) (r : Row), RowOk core r → decodeRow core (encodeRow r) = some r) ∧
  (∀ (core : CoreId) (w : BitVec 512) (r : Row), decodeRow core w = some r → encodeRow r = w ∧ RowOk core r)

/-- R20 to R24, R61, R114, R143, R212: words of rows written out from their fields, one for each kind of slot, are read as their rows; a row
with a reserved header bit, with bits in an empty slot, or with an opcode of no table is refused. -/
def Obligations.RowWords : Prop :=
  decodeRow 5 (BitVec.ofNat 512 (0x00000000000C4101 * 2 ^ 32 + 2 ^ 16 + 0x2A07)) =
    some { pips := 7, tag := 0x2A, c := some (.sAdd { core := 5, sd := 1, sa := 2, sb := 3, x := 0, imm := 0 }) } ∧
  decodeRow 5 (BitVec.ofNat 512 (0x0000123400000118 * 2 ^ 32 + 2 ^ 16)) =
    some { c := some (.sLi { core := 5, sd := 1, sa := 0, sb := 0, x := 0, imm := 0x1234 }) } ∧
  decodeRow 5 (BitVec.ofNat 512 (0x0000000000000F20 * 2 ^ 96 * 2 ^ 32 + 0x00086102 * 2 ^ 96 + 2 ^ 17)) =
    some { m := some (.mmTile { core := 5, xa := 1, wa := 3, pa := 2, ta := 0, f := 0xF20 }) } ∧
  decodeRow 5 (BitVec.ofNat 512 (0x000C4101 * 2 ^ 192 + 2 ^ 18)) =
    some { v0 := some (.vAdd { core := 5, pipe := false, vd := 1, va := 2, vb := 3, vc := 0, mask := 0, maskEn := false, ab := 0, st := 0,
                               f := 0 }) } ∧
  decodeRow 5 (BitVec.ofNat 512 ((2 ^ 42 * 2 + 0x000C4101) * 2 ^ 272 + 2 ^ 19)) =
    some { v1 := some (.vAdd { core := 5, pipe := true, vd := 1, va := 2, vb := 3, vc := 0, mask := 0, maskEn := false, ab := 0, st := 0,
                               f := 2 }) } ∧
  decodeRow 5 (BitVec.ofNat 512 ((0x00000003 * 2 ^ 32 + 0x00008049) * 2 ^ 352 + 2 ^ 20)) =
    some { b := some (.fifoPop { core := 5, src := 0, dst := 4, cnt := 0, f := 3 } true) } ∧
  decodeRow 5 (BitVec.ofNat 512 ((0x00123456 * 2 ^ 32 + 0x00400D01) * 2 ^ 416 + 2 ^ 21)) =
    some { d := some (.dmaGet { core := 5, q := 1, desc := 3, src := 0, dst := 4, f := 0x00123456 }) } ∧
  decodeRow 5 0 = some {} ∧
  (∀ k < 10, decodeRow 5 (BitVec.ofNat 512 (2 ^ (22 + k))) = none) ∧
  decodeRow 5 (BitVec.ofNat 512 (0x18 * 2 ^ 32)) = none ∧
  decodeRow 5 (BitVec.ofNat 512 (0xFF * 2 ^ 32 + 2 ^ 16)) = none

/-! ### The whole machine -/

namespace Sys2Proof.Claim

/-- Every memory of the module keeps its canonical form. -/
def Canonical (s : State) : Prop := Memory.wf s.hbm = true ∧ ∀ p ∈ s.phys, Memory.wf p.2.mem = true

end Sys2Proof.Claim

/-- R11, R124, R127 (the canonical form is the model's own: entry 3): no step, whatever command stands in front, leaves a buffer or the HBM
out of its canonical form. -/
def Obligations.MemoryStaysCanonical : Prop :=
  ∀ (s t : State), Canonical s → step s = .next t → Canonical t

/-- The state after reset: memories canonical and empty, no command waiting, no 48 V rail up, AUX-ONLY, no session, task or pattern, every
bay empty, its PERST# and PWRDIS asserted, and the registers of each group at the values their rules give (values a rule does not give
are the model's own: entry 1). -/
def Obligations.ResetState : Prop :=
  let s := State.reset
  Canonical s ∧ s.pending = [] ∧ s.boot.rails = 0 ∧ s.power.state = .auxOnly ∧ s.sessions = [] ∧ s.tasks = [] ∧ s.patterns = [] ∧
    s.clock.gt = 0 ∧ s.clock.locked = false ∧ s.clock.srcPort = 63 ∧ s.cal.wrInterval = 1000 ∧ s.power.idleMs = 10 ∧
    s.power.cap = 48000 ∧ s.mgmt.udpPort = 19780 ∧ s.mgmt.mgmtPort = 19781 ∧ s.mgmt.eid = 0 ∧
    (∀ n, (s.core n).task = none ∧ (s.core n).lastLen = 0 ∧ (s.core n).bank = 0) ∧
    (∀ p, (s.panel p).cur = 120 ∧ (s.panel p).req = 120 ∧ (s.panel p).ceiling = 132 ∧ (s.panel p).margin = 15) ∧
    (∀ b, (s.bay b).cart = none ∧ (s.bay b).powered = false ∧ (s.bay b).perst = true ∧ (s.bay b).pwrdis = true) ∧
    (∀ u < 288, (s.unit u).state = if u % 36 < 32 then .inService else .spare) ∧
    ∀ u, 288 ≤ u → u < 846 → (s.unit u).state = .inService ∧ (s.unit u).generation = 0
end

