-- ==== Sys2Proof/Laws/Keyed.lean ====
section
/-!
SUPPORT. Keyed lists: what is read after an entry is set.
-/

namespace Sys2Proof.Machine

/-- Reading after setting: the new value at its key, the old one elsewhere. -/
theorem mget_mset (d : α) (m : List (Nat × α)) (k k' : Nat) (v : α) :
    mget d (mset m k v) k' = if k' = k then v else mget d m k' := by
  induction m with
  | nil => simp [mset, mget, eq_comm]
  | cons p m ih =>
    obtain ⟨a, x⟩ := p
    simp only [mset]
    split
    · next h =>
      subst h
      by_cases e : k = k'
      · simp [mget, e]
      · simp only [mget, if_neg e, if_neg (Ne.symm e)]
    · split
      · by_cases e : k = k'
        · simp [mget, e]
        · simp only [mget, if_neg e, if_neg (Ne.symm e)]
      · next h h' =>
        simp only [mget, ih]
        by_cases e : a = k'
        · simp [e]; intro h2; omega
        · simp [e]

@[simp] theorem mget_mset_self (d : α) (m : List (Nat × α)) (k : Nat) (v : α) : mget d (mset m k v) k = v := by
  simp [mget_mset]

theorem mget_mset_ne (d : α) (m : List (Nat × α)) {k k' : Nat} (v : α) (h : k' ≠ k) :
    mget d (mset m k v) k' = mget d m k' := by
  simp [mget_mset, h]

/-- Looking up after setting. -/
theorem mfind_mset (m : List (Nat × α)) (k k' : Nat) (v : α) :
    mfind (mset m k v) k' = if k' = k then some v else mfind m k' := by
  induction m with
  | nil => simp [mset, mfind, eq_comm]
  | cons p m ih =>
    obtain ⟨a, x⟩ := p
    simp only [mset]
    split
    · next h =>
      subst h
      by_cases e : k = k'
      · simp [mfind, e]
      · simp only [mfind, if_neg e, if_neg (Ne.symm e)]
    · split
      · by_cases e : k = k'
        · simp [mfind, e]
        · simp only [mfind, if_neg e, if_neg (Ne.symm e)]
      · next h h' =>
        simp only [mfind, ih]
        by_cases e : a = k'
        · simp [e]; intro h2; omega
        · simp [e]

@[simp] theorem mfind_mset_self (m : List (Nat × α)) (k : Nat) (v : α) : mfind (mset m k v) k = some v := by
  simp [mfind_mset]

end Sys2Proof.Machine
end

