-- ==== Sys2Proof/Laws/State.lean ====
section
/-!
SUPPORT. What each named update of the state leaves in each of its fields, so that no proof unfolds a record update.
-/

namespace Sys2Proof.Machine

/-! ### setCore -/

@[simp] theorem State.setCore_pending (s : State) (n : Nat) (c : Core) : (s.setCore n c).pending = s.pending := rfl
@[simp] theorem State.setCore_cores (s : State) (n : Nat) (c : Core) : (s.setCore n c).cores = mset s.cores n c := rfl
@[simp] theorem State.setCore_phys (s : State) (n : Nat) (c : Core) : (s.setCore n c).phys = s.phys := rfl
@[simp] theorem State.setCore_map (s : State) (n : Nat) (c : Core) : (s.setCore n c).map = s.map := rfl
@[simp] theorem State.setCore_units (s : State) (n : Nat) (c : Core) : (s.setCore n c).units = s.units := rfl
@[simp] theorem State.setCore_hbm (s : State) (n : Nat) (c : Core) : (s.setCore n c).hbm = s.hbm := rfl
@[simp] theorem State.setCore_flight (s : State) (n : Nat) (c : Core) : (s.setCore n c).flight = s.flight := rfl
@[simp] theorem State.setCore_nextId (s : State) (n : Nat) (c : Core) : (s.setCore n c).nextId = s.nextId := rfl
@[simp] theorem State.setCore_nextFree (s : State) (n : Nat) (c : Core) : (s.setCore n c).nextFree = s.nextFree := rfl
@[simp] theorem State.setCore_patterns (s : State) (n : Nat) (c : Core) : (s.setCore n c).patterns = s.patterns := rfl
@[simp] theorem State.setCore_loads (s : State) (n : Nat) (c : Core) : (s.setCore n c).loads = s.loads := rfl
@[simp] theorem State.setCore_nextHandle (s : State) (n : Nat) (c : Core) : (s.setCore n c).nextHandle = s.nextHandle := rfl
@[simp] theorem State.setCore_tasks (s : State) (n : Nat) (c : Core) : (s.setCore n c).tasks = s.tasks := rfl
@[simp] theorem State.setCore_nextTask (s : State) (n : Nat) (c : Core) : (s.setCore n c).nextTask = s.nextTask := rfl
@[simp] theorem State.setCore_sessions (s : State) (n : Nat) (c : Core) : (s.setCore n c).sessions = s.sessions := rfl
@[simp] theorem State.setCore_out (s : State) (n : Nat) (c : Core) : (s.setCore n c).out = s.out := rfl
@[simp] theorem State.setCore_alerts (s : State) (n : Nat) (c : Core) : (s.setCore n c).alerts = s.alerts := rfl
@[simp] theorem State.setCore_peerObjects (s : State) (n : Nat) (c : Core) : (s.setCore n c).peerObjects = s.peerObjects := rfl
@[simp] theorem State.setCore_linkOut (s : State) (n : Nat) (c : Core) : (s.setCore n c).linkOut = s.linkOut := rfl
@[simp] theorem State.setCore_fwStore (s : State) (n : Nat) (c : Core) : (s.setCore n c).fwStore = s.fwStore := rfl
@[simp] theorem State.setCore_clock (s : State) (n : Nat) (c : Core) : (s.setCore n c).clock = s.clock := rfl
@[simp] theorem State.setCore_panels (s : State) (n : Nat) (c : Core) : (s.setCore n c).panels = s.panels := rfl
@[simp] theorem State.setCore_channels (s : State) (n : Nat) (c : Core) : (s.setCore n c).channels = s.channels := rfl
@[simp] theorem State.setCore_cal (s : State) (n : Nat) (c : Core) : (s.setCore n c).cal = s.cal := rfl
@[simp] theorem State.setCore_ports (s : State) (n : Nat) (c : Core) : (s.setCore n c).ports = s.ports := rfl
@[simp] theorem State.setCore_config (s : State) (n : Nat) (c : Core) : (s.setCore n c).config = s.config := rfl
@[simp] theorem State.setCore_power (s : State) (n : Nat) (c : Core) : (s.setCore n c).power = s.power := rfl
@[simp] theorem State.setCore_boot (s : State) (n : Nat) (c : Core) : (s.setCore n c).boot = s.boot := rfl
@[simp] theorem State.setCore_bays (s : State) (n : Nat) (c : Core) : (s.setCore n c).bays = s.bays := rfl
@[simp] theorem State.setCore_book (s : State) (n : Nat) (c : Core) : (s.setCore n c).book = s.book := rfl
@[simp] theorem State.setCore_mgmt (s : State) (n : Nat) (c : Core) : (s.setCore n c).mgmt = s.mgmt := rfl
@[simp] theorem State.setCore_debug (s : State) (n : Nat) (c : Core) : (s.setCore n c).debug = s.debug := rfl
@[simp] theorem State.setCore_referee (s : State) (n : Nat) (c : Core) : (s.setCore n c).referee = s.referee := rfl

/-! ### modCore -/

@[simp] theorem State.modCore_pending (s : State) (n : Nat) (f : Core → Core) : (s.modCore n f).pending = s.pending := rfl
@[simp] theorem State.modCore_cores (s : State) (n : Nat) (f : Core → Core) : (s.modCore n f).cores = mset s.cores n (f (s.core n)) := rfl
@[simp] theorem State.modCore_phys (s : State) (n : Nat) (f : Core → Core) : (s.modCore n f).phys = s.phys := rfl
@[simp] theorem State.modCore_map (s : State) (n : Nat) (f : Core → Core) : (s.modCore n f).map = s.map := rfl
@[simp] theorem State.modCore_units (s : State) (n : Nat) (f : Core → Core) : (s.modCore n f).units = s.units := rfl
@[simp] theorem State.modCore_hbm (s : State) (n : Nat) (f : Core → Core) : (s.modCore n f).hbm = s.hbm := rfl
@[simp] theorem State.modCore_flight (s : State) (n : Nat) (f : Core → Core) : (s.modCore n f).flight = s.flight := rfl
@[simp] theorem State.modCore_nextId (s : State) (n : Nat) (f : Core → Core) : (s.modCore n f).nextId = s.nextId := rfl
@[simp] theorem State.modCore_nextFree (s : State) (n : Nat) (f : Core → Core) : (s.modCore n f).nextFree = s.nextFree := rfl
@[simp] theorem State.modCore_patterns (s : State) (n : Nat) (f : Core → Core) : (s.modCore n f).patterns = s.patterns := rfl
@[simp] theorem State.modCore_loads (s : State) (n : Nat) (f : Core → Core) : (s.modCore n f).loads = s.loads := rfl
@[simp] theorem State.modCore_nextHandle (s : State) (n : Nat) (f : Core → Core) : (s.modCore n f).nextHandle = s.nextHandle := rfl
@[simp] theorem State.modCore_tasks (s : State) (n : Nat) (f : Core → Core) : (s.modCore n f).tasks = s.tasks := rfl
@[simp] theorem State.modCore_nextTask (s : State) (n : Nat) (f : Core → Core) : (s.modCore n f).nextTask = s.nextTask := rfl
@[simp] theorem State.modCore_sessions (s : State) (n : Nat) (f : Core → Core) : (s.modCore n f).sessions = s.sessions := rfl
@[simp] theorem State.modCore_out (s : State) (n : Nat) (f : Core → Core) : (s.modCore n f).out = s.out := rfl
@[simp] theorem State.modCore_alerts (s : State) (n : Nat) (f : Core → Core) : (s.modCore n f).alerts = s.alerts := rfl
@[simp] theorem State.modCore_peerObjects (s : State) (n : Nat) (f : Core → Core) : (s.modCore n f).peerObjects = s.peerObjects := rfl
@[simp] theorem State.modCore_linkOut (s : State) (n : Nat) (f : Core → Core) : (s.modCore n f).linkOut = s.linkOut := rfl
@[simp] theorem State.modCore_fwStore (s : State) (n : Nat) (f : Core → Core) : (s.modCore n f).fwStore = s.fwStore := rfl
@[simp] theorem State.modCore_clock (s : State) (n : Nat) (f : Core → Core) : (s.modCore n f).clock = s.clock := rfl
@[simp] theorem State.modCore_panels (s : State) (n : Nat) (f : Core → Core) : (s.modCore n f).panels = s.panels := rfl
@[simp] theorem State.modCore_channels (s : State) (n : Nat) (f : Core → Core) : (s.modCore n f).channels = s.channels := rfl
@[simp] theorem State.modCore_cal (s : State) (n : Nat) (f : Core → Core) : (s.modCore n f).cal = s.cal := rfl
@[simp] theorem State.modCore_ports (s : State) (n : Nat) (f : Core → Core) : (s.modCore n f).ports = s.ports := rfl
@[simp] theorem State.modCore_config (s : State) (n : Nat) (f : Core → Core) : (s.modCore n f).config = s.config := rfl
@[simp] theorem State.modCore_power (s : State) (n : Nat) (f : Core → Core) : (s.modCore n f).power = s.power := rfl
@[simp] theorem State.modCore_boot (s : State) (n : Nat) (f : Core → Core) : (s.modCore n f).boot = s.boot := rfl
@[simp] theorem State.modCore_bays (s : State) (n : Nat) (f : Core → Core) : (s.modCore n f).bays = s.bays := rfl
@[simp] theorem State.modCore_book (s : State) (n : Nat) (f : Core → Core) : (s.modCore n f).book = s.book := rfl
@[simp] theorem State.modCore_mgmt (s : State) (n : Nat) (f : Core → Core) : (s.modCore n f).mgmt = s.mgmt := rfl
@[simp] theorem State.modCore_debug (s : State) (n : Nat) (f : Core → Core) : (s.modCore n f).debug = s.debug := rfl
@[simp] theorem State.modCore_referee (s : State) (n : Nat) (f : Core → Core) : (s.modCore n f).referee = s.referee := rfl

/-! ### setPh -/

@[simp] theorem State.setPh_pending (s : State) (p : Nat) (x : Phys) : (s.setPh p x).pending = s.pending := rfl
@[simp] theorem State.setPh_cores (s : State) (p : Nat) (x : Phys) : (s.setPh p x).cores = s.cores := rfl
@[simp] theorem State.setPh_phys (s : State) (p : Nat) (x : Phys) : (s.setPh p x).phys = mset s.phys p x := rfl
@[simp] theorem State.setPh_map (s : State) (p : Nat) (x : Phys) : (s.setPh p x).map = s.map := rfl
@[simp] theorem State.setPh_units (s : State) (p : Nat) (x : Phys) : (s.setPh p x).units = s.units := rfl
@[simp] theorem State.setPh_hbm (s : State) (p : Nat) (x : Phys) : (s.setPh p x).hbm = s.hbm := rfl
@[simp] theorem State.setPh_flight (s : State) (p : Nat) (x : Phys) : (s.setPh p x).flight = s.flight := rfl
@[simp] theorem State.setPh_nextId (s : State) (p : Nat) (x : Phys) : (s.setPh p x).nextId = s.nextId := rfl
@[simp] theorem State.setPh_nextFree (s : State) (p : Nat) (x : Phys) : (s.setPh p x).nextFree = s.nextFree := rfl
@[simp] theorem State.setPh_patterns (s : State) (p : Nat) (x : Phys) : (s.setPh p x).patterns = s.patterns := rfl
@[simp] theorem State.setPh_loads (s : State) (p : Nat) (x : Phys) : (s.setPh p x).loads = s.loads := rfl
@[simp] theorem State.setPh_nextHandle (s : State) (p : Nat) (x : Phys) : (s.setPh p x).nextHandle = s.nextHandle := rfl
@[simp] theorem State.setPh_tasks (s : State) (p : Nat) (x : Phys) : (s.setPh p x).tasks = s.tasks := rfl
@[simp] theorem State.setPh_nextTask (s : State) (p : Nat) (x : Phys) : (s.setPh p x).nextTask = s.nextTask := rfl
@[simp] theorem State.setPh_sessions (s : State) (p : Nat) (x : Phys) : (s.setPh p x).sessions = s.sessions := rfl
@[simp] theorem State.setPh_out (s : State) (p : Nat) (x : Phys) : (s.setPh p x).out = s.out := rfl
@[simp] theorem State.setPh_alerts (s : State) (p : Nat) (x : Phys) : (s.setPh p x).alerts = s.alerts := rfl
@[simp] theorem State.setPh_peerObjects (s : State) (p : Nat) (x : Phys) : (s.setPh p x).peerObjects = s.peerObjects := rfl
@[simp] theorem State.setPh_linkOut (s : State) (p : Nat) (x : Phys) : (s.setPh p x).linkOut = s.linkOut := rfl
@[simp] theorem State.setPh_fwStore (s : State) (p : Nat) (x : Phys) : (s.setPh p x).fwStore = s.fwStore := rfl
@[simp] theorem State.setPh_clock (s : State) (p : Nat) (x : Phys) : (s.setPh p x).clock = s.clock := rfl
@[simp] theorem State.setPh_panels (s : State) (p : Nat) (x : Phys) : (s.setPh p x).panels = s.panels := rfl
@[simp] theorem State.setPh_channels (s : State) (p : Nat) (x : Phys) : (s.setPh p x).channels = s.channels := rfl
@[simp] theorem State.setPh_cal (s : State) (p : Nat) (x : Phys) : (s.setPh p x).cal = s.cal := rfl
@[simp] theorem State.setPh_ports (s : State) (p : Nat) (x : Phys) : (s.setPh p x).ports = s.ports := rfl
@[simp] theorem State.setPh_config (s : State) (p : Nat) (x : Phys) : (s.setPh p x).config = s.config := rfl
@[simp] theorem State.setPh_power (s : State) (p : Nat) (x : Phys) : (s.setPh p x).power = s.power := rfl
@[simp] theorem State.setPh_boot (s : State) (p : Nat) (x : Phys) : (s.setPh p x).boot = s.boot := rfl
@[simp] theorem State.setPh_bays (s : State) (p : Nat) (x : Phys) : (s.setPh p x).bays = s.bays := rfl
@[simp] theorem State.setPh_book (s : State) (p : Nat) (x : Phys) : (s.setPh p x).book = s.book := rfl
@[simp] theorem State.setPh_mgmt (s : State) (p : Nat) (x : Phys) : (s.setPh p x).mgmt = s.mgmt := rfl
@[simp] theorem State.setPh_debug (s : State) (p : Nat) (x : Phys) : (s.setPh p x).debug = s.debug := rfl
@[simp] theorem State.setPh_referee (s : State) (p : Nat) (x : Phys) : (s.setPh p x).referee = s.referee := rfl

/-! ### modPh -/

@[simp] theorem State.modPh_pending (s : State) (p : Nat) (f : Phys → Phys) : (s.modPh p f).pending = s.pending := rfl
@[simp] theorem State.modPh_cores (s : State) (p : Nat) (f : Phys → Phys) : (s.modPh p f).cores = s.cores := rfl
@[simp] theorem State.modPh_phys (s : State) (p : Nat) (f : Phys → Phys) : (s.modPh p f).phys = mset s.phys p (f (s.ph p)) := rfl
@[simp] theorem State.modPh_map (s : State) (p : Nat) (f : Phys → Phys) : (s.modPh p f).map = s.map := rfl
@[simp] theorem State.modPh_units (s : State) (p : Nat) (f : Phys → Phys) : (s.modPh p f).units = s.units := rfl
@[simp] theorem State.modPh_hbm (s : State) (p : Nat) (f : Phys → Phys) : (s.modPh p f).hbm = s.hbm := rfl
@[simp] theorem State.modPh_flight (s : State) (p : Nat) (f : Phys → Phys) : (s.modPh p f).flight = s.flight := rfl
@[simp] theorem State.modPh_nextId (s : State) (p : Nat) (f : Phys → Phys) : (s.modPh p f).nextId = s.nextId := rfl
@[simp] theorem State.modPh_nextFree (s : State) (p : Nat) (f : Phys → Phys) : (s.modPh p f).nextFree = s.nextFree := rfl
@[simp] theorem State.modPh_patterns (s : State) (p : Nat) (f : Phys → Phys) : (s.modPh p f).patterns = s.patterns := rfl
@[simp] theorem State.modPh_loads (s : State) (p : Nat) (f : Phys → Phys) : (s.modPh p f).loads = s.loads := rfl
@[simp] theorem State.modPh_nextHandle (s : State) (p : Nat) (f : Phys → Phys) : (s.modPh p f).nextHandle = s.nextHandle := rfl
@[simp] theorem State.modPh_tasks (s : State) (p : Nat) (f : Phys → Phys) : (s.modPh p f).tasks = s.tasks := rfl
@[simp] theorem State.modPh_nextTask (s : State) (p : Nat) (f : Phys → Phys) : (s.modPh p f).nextTask = s.nextTask := rfl
@[simp] theorem State.modPh_sessions (s : State) (p : Nat) (f : Phys → Phys) : (s.modPh p f).sessions = s.sessions := rfl
@[simp] theorem State.modPh_out (s : State) (p : Nat) (f : Phys → Phys) : (s.modPh p f).out = s.out := rfl
@[simp] theorem State.modPh_alerts (s : State) (p : Nat) (f : Phys → Phys) : (s.modPh p f).alerts = s.alerts := rfl
@[simp] theorem State.modPh_peerObjects (s : State) (p : Nat) (f : Phys → Phys) : (s.modPh p f).peerObjects = s.peerObjects := rfl
@[simp] theorem State.modPh_linkOut (s : State) (p : Nat) (f : Phys → Phys) : (s.modPh p f).linkOut = s.linkOut := rfl
@[simp] theorem State.modPh_fwStore (s : State) (p : Nat) (f : Phys → Phys) : (s.modPh p f).fwStore = s.fwStore := rfl
@[simp] theorem State.modPh_clock (s : State) (p : Nat) (f : Phys → Phys) : (s.modPh p f).clock = s.clock := rfl
@[simp] theorem State.modPh_panels (s : State) (p : Nat) (f : Phys → Phys) : (s.modPh p f).panels = s.panels := rfl
@[simp] theorem State.modPh_channels (s : State) (p : Nat) (f : Phys → Phys) : (s.modPh p f).channels = s.channels := rfl
@[simp] theorem State.modPh_cal (s : State) (p : Nat) (f : Phys → Phys) : (s.modPh p f).cal = s.cal := rfl
@[simp] theorem State.modPh_ports (s : State) (p : Nat) (f : Phys → Phys) : (s.modPh p f).ports = s.ports := rfl
@[simp] theorem State.modPh_config (s : State) (p : Nat) (f : Phys → Phys) : (s.modPh p f).config = s.config := rfl
@[simp] theorem State.modPh_power (s : State) (p : Nat) (f : Phys → Phys) : (s.modPh p f).power = s.power := rfl
@[simp] theorem State.modPh_boot (s : State) (p : Nat) (f : Phys → Phys) : (s.modPh p f).boot = s.boot := rfl
@[simp] theorem State.modPh_bays (s : State) (p : Nat) (f : Phys → Phys) : (s.modPh p f).bays = s.bays := rfl
@[simp] theorem State.modPh_book (s : State) (p : Nat) (f : Phys → Phys) : (s.modPh p f).book = s.book := rfl
@[simp] theorem State.modPh_mgmt (s : State) (p : Nat) (f : Phys → Phys) : (s.modPh p f).mgmt = s.mgmt := rfl
@[simp] theorem State.modPh_debug (s : State) (p : Nat) (f : Phys → Phys) : (s.modPh p f).debug = s.debug := rfl
@[simp] theorem State.modPh_referee (s : State) (p : Nat) (f : Phys → Phys) : (s.modPh p f).referee = s.referee := rfl

/-! ### modP -/

@[simp] theorem State.modP_pending (s : State) (n : Nat) (f : Phys → Phys) : (s.modP n f).pending = s.pending := rfl
@[simp] theorem State.modP_cores (s : State) (n : Nat) (f : Phys → Phys) : (s.modP n f).cores = s.cores := rfl
@[simp] theorem State.modP_phys (s : State) (n : Nat) (f : Phys → Phys) : (s.modP n f).phys = mset s.phys (s.physOf n) (f (s.pcore n)) := rfl
@[simp] theorem State.modP_map (s : State) (n : Nat) (f : Phys → Phys) : (s.modP n f).map = s.map := rfl
@[simp] theorem State.modP_units (s : State) (n : Nat) (f : Phys → Phys) : (s.modP n f).units = s.units := rfl
@[simp] theorem State.modP_hbm (s : State) (n : Nat) (f : Phys → Phys) : (s.modP n f).hbm = s.hbm := rfl
@[simp] theorem State.modP_flight (s : State) (n : Nat) (f : Phys → Phys) : (s.modP n f).flight = s.flight := rfl
@[simp] theorem State.modP_nextId (s : State) (n : Nat) (f : Phys → Phys) : (s.modP n f).nextId = s.nextId := rfl
@[simp] theorem State.modP_nextFree (s : State) (n : Nat) (f : Phys → Phys) : (s.modP n f).nextFree = s.nextFree := rfl
@[simp] theorem State.modP_patterns (s : State) (n : Nat) (f : Phys → Phys) : (s.modP n f).patterns = s.patterns := rfl
@[simp] theorem State.modP_loads (s : State) (n : Nat) (f : Phys → Phys) : (s.modP n f).loads = s.loads := rfl
@[simp] theorem State.modP_nextHandle (s : State) (n : Nat) (f : Phys → Phys) : (s.modP n f).nextHandle = s.nextHandle := rfl
@[simp] theorem State.modP_tasks (s : State) (n : Nat) (f : Phys → Phys) : (s.modP n f).tasks = s.tasks := rfl
@[simp] theorem State.modP_nextTask (s : State) (n : Nat) (f : Phys → Phys) : (s.modP n f).nextTask = s.nextTask := rfl
@[simp] theorem State.modP_sessions (s : State) (n : Nat) (f : Phys → Phys) : (s.modP n f).sessions = s.sessions := rfl
@[simp] theorem State.modP_out (s : State) (n : Nat) (f : Phys → Phys) : (s.modP n f).out = s.out := rfl
@[simp] theorem State.modP_alerts (s : State) (n : Nat) (f : Phys → Phys) : (s.modP n f).alerts = s.alerts := rfl
@[simp] theorem State.modP_peerObjects (s : State) (n : Nat) (f : Phys → Phys) : (s.modP n f).peerObjects = s.peerObjects := rfl
@[simp] theorem State.modP_linkOut (s : State) (n : Nat) (f : Phys → Phys) : (s.modP n f).linkOut = s.linkOut := rfl
@[simp] theorem State.modP_fwStore (s : State) (n : Nat) (f : Phys → Phys) : (s.modP n f).fwStore = s.fwStore := rfl
@[simp] theorem State.modP_clock (s : State) (n : Nat) (f : Phys → Phys) : (s.modP n f).clock = s.clock := rfl
@[simp] theorem State.modP_panels (s : State) (n : Nat) (f : Phys → Phys) : (s.modP n f).panels = s.panels := rfl
@[simp] theorem State.modP_channels (s : State) (n : Nat) (f : Phys → Phys) : (s.modP n f).channels = s.channels := rfl
@[simp] theorem State.modP_cal (s : State) (n : Nat) (f : Phys → Phys) : (s.modP n f).cal = s.cal := rfl
@[simp] theorem State.modP_ports (s : State) (n : Nat) (f : Phys → Phys) : (s.modP n f).ports = s.ports := rfl
@[simp] theorem State.modP_config (s : State) (n : Nat) (f : Phys → Phys) : (s.modP n f).config = s.config := rfl
@[simp] theorem State.modP_power (s : State) (n : Nat) (f : Phys → Phys) : (s.modP n f).power = s.power := rfl
@[simp] theorem State.modP_boot (s : State) (n : Nat) (f : Phys → Phys) : (s.modP n f).boot = s.boot := rfl
@[simp] theorem State.modP_bays (s : State) (n : Nat) (f : Phys → Phys) : (s.modP n f).bays = s.bays := rfl
@[simp] theorem State.modP_book (s : State) (n : Nat) (f : Phys → Phys) : (s.modP n f).book = s.book := rfl
@[simp] theorem State.modP_mgmt (s : State) (n : Nat) (f : Phys → Phys) : (s.modP n f).mgmt = s.mgmt := rfl
@[simp] theorem State.modP_debug (s : State) (n : Nat) (f : Phys → Phys) : (s.modP n f).debug = s.debug := rfl
@[simp] theorem State.modP_referee (s : State) (n : Nat) (f : Phys → Phys) : (s.modP n f).referee = s.referee := rfl

/-! ### modPanel -/

@[simp] theorem State.modPanel_pending (s : State) (p : Nat) (f : Panel → Panel) : (s.modPanel p f).pending = s.pending := rfl
@[simp] theorem State.modPanel_cores (s : State) (p : Nat) (f : Panel → Panel) : (s.modPanel p f).cores = s.cores := rfl
@[simp] theorem State.modPanel_phys (s : State) (p : Nat) (f : Panel → Panel) : (s.modPanel p f).phys = s.phys := rfl
@[simp] theorem State.modPanel_map (s : State) (p : Nat) (f : Panel → Panel) : (s.modPanel p f).map = s.map := rfl
@[simp] theorem State.modPanel_units (s : State) (p : Nat) (f : Panel → Panel) : (s.modPanel p f).units = s.units := rfl
@[simp] theorem State.modPanel_hbm (s : State) (p : Nat) (f : Panel → Panel) : (s.modPanel p f).hbm = s.hbm := rfl
@[simp] theorem State.modPanel_flight (s : State) (p : Nat) (f : Panel → Panel) : (s.modPanel p f).flight = s.flight := rfl
@[simp] theorem State.modPanel_nextId (s : State) (p : Nat) (f : Panel → Panel) : (s.modPanel p f).nextId = s.nextId := rfl
@[simp] theorem State.modPanel_nextFree (s : State) (p : Nat) (f : Panel → Panel) : (s.modPanel p f).nextFree = s.nextFree := rfl
@[simp] theorem State.modPanel_patterns (s : State) (p : Nat) (f : Panel → Panel) : (s.modPanel p f).patterns = s.patterns := rfl
@[simp] theorem State.modPanel_loads (s : State) (p : Nat) (f : Panel → Panel) : (s.modPanel p f).loads = s.loads := rfl
@[simp] theorem State.modPanel_nextHandle (s : State) (p : Nat) (f : Panel → Panel) : (s.modPanel p f).nextHandle = s.nextHandle := rfl
@[simp] theorem State.modPanel_tasks (s : State) (p : Nat) (f : Panel → Panel) : (s.modPanel p f).tasks = s.tasks := rfl
@[simp] theorem State.modPanel_nextTask (s : State) (p : Nat) (f : Panel → Panel) : (s.modPanel p f).nextTask = s.nextTask := rfl
@[simp] theorem State.modPanel_sessions (s : State) (p : Nat) (f : Panel → Panel) : (s.modPanel p f).sessions = s.sessions := rfl
@[simp] theorem State.modPanel_out (s : State) (p : Nat) (f : Panel → Panel) : (s.modPanel p f).out = s.out := rfl
@[simp] theorem State.modPanel_alerts (s : State) (p : Nat) (f : Panel → Panel) : (s.modPanel p f).alerts = s.alerts := rfl
@[simp] theorem State.modPanel_peerObjects (s : State) (p : Nat) (f : Panel → Panel) : (s.modPanel p f).peerObjects = s.peerObjects := rfl
@[simp] theorem State.modPanel_linkOut (s : State) (p : Nat) (f : Panel → Panel) : (s.modPanel p f).linkOut = s.linkOut := rfl
@[simp] theorem State.modPanel_fwStore (s : State) (p : Nat) (f : Panel → Panel) : (s.modPanel p f).fwStore = s.fwStore := rfl
@[simp] theorem State.modPanel_clock (s : State) (p : Nat) (f : Panel → Panel) : (s.modPanel p f).clock = s.clock := rfl
@[simp] theorem State.modPanel_panels (s : State) (p : Nat) (f : Panel → Panel) : (s.modPanel p f).panels = mset s.panels p (f (s.panel p)) := rfl
@[simp] theorem State.modPanel_channels (s : State) (p : Nat) (f : Panel → Panel) : (s.modPanel p f).channels = s.channels := rfl
@[simp] theorem State.modPanel_cal (s : State) (p : Nat) (f : Panel → Panel) : (s.modPanel p f).cal = s.cal := rfl
@[simp] theorem State.modPanel_ports (s : State) (p : Nat) (f : Panel → Panel) : (s.modPanel p f).ports = s.ports := rfl
@[simp] theorem State.modPanel_config (s : State) (p : Nat) (f : Panel → Panel) : (s.modPanel p f).config = s.config := rfl
@[simp] theorem State.modPanel_power (s : State) (p : Nat) (f : Panel → Panel) : (s.modPanel p f).power = s.power := rfl
@[simp] theorem State.modPanel_boot (s : State) (p : Nat) (f : Panel → Panel) : (s.modPanel p f).boot = s.boot := rfl
@[simp] theorem State.modPanel_bays (s : State) (p : Nat) (f : Panel → Panel) : (s.modPanel p f).bays = s.bays := rfl
@[simp] theorem State.modPanel_book (s : State) (p : Nat) (f : Panel → Panel) : (s.modPanel p f).book = s.book := rfl
@[simp] theorem State.modPanel_mgmt (s : State) (p : Nat) (f : Panel → Panel) : (s.modPanel p f).mgmt = s.mgmt := rfl
@[simp] theorem State.modPanel_debug (s : State) (p : Nat) (f : Panel → Panel) : (s.modPanel p f).debug = s.debug := rfl
@[simp] theorem State.modPanel_referee (s : State) (p : Nat) (f : Panel → Panel) : (s.modPanel p f).referee = s.referee := rfl

/-! ### modPort -/

@[simp] theorem State.modPort_pending (s : State) (p : Nat) (f : Port → Port) : (s.modPort p f).pending = s.pending := rfl
@[simp] theorem State.modPort_cores (s : State) (p : Nat) (f : Port → Port) : (s.modPort p f).cores = s.cores := rfl
@[simp] theorem State.modPort_phys (s : State) (p : Nat) (f : Port → Port) : (s.modPort p f).phys = s.phys := rfl
@[simp] theorem State.modPort_map (s : State) (p : Nat) (f : Port → Port) : (s.modPort p f).map = s.map := rfl
@[simp] theorem State.modPort_units (s : State) (p : Nat) (f : Port → Port) : (s.modPort p f).units = s.units := rfl
@[simp] theorem State.modPort_hbm (s : State) (p : Nat) (f : Port → Port) : (s.modPort p f).hbm = s.hbm := rfl
@[simp] theorem State.modPort_flight (s : State) (p : Nat) (f : Port → Port) : (s.modPort p f).flight = s.flight := rfl
@[simp] theorem State.modPort_nextId (s : State) (p : Nat) (f : Port → Port) : (s.modPort p f).nextId = s.nextId := rfl
@[simp] theorem State.modPort_nextFree (s : State) (p : Nat) (f : Port → Port) : (s.modPort p f).nextFree = s.nextFree := rfl
@[simp] theorem State.modPort_patterns (s : State) (p : Nat) (f : Port → Port) : (s.modPort p f).patterns = s.patterns := rfl
@[simp] theorem State.modPort_loads (s : State) (p : Nat) (f : Port → Port) : (s.modPort p f).loads = s.loads := rfl
@[simp] theorem State.modPort_nextHandle (s : State) (p : Nat) (f : Port → Port) : (s.modPort p f).nextHandle = s.nextHandle := rfl
@[simp] theorem State.modPort_tasks (s : State) (p : Nat) (f : Port → Port) : (s.modPort p f).tasks = s.tasks := rfl
@[simp] theorem State.modPort_nextTask (s : State) (p : Nat) (f : Port → Port) : (s.modPort p f).nextTask = s.nextTask := rfl
@[simp] theorem State.modPort_sessions (s : State) (p : Nat) (f : Port → Port) : (s.modPort p f).sessions = s.sessions := rfl
@[simp] theorem State.modPort_out (s : State) (p : Nat) (f : Port → Port) : (s.modPort p f).out = s.out := rfl
@[simp] theorem State.modPort_alerts (s : State) (p : Nat) (f : Port → Port) : (s.modPort p f).alerts = s.alerts := rfl
@[simp] theorem State.modPort_peerObjects (s : State) (p : Nat) (f : Port → Port) : (s.modPort p f).peerObjects = s.peerObjects := rfl
@[simp] theorem State.modPort_linkOut (s : State) (p : Nat) (f : Port → Port) : (s.modPort p f).linkOut = s.linkOut := rfl
@[simp] theorem State.modPort_fwStore (s : State) (p : Nat) (f : Port → Port) : (s.modPort p f).fwStore = s.fwStore := rfl
@[simp] theorem State.modPort_clock (s : State) (p : Nat) (f : Port → Port) : (s.modPort p f).clock = s.clock := rfl
@[simp] theorem State.modPort_panels (s : State) (p : Nat) (f : Port → Port) : (s.modPort p f).panels = s.panels := rfl
@[simp] theorem State.modPort_channels (s : State) (p : Nat) (f : Port → Port) : (s.modPort p f).channels = s.channels := rfl
@[simp] theorem State.modPort_cal (s : State) (p : Nat) (f : Port → Port) : (s.modPort p f).cal = s.cal := rfl
@[simp] theorem State.modPort_ports (s : State) (p : Nat) (f : Port → Port) : (s.modPort p f).ports = mset s.ports p (f (s.port p)) := rfl
@[simp] theorem State.modPort_config (s : State) (p : Nat) (f : Port → Port) : (s.modPort p f).config = s.config := rfl
@[simp] theorem State.modPort_power (s : State) (p : Nat) (f : Port → Port) : (s.modPort p f).power = s.power := rfl
@[simp] theorem State.modPort_boot (s : State) (p : Nat) (f : Port → Port) : (s.modPort p f).boot = s.boot := rfl
@[simp] theorem State.modPort_bays (s : State) (p : Nat) (f : Port → Port) : (s.modPort p f).bays = s.bays := rfl
@[simp] theorem State.modPort_book (s : State) (p : Nat) (f : Port → Port) : (s.modPort p f).book = s.book := rfl
@[simp] theorem State.modPort_mgmt (s : State) (p : Nat) (f : Port → Port) : (s.modPort p f).mgmt = s.mgmt := rfl
@[simp] theorem State.modPort_debug (s : State) (p : Nat) (f : Port → Port) : (s.modPort p f).debug = s.debug := rfl
@[simp] theorem State.modPort_referee (s : State) (p : Nat) (f : Port → Port) : (s.modPort p f).referee = s.referee := rfl

/-! ### modChannel -/

@[simp] theorem State.modChannel_pending (s : State) (c : Nat) (f : Channel → Channel) : (s.modChannel c f).pending = s.pending := rfl
@[simp] theorem State.modChannel_cores (s : State) (c : Nat) (f : Channel → Channel) : (s.modChannel c f).cores = s.cores := rfl
@[simp] theorem State.modChannel_phys (s : State) (c : Nat) (f : Channel → Channel) : (s.modChannel c f).phys = s.phys := rfl
@[simp] theorem State.modChannel_map (s : State) (c : Nat) (f : Channel → Channel) : (s.modChannel c f).map = s.map := rfl
@[simp] theorem State.modChannel_units (s : State) (c : Nat) (f : Channel → Channel) : (s.modChannel c f).units = s.units := rfl
@[simp] theorem State.modChannel_hbm (s : State) (c : Nat) (f : Channel → Channel) : (s.modChannel c f).hbm = s.hbm := rfl
@[simp] theorem State.modChannel_flight (s : State) (c : Nat) (f : Channel → Channel) : (s.modChannel c f).flight = s.flight := rfl
@[simp] theorem State.modChannel_nextId (s : State) (c : Nat) (f : Channel → Channel) : (s.modChannel c f).nextId = s.nextId := rfl
@[simp] theorem State.modChannel_nextFree (s : State) (c : Nat) (f : Channel → Channel) : (s.modChannel c f).nextFree = s.nextFree := rfl
@[simp] theorem State.modChannel_patterns (s : State) (c : Nat) (f : Channel → Channel) : (s.modChannel c f).patterns = s.patterns := rfl
@[simp] theorem State.modChannel_loads (s : State) (c : Nat) (f : Channel → Channel) : (s.modChannel c f).loads = s.loads := rfl
@[simp] theorem State.modChannel_nextHandle (s : State) (c : Nat) (f : Channel → Channel) : (s.modChannel c f).nextHandle = s.nextHandle := rfl
@[simp] theorem State.modChannel_tasks (s : State) (c : Nat) (f : Channel → Channel) : (s.modChannel c f).tasks = s.tasks := rfl
@[simp] theorem State.modChannel_nextTask (s : State) (c : Nat) (f : Channel → Channel) : (s.modChannel c f).nextTask = s.nextTask := rfl
@[simp] theorem State.modChannel_sessions (s : State) (c : Nat) (f : Channel → Channel) : (s.modChannel c f).sessions = s.sessions := rfl
@[simp] theorem State.modChannel_out (s : State) (c : Nat) (f : Channel → Channel) : (s.modChannel c f).out = s.out := rfl
@[simp] theorem State.modChannel_alerts (s : State) (c : Nat) (f : Channel → Channel) : (s.modChannel c f).alerts = s.alerts := rfl
@[simp] theorem State.modChannel_peerObjects (s : State) (c : Nat) (f : Channel → Channel) : (s.modChannel c f).peerObjects = s.peerObjects := rfl
@[simp] theorem State.modChannel_linkOut (s : State) (c : Nat) (f : Channel → Channel) : (s.modChannel c f).linkOut = s.linkOut := rfl
@[simp] theorem State.modChannel_fwStore (s : State) (c : Nat) (f : Channel → Channel) : (s.modChannel c f).fwStore = s.fwStore := rfl
@[simp] theorem State.modChannel_clock (s : State) (c : Nat) (f : Channel → Channel) : (s.modChannel c f).clock = s.clock := rfl
@[simp] theorem State.modChannel_panels (s : State) (c : Nat) (f : Channel → Channel) : (s.modChannel c f).panels = s.panels := rfl
@[simp] theorem State.modChannel_channels (s : State) (c : Nat) (f : Channel → Channel) : (s.modChannel c f).channels = mset s.channels c (f (s.channel c)) := rfl
@[simp] theorem State.modChannel_cal (s : State) (c : Nat) (f : Channel → Channel) : (s.modChannel c f).cal = s.cal := rfl
@[simp] theorem State.modChannel_ports (s : State) (c : Nat) (f : Channel → Channel) : (s.modChannel c f).ports = s.ports := rfl
@[simp] theorem State.modChannel_config (s : State) (c : Nat) (f : Channel → Channel) : (s.modChannel c f).config = s.config := rfl
@[simp] theorem State.modChannel_power (s : State) (c : Nat) (f : Channel → Channel) : (s.modChannel c f).power = s.power := rfl
@[simp] theorem State.modChannel_boot (s : State) (c : Nat) (f : Channel → Channel) : (s.modChannel c f).boot = s.boot := rfl
@[simp] theorem State.modChannel_bays (s : State) (c : Nat) (f : Channel → Channel) : (s.modChannel c f).bays = s.bays := rfl
@[simp] theorem State.modChannel_book (s : State) (c : Nat) (f : Channel → Channel) : (s.modChannel c f).book = s.book := rfl
@[simp] theorem State.modChannel_mgmt (s : State) (c : Nat) (f : Channel → Channel) : (s.modChannel c f).mgmt = s.mgmt := rfl
@[simp] theorem State.modChannel_debug (s : State) (c : Nat) (f : Channel → Channel) : (s.modChannel c f).debug = s.debug := rfl
@[simp] theorem State.modChannel_referee (s : State) (c : Nat) (f : Channel → Channel) : (s.modChannel c f).referee = s.referee := rfl

/-! ### modBay -/

@[simp] theorem State.modBay_pending (s : State) (b : Nat) (f : Bay → Bay) : (s.modBay b f).pending = s.pending := rfl
@[simp] theorem State.modBay_cores (s : State) (b : Nat) (f : Bay → Bay) : (s.modBay b f).cores = s.cores := rfl
@[simp] theorem State.modBay_phys (s : State) (b : Nat) (f : Bay → Bay) : (s.modBay b f).phys = s.phys := rfl
@[simp] theorem State.modBay_map (s : State) (b : Nat) (f : Bay → Bay) : (s.modBay b f).map = s.map := rfl
@[simp] theorem State.modBay_units (s : State) (b : Nat) (f : Bay → Bay) : (s.modBay b f).units = s.units := rfl
@[simp] theorem State.modBay_hbm (s : State) (b : Nat) (f : Bay → Bay) : (s.modBay b f).hbm = s.hbm := rfl
@[simp] theorem State.modBay_flight (s : State) (b : Nat) (f : Bay → Bay) : (s.modBay b f).flight = s.flight := rfl
@[simp] theorem State.modBay_nextId (s : State) (b : Nat) (f : Bay → Bay) : (s.modBay b f).nextId = s.nextId := rfl
@[simp] theorem State.modBay_nextFree (s : State) (b : Nat) (f : Bay → Bay) : (s.modBay b f).nextFree = s.nextFree := rfl
@[simp] theorem State.modBay_patterns (s : State) (b : Nat) (f : Bay → Bay) : (s.modBay b f).patterns = s.patterns := rfl
@[simp] theorem State.modBay_loads (s : State) (b : Nat) (f : Bay → Bay) : (s.modBay b f).loads = s.loads := rfl
@[simp] theorem State.modBay_nextHandle (s : State) (b : Nat) (f : Bay → Bay) : (s.modBay b f).nextHandle = s.nextHandle := rfl
@[simp] theorem State.modBay_tasks (s : State) (b : Nat) (f : Bay → Bay) : (s.modBay b f).tasks = s.tasks := rfl
@[simp] theorem State.modBay_nextTask (s : State) (b : Nat) (f : Bay → Bay) : (s.modBay b f).nextTask = s.nextTask := rfl
@[simp] theorem State.modBay_sessions (s : State) (b : Nat) (f : Bay → Bay) : (s.modBay b f).sessions = s.sessions := rfl
@[simp] theorem State.modBay_out (s : State) (b : Nat) (f : Bay → Bay) : (s.modBay b f).out = s.out := rfl
@[simp] theorem State.modBay_alerts (s : State) (b : Nat) (f : Bay → Bay) : (s.modBay b f).alerts = s.alerts := rfl
@[simp] theorem State.modBay_peerObjects (s : State) (b : Nat) (f : Bay → Bay) : (s.modBay b f).peerObjects = s.peerObjects := rfl
@[simp] theorem State.modBay_linkOut (s : State) (b : Nat) (f : Bay → Bay) : (s.modBay b f).linkOut = s.linkOut := rfl
@[simp] theorem State.modBay_fwStore (s : State) (b : Nat) (f : Bay → Bay) : (s.modBay b f).fwStore = s.fwStore := rfl
@[simp] theorem State.modBay_clock (s : State) (b : Nat) (f : Bay → Bay) : (s.modBay b f).clock = s.clock := rfl
@[simp] theorem State.modBay_panels (s : State) (b : Nat) (f : Bay → Bay) : (s.modBay b f).panels = s.panels := rfl
@[simp] theorem State.modBay_channels (s : State) (b : Nat) (f : Bay → Bay) : (s.modBay b f).channels = s.channels := rfl
@[simp] theorem State.modBay_cal (s : State) (b : Nat) (f : Bay → Bay) : (s.modBay b f).cal = s.cal := rfl
@[simp] theorem State.modBay_ports (s : State) (b : Nat) (f : Bay → Bay) : (s.modBay b f).ports = s.ports := rfl
@[simp] theorem State.modBay_config (s : State) (b : Nat) (f : Bay → Bay) : (s.modBay b f).config = s.config := rfl
@[simp] theorem State.modBay_power (s : State) (b : Nat) (f : Bay → Bay) : (s.modBay b f).power = s.power := rfl
@[simp] theorem State.modBay_boot (s : State) (b : Nat) (f : Bay → Bay) : (s.modBay b f).boot = s.boot := rfl
@[simp] theorem State.modBay_bays (s : State) (b : Nat) (f : Bay → Bay) : (s.modBay b f).bays = mset s.bays b (f (s.bay b)) := rfl
@[simp] theorem State.modBay_book (s : State) (b : Nat) (f : Bay → Bay) : (s.modBay b f).book = s.book := rfl
@[simp] theorem State.modBay_mgmt (s : State) (b : Nat) (f : Bay → Bay) : (s.modBay b f).mgmt = s.mgmt := rfl
@[simp] theorem State.modBay_debug (s : State) (b : Nat) (f : Bay → Bay) : (s.modBay b f).debug = s.debug := rfl
@[simp] theorem State.modBay_referee (s : State) (b : Nat) (f : Bay → Bay) : (s.modBay b f).referee = s.referee := rfl

/-! ### modUnit -/

@[simp] theorem State.modUnit_pending (s : State) (u : Nat) (f : UnitE → UnitE) : (s.modUnit u f).pending = s.pending := rfl
@[simp] theorem State.modUnit_cores (s : State) (u : Nat) (f : UnitE → UnitE) : (s.modUnit u f).cores = s.cores := rfl
@[simp] theorem State.modUnit_phys (s : State) (u : Nat) (f : UnitE → UnitE) : (s.modUnit u f).phys = s.phys := rfl
@[simp] theorem State.modUnit_map (s : State) (u : Nat) (f : UnitE → UnitE) : (s.modUnit u f).map = s.map := rfl
@[simp] theorem State.modUnit_units (s : State) (u : Nat) (f : UnitE → UnitE) : (s.modUnit u f).units = mset s.units u (f (s.unit u)) := rfl
@[simp] theorem State.modUnit_hbm (s : State) (u : Nat) (f : UnitE → UnitE) : (s.modUnit u f).hbm = s.hbm := rfl
@[simp] theorem State.modUnit_flight (s : State) (u : Nat) (f : UnitE → UnitE) : (s.modUnit u f).flight = s.flight := rfl
@[simp] theorem State.modUnit_nextId (s : State) (u : Nat) (f : UnitE → UnitE) : (s.modUnit u f).nextId = s.nextId := rfl
@[simp] theorem State.modUnit_nextFree (s : State) (u : Nat) (f : UnitE → UnitE) : (s.modUnit u f).nextFree = s.nextFree := rfl
@[simp] theorem State.modUnit_patterns (s : State) (u : Nat) (f : UnitE → UnitE) : (s.modUnit u f).patterns = s.patterns := rfl
@[simp] theorem State.modUnit_loads (s : State) (u : Nat) (f : UnitE → UnitE) : (s.modUnit u f).loads = s.loads := rfl
@[simp] theorem State.modUnit_nextHandle (s : State) (u : Nat) (f : UnitE → UnitE) : (s.modUnit u f).nextHandle = s.nextHandle := rfl
@[simp] theorem State.modUnit_tasks (s : State) (u : Nat) (f : UnitE → UnitE) : (s.modUnit u f).tasks = s.tasks := rfl
@[simp] theorem State.modUnit_nextTask (s : State) (u : Nat) (f : UnitE → UnitE) : (s.modUnit u f).nextTask = s.nextTask := rfl
@[simp] theorem State.modUnit_sessions (s : State) (u : Nat) (f : UnitE → UnitE) : (s.modUnit u f).sessions = s.sessions := rfl
@[simp] theorem State.modUnit_out (s : State) (u : Nat) (f : UnitE → UnitE) : (s.modUnit u f).out = s.out := rfl
@[simp] theorem State.modUnit_alerts (s : State) (u : Nat) (f : UnitE → UnitE) : (s.modUnit u f).alerts = s.alerts := rfl
@[simp] theorem State.modUnit_peerObjects (s : State) (u : Nat) (f : UnitE → UnitE) : (s.modUnit u f).peerObjects = s.peerObjects := rfl
@[simp] theorem State.modUnit_linkOut (s : State) (u : Nat) (f : UnitE → UnitE) : (s.modUnit u f).linkOut = s.linkOut := rfl
@[simp] theorem State.modUnit_fwStore (s : State) (u : Nat) (f : UnitE → UnitE) : (s.modUnit u f).fwStore = s.fwStore := rfl
@[simp] theorem State.modUnit_clock (s : State) (u : Nat) (f : UnitE → UnitE) : (s.modUnit u f).clock = s.clock := rfl
@[simp] theorem State.modUnit_panels (s : State) (u : Nat) (f : UnitE → UnitE) : (s.modUnit u f).panels = s.panels := rfl
@[simp] theorem State.modUnit_channels (s : State) (u : Nat) (f : UnitE → UnitE) : (s.modUnit u f).channels = s.channels := rfl
@[simp] theorem State.modUnit_cal (s : State) (u : Nat) (f : UnitE → UnitE) : (s.modUnit u f).cal = s.cal := rfl
@[simp] theorem State.modUnit_ports (s : State) (u : Nat) (f : UnitE → UnitE) : (s.modUnit u f).ports = s.ports := rfl
@[simp] theorem State.modUnit_config (s : State) (u : Nat) (f : UnitE → UnitE) : (s.modUnit u f).config = s.config := rfl
@[simp] theorem State.modUnit_power (s : State) (u : Nat) (f : UnitE → UnitE) : (s.modUnit u f).power = s.power := rfl
@[simp] theorem State.modUnit_boot (s : State) (u : Nat) (f : UnitE → UnitE) : (s.modUnit u f).boot = s.boot := rfl
@[simp] theorem State.modUnit_bays (s : State) (u : Nat) (f : UnitE → UnitE) : (s.modUnit u f).bays = s.bays := rfl
@[simp] theorem State.modUnit_book (s : State) (u : Nat) (f : UnitE → UnitE) : (s.modUnit u f).book = s.book := rfl
@[simp] theorem State.modUnit_mgmt (s : State) (u : Nat) (f : UnitE → UnitE) : (s.modUnit u f).mgmt = s.mgmt := rfl
@[simp] theorem State.modUnit_debug (s : State) (u : Nat) (f : UnitE → UnitE) : (s.modUnit u f).debug = s.debug := rfl
@[simp] theorem State.modUnit_referee (s : State) (u : Nat) (f : UnitE → UnitE) : (s.modUnit u f).referee = s.referee := rfl

/-! ### modTask -/

@[simp] theorem State.modTask_pending (s : State) (n : Nat) (f : Task → Task) : (s.modTask n f).pending = s.pending := rfl
@[simp] theorem State.modTask_cores (s : State) (n : Nat) (f : Task → Task) : (s.modTask n f).cores = s.cores := rfl
@[simp] theorem State.modTask_phys (s : State) (n : Nat) (f : Task → Task) : (s.modTask n f).phys = s.phys := rfl
@[simp] theorem State.modTask_map (s : State) (n : Nat) (f : Task → Task) : (s.modTask n f).map = s.map := rfl
@[simp] theorem State.modTask_units (s : State) (n : Nat) (f : Task → Task) : (s.modTask n f).units = s.units := rfl
@[simp] theorem State.modTask_hbm (s : State) (n : Nat) (f : Task → Task) : (s.modTask n f).hbm = s.hbm := rfl
@[simp] theorem State.modTask_flight (s : State) (n : Nat) (f : Task → Task) : (s.modTask n f).flight = s.flight := rfl
@[simp] theorem State.modTask_nextId (s : State) (n : Nat) (f : Task → Task) : (s.modTask n f).nextId = s.nextId := rfl
@[simp] theorem State.modTask_nextFree (s : State) (n : Nat) (f : Task → Task) : (s.modTask n f).nextFree = s.nextFree := rfl
@[simp] theorem State.modTask_patterns (s : State) (n : Nat) (f : Task → Task) : (s.modTask n f).patterns = s.patterns := rfl
@[simp] theorem State.modTask_loads (s : State) (n : Nat) (f : Task → Task) : (s.modTask n f).loads = s.loads := rfl
@[simp] theorem State.modTask_nextHandle (s : State) (n : Nat) (f : Task → Task) : (s.modTask n f).nextHandle = s.nextHandle := rfl
@[simp] theorem State.modTask_tasks (s : State) (n : Nat) (f : Task → Task) : (s.modTask n f).tasks = s.tasks.map (fun t => if t.num = n then f t else t) := rfl
@[simp] theorem State.modTask_nextTask (s : State) (n : Nat) (f : Task → Task) : (s.modTask n f).nextTask = s.nextTask := rfl
@[simp] theorem State.modTask_sessions (s : State) (n : Nat) (f : Task → Task) : (s.modTask n f).sessions = s.sessions := rfl
@[simp] theorem State.modTask_out (s : State) (n : Nat) (f : Task → Task) : (s.modTask n f).out = s.out := rfl
@[simp] theorem State.modTask_alerts (s : State) (n : Nat) (f : Task → Task) : (s.modTask n f).alerts = s.alerts := rfl
@[simp] theorem State.modTask_peerObjects (s : State) (n : Nat) (f : Task → Task) : (s.modTask n f).peerObjects = s.peerObjects := rfl
@[simp] theorem State.modTask_linkOut (s : State) (n : Nat) (f : Task → Task) : (s.modTask n f).linkOut = s.linkOut := rfl
@[simp] theorem State.modTask_fwStore (s : State) (n : Nat) (f : Task → Task) : (s.modTask n f).fwStore = s.fwStore := rfl
@[simp] theorem State.modTask_clock (s : State) (n : Nat) (f : Task → Task) : (s.modTask n f).clock = s.clock := rfl
@[simp] theorem State.modTask_panels (s : State) (n : Nat) (f : Task → Task) : (s.modTask n f).panels = s.panels := rfl
@[simp] theorem State.modTask_channels (s : State) (n : Nat) (f : Task → Task) : (s.modTask n f).channels = s.channels := rfl
@[simp] theorem State.modTask_cal (s : State) (n : Nat) (f : Task → Task) : (s.modTask n f).cal = s.cal := rfl
@[simp] theorem State.modTask_ports (s : State) (n : Nat) (f : Task → Task) : (s.modTask n f).ports = s.ports := rfl
@[simp] theorem State.modTask_config (s : State) (n : Nat) (f : Task → Task) : (s.modTask n f).config = s.config := rfl
@[simp] theorem State.modTask_power (s : State) (n : Nat) (f : Task → Task) : (s.modTask n f).power = s.power := rfl
@[simp] theorem State.modTask_boot (s : State) (n : Nat) (f : Task → Task) : (s.modTask n f).boot = s.boot := rfl
@[simp] theorem State.modTask_bays (s : State) (n : Nat) (f : Task → Task) : (s.modTask n f).bays = s.bays := rfl
@[simp] theorem State.modTask_book (s : State) (n : Nat) (f : Task → Task) : (s.modTask n f).book = s.book := rfl
@[simp] theorem State.modTask_mgmt (s : State) (n : Nat) (f : Task → Task) : (s.modTask n f).mgmt = s.mgmt := rfl
@[simp] theorem State.modTask_debug (s : State) (n : Nat) (f : Task → Task) : (s.modTask n f).debug = s.debug := rfl
@[simp] theorem State.modTask_referee (s : State) (n : Nat) (f : Task → Task) : (s.modTask n f).referee = s.referee := rfl

/-! ### modPattern -/

@[simp] theorem State.modPattern_pending (s : State) (h : Nat) (f : Pattern → Pattern) : (s.modPattern h f).pending = s.pending := rfl
@[simp] theorem State.modPattern_cores (s : State) (h : Nat) (f : Pattern → Pattern) : (s.modPattern h f).cores = s.cores := rfl
@[simp] theorem State.modPattern_phys (s : State) (h : Nat) (f : Pattern → Pattern) : (s.modPattern h f).phys = s.phys := rfl
@[simp] theorem State.modPattern_map (s : State) (h : Nat) (f : Pattern → Pattern) : (s.modPattern h f).map = s.map := rfl
@[simp] theorem State.modPattern_units (s : State) (h : Nat) (f : Pattern → Pattern) : (s.modPattern h f).units = s.units := rfl
@[simp] theorem State.modPattern_hbm (s : State) (h : Nat) (f : Pattern → Pattern) : (s.modPattern h f).hbm = s.hbm := rfl
@[simp] theorem State.modPattern_flight (s : State) (h : Nat) (f : Pattern → Pattern) : (s.modPattern h f).flight = s.flight := rfl
@[simp] theorem State.modPattern_nextId (s : State) (h : Nat) (f : Pattern → Pattern) : (s.modPattern h f).nextId = s.nextId := rfl
@[simp] theorem State.modPattern_nextFree (s : State) (h : Nat) (f : Pattern → Pattern) : (s.modPattern h f).nextFree = s.nextFree := rfl
@[simp] theorem State.modPattern_patterns (s : State) (h : Nat) (f : Pattern → Pattern) : (s.modPattern h f).patterns = s.patterns.map (fun p => if p.handle = h then f p else p) := rfl
@[simp] theorem State.modPattern_loads (s : State) (h : Nat) (f : Pattern → Pattern) : (s.modPattern h f).loads = s.loads := rfl
@[simp] theorem State.modPattern_nextHandle (s : State) (h : Nat) (f : Pattern → Pattern) : (s.modPattern h f).nextHandle = s.nextHandle := rfl
@[simp] theorem State.modPattern_tasks (s : State) (h : Nat) (f : Pattern → Pattern) : (s.modPattern h f).tasks = s.tasks := rfl
@[simp] theorem State.modPattern_nextTask (s : State) (h : Nat) (f : Pattern → Pattern) : (s.modPattern h f).nextTask = s.nextTask := rfl
@[simp] theorem State.modPattern_sessions (s : State) (h : Nat) (f : Pattern → Pattern) : (s.modPattern h f).sessions = s.sessions := rfl
@[simp] theorem State.modPattern_out (s : State) (h : Nat) (f : Pattern → Pattern) : (s.modPattern h f).out = s.out := rfl
@[simp] theorem State.modPattern_alerts (s : State) (h : Nat) (f : Pattern → Pattern) : (s.modPattern h f).alerts = s.alerts := rfl
@[simp] theorem State.modPattern_peerObjects (s : State) (h : Nat) (f : Pattern → Pattern) : (s.modPattern h f).peerObjects = s.peerObjects := rfl
@[simp] theorem State.modPattern_linkOut (s : State) (h : Nat) (f : Pattern → Pattern) : (s.modPattern h f).linkOut = s.linkOut := rfl
@[simp] theorem State.modPattern_fwStore (s : State) (h : Nat) (f : Pattern → Pattern) : (s.modPattern h f).fwStore = s.fwStore := rfl
@[simp] theorem State.modPattern_clock (s : State) (h : Nat) (f : Pattern → Pattern) : (s.modPattern h f).clock = s.clock := rfl
@[simp] theorem State.modPattern_panels (s : State) (h : Nat) (f : Pattern → Pattern) : (s.modPattern h f).panels = s.panels := rfl
@[simp] theorem State.modPattern_channels (s : State) (h : Nat) (f : Pattern → Pattern) : (s.modPattern h f).channels = s.channels := rfl
@[simp] theorem State.modPattern_cal (s : State) (h : Nat) (f : Pattern → Pattern) : (s.modPattern h f).cal = s.cal := rfl
@[simp] theorem State.modPattern_ports (s : State) (h : Nat) (f : Pattern → Pattern) : (s.modPattern h f).ports = s.ports := rfl
@[simp] theorem State.modPattern_config (s : State) (h : Nat) (f : Pattern → Pattern) : (s.modPattern h f).config = s.config := rfl
@[simp] theorem State.modPattern_power (s : State) (h : Nat) (f : Pattern → Pattern) : (s.modPattern h f).power = s.power := rfl
@[simp] theorem State.modPattern_boot (s : State) (h : Nat) (f : Pattern → Pattern) : (s.modPattern h f).boot = s.boot := rfl
@[simp] theorem State.modPattern_bays (s : State) (h : Nat) (f : Pattern → Pattern) : (s.modPattern h f).bays = s.bays := rfl
@[simp] theorem State.modPattern_book (s : State) (h : Nat) (f : Pattern → Pattern) : (s.modPattern h f).book = s.book := rfl
@[simp] theorem State.modPattern_mgmt (s : State) (h : Nat) (f : Pattern → Pattern) : (s.modPattern h f).mgmt = s.mgmt := rfl
@[simp] theorem State.modPattern_debug (s : State) (h : Nat) (f : Pattern → Pattern) : (s.modPattern h f).debug = s.debug := rfl
@[simp] theorem State.modPattern_referee (s : State) (h : Nat) (f : Pattern → Pattern) : (s.modPattern h f).referee = s.referee := rfl

/-! ### modClock -/

@[simp] theorem State.modClock_pending (s : State) (f : Clock → Clock) : (s.modClock f).pending = s.pending := rfl
@[simp] theorem State.modClock_cores (s : State) (f : Clock → Clock) : (s.modClock f).cores = s.cores := rfl
@[simp] theorem State.modClock_phys (s : State) (f : Clock → Clock) : (s.modClock f).phys = s.phys := rfl
@[simp] theorem State.modClock_map (s : State) (f : Clock → Clock) : (s.modClock f).map = s.map := rfl
@[simp] theorem State.modClock_units (s : State) (f : Clock → Clock) : (s.modClock f).units = s.units := rfl
@[simp] theorem State.modClock_hbm (s : State) (f : Clock → Clock) : (s.modClock f).hbm = s.hbm := rfl
@[simp] theorem State.modClock_flight (s : State) (f : Clock → Clock) : (s.modClock f).flight = s.flight := rfl
@[simp] theorem State.modClock_nextId (s : State) (f : Clock → Clock) : (s.modClock f).nextId = s.nextId := rfl
@[simp] theorem State.modClock_nextFree (s : State) (f : Clock → Clock) : (s.modClock f).nextFree = s.nextFree := rfl
@[simp] theorem State.modClock_patterns (s : State) (f : Clock → Clock) : (s.modClock f).patterns = s.patterns := rfl
@[simp] theorem State.modClock_loads (s : State) (f : Clock → Clock) : (s.modClock f).loads = s.loads := rfl
@[simp] theorem State.modClock_nextHandle (s : State) (f : Clock → Clock) : (s.modClock f).nextHandle = s.nextHandle := rfl
@[simp] theorem State.modClock_tasks (s : State) (f : Clock → Clock) : (s.modClock f).tasks = s.tasks := rfl
@[simp] theorem State.modClock_nextTask (s : State) (f : Clock → Clock) : (s.modClock f).nextTask = s.nextTask := rfl
@[simp] theorem State.modClock_sessions (s : State) (f : Clock → Clock) : (s.modClock f).sessions = s.sessions := rfl
@[simp] theorem State.modClock_out (s : State) (f : Clock → Clock) : (s.modClock f).out = s.out := rfl
@[simp] theorem State.modClock_alerts (s : State) (f : Clock → Clock) : (s.modClock f).alerts = s.alerts := rfl
@[simp] theorem State.modClock_peerObjects (s : State) (f : Clock → Clock) : (s.modClock f).peerObjects = s.peerObjects := rfl
@[simp] theorem State.modClock_linkOut (s : State) (f : Clock → Clock) : (s.modClock f).linkOut = s.linkOut := rfl
@[simp] theorem State.modClock_fwStore (s : State) (f : Clock → Clock) : (s.modClock f).fwStore = s.fwStore := rfl
@[simp] theorem State.modClock_clock (s : State) (f : Clock → Clock) : (s.modClock f).clock = f s.clock := rfl
@[simp] theorem State.modClock_panels (s : State) (f : Clock → Clock) : (s.modClock f).panels = s.panels := rfl
@[simp] theorem State.modClock_channels (s : State) (f : Clock → Clock) : (s.modClock f).channels = s.channels := rfl
@[simp] theorem State.modClock_cal (s : State) (f : Clock → Clock) : (s.modClock f).cal = s.cal := rfl
@[simp] theorem State.modClock_ports (s : State) (f : Clock → Clock) : (s.modClock f).ports = s.ports := rfl
@[simp] theorem State.modClock_config (s : State) (f : Clock → Clock) : (s.modClock f).config = s.config := rfl
@[simp] theorem State.modClock_power (s : State) (f : Clock → Clock) : (s.modClock f).power = s.power := rfl
@[simp] theorem State.modClock_boot (s : State) (f : Clock → Clock) : (s.modClock f).boot = s.boot := rfl
@[simp] theorem State.modClock_bays (s : State) (f : Clock → Clock) : (s.modClock f).bays = s.bays := rfl
@[simp] theorem State.modClock_book (s : State) (f : Clock → Clock) : (s.modClock f).book = s.book := rfl
@[simp] theorem State.modClock_mgmt (s : State) (f : Clock → Clock) : (s.modClock f).mgmt = s.mgmt := rfl
@[simp] theorem State.modClock_debug (s : State) (f : Clock → Clock) : (s.modClock f).debug = s.debug := rfl
@[simp] theorem State.modClock_referee (s : State) (f : Clock → Clock) : (s.modClock f).referee = s.referee := rfl

/-! ### modPower -/

@[simp] theorem State.modPower_pending (s : State) (f : Power → Power) : (s.modPower f).pending = s.pending := rfl
@[simp] theorem State.modPower_cores (s : State) (f : Power → Power) : (s.modPower f).cores = s.cores := rfl
@[simp] theorem State.modPower_phys (s : State) (f : Power → Power) : (s.modPower f).phys = s.phys := rfl
@[simp] theorem State.modPower_map (s : State) (f : Power → Power) : (s.modPower f).map = s.map := rfl
@[simp] theorem State.modPower_units (s : State) (f : Power → Power) : (s.modPower f).units = s.units := rfl
@[simp] theorem State.modPower_hbm (s : State) (f : Power → Power) : (s.modPower f).hbm = s.hbm := rfl
@[simp] theorem State.modPower_flight (s : State) (f : Power → Power) : (s.modPower f).flight = s.flight := rfl
@[simp] theorem State.modPower_nextId (s : State) (f : Power → Power) : (s.modPower f).nextId = s.nextId := rfl
@[simp] theorem State.modPower_nextFree (s : State) (f : Power → Power) : (s.modPower f).nextFree = s.nextFree := rfl
@[simp] theorem State.modPower_patterns (s : State) (f : Power → Power) : (s.modPower f).patterns = s.patterns := rfl
@[simp] theorem State.modPower_loads (s : State) (f : Power → Power) : (s.modPower f).loads = s.loads := rfl
@[simp] theorem State.modPower_nextHandle (s : State) (f : Power → Power) : (s.modPower f).nextHandle = s.nextHandle := rfl
@[simp] theorem State.modPower_tasks (s : State) (f : Power → Power) : (s.modPower f).tasks = s.tasks := rfl
@[simp] theorem State.modPower_nextTask (s : State) (f : Power → Power) : (s.modPower f).nextTask = s.nextTask := rfl
@[simp] theorem State.modPower_sessions (s : State) (f : Power → Power) : (s.modPower f).sessions = s.sessions := rfl
@[simp] theorem State.modPower_out (s : State) (f : Power → Power) : (s.modPower f).out = s.out := rfl
@[simp] theorem State.modPower_alerts (s : State) (f : Power → Power) : (s.modPower f).alerts = s.alerts := rfl
@[simp] theorem State.modPower_peerObjects (s : State) (f : Power → Power) : (s.modPower f).peerObjects = s.peerObjects := rfl
@[simp] theorem State.modPower_linkOut (s : State) (f : Power → Power) : (s.modPower f).linkOut = s.linkOut := rfl
@[simp] theorem State.modPower_fwStore (s : State) (f : Power → Power) : (s.modPower f).fwStore = s.fwStore := rfl
@[simp] theorem State.modPower_clock (s : State) (f : Power → Power) : (s.modPower f).clock = s.clock := rfl
@[simp] theorem State.modPower_panels (s : State) (f : Power → Power) : (s.modPower f).panels = s.panels := rfl
@[simp] theorem State.modPower_channels (s : State) (f : Power → Power) : (s.modPower f).channels = s.channels := rfl
@[simp] theorem State.modPower_cal (s : State) (f : Power → Power) : (s.modPower f).cal = s.cal := rfl
@[simp] theorem State.modPower_ports (s : State) (f : Power → Power) : (s.modPower f).ports = s.ports := rfl
@[simp] theorem State.modPower_config (s : State) (f : Power → Power) : (s.modPower f).config = s.config := rfl
@[simp] theorem State.modPower_power (s : State) (f : Power → Power) : (s.modPower f).power = f s.power := rfl
@[simp] theorem State.modPower_boot (s : State) (f : Power → Power) : (s.modPower f).boot = s.boot := rfl
@[simp] theorem State.modPower_bays (s : State) (f : Power → Power) : (s.modPower f).bays = s.bays := rfl
@[simp] theorem State.modPower_book (s : State) (f : Power → Power) : (s.modPower f).book = s.book := rfl
@[simp] theorem State.modPower_mgmt (s : State) (f : Power → Power) : (s.modPower f).mgmt = s.mgmt := rfl
@[simp] theorem State.modPower_debug (s : State) (f : Power → Power) : (s.modPower f).debug = s.debug := rfl
@[simp] theorem State.modPower_referee (s : State) (f : Power → Power) : (s.modPower f).referee = s.referee := rfl

/-! ### modBoot -/

@[simp] theorem State.modBoot_pending (s : State) (f : Boot → Boot) : (s.modBoot f).pending = s.pending := rfl
@[simp] theorem State.modBoot_cores (s : State) (f : Boot → Boot) : (s.modBoot f).cores = s.cores := rfl
@[simp] theorem State.modBoot_phys (s : State) (f : Boot → Boot) : (s.modBoot f).phys = s.phys := rfl
@[simp] theorem State.modBoot_map (s : State) (f : Boot → Boot) : (s.modBoot f).map = s.map := rfl
@[simp] theorem State.modBoot_units (s : State) (f : Boot → Boot) : (s.modBoot f).units = s.units := rfl
@[simp] theorem State.modBoot_hbm (s : State) (f : Boot → Boot) : (s.modBoot f).hbm = s.hbm := rfl
@[simp] theorem State.modBoot_flight (s : State) (f : Boot → Boot) : (s.modBoot f).flight = s.flight := rfl
@[simp] theorem State.modBoot_nextId (s : State) (f : Boot → Boot) : (s.modBoot f).nextId = s.nextId := rfl
@[simp] theorem State.modBoot_nextFree (s : State) (f : Boot → Boot) : (s.modBoot f).nextFree = s.nextFree := rfl
@[simp] theorem State.modBoot_patterns (s : State) (f : Boot → Boot) : (s.modBoot f).patterns = s.patterns := rfl
@[simp] theorem State.modBoot_loads (s : State) (f : Boot → Boot) : (s.modBoot f).loads = s.loads := rfl
@[simp] theorem State.modBoot_nextHandle (s : State) (f : Boot → Boot) : (s.modBoot f).nextHandle = s.nextHandle := rfl
@[simp] theorem State.modBoot_tasks (s : State) (f : Boot → Boot) : (s.modBoot f).tasks = s.tasks := rfl
@[simp] theorem State.modBoot_nextTask (s : State) (f : Boot → Boot) : (s.modBoot f).nextTask = s.nextTask := rfl
@[simp] theorem State.modBoot_sessions (s : State) (f : Boot → Boot) : (s.modBoot f).sessions = s.sessions := rfl
@[simp] theorem State.modBoot_out (s : State) (f : Boot → Boot) : (s.modBoot f).out = s.out := rfl
@[simp] theorem State.modBoot_alerts (s : State) (f : Boot → Boot) : (s.modBoot f).alerts = s.alerts := rfl
@[simp] theorem State.modBoot_peerObjects (s : State) (f : Boot → Boot) : (s.modBoot f).peerObjects = s.peerObjects := rfl
@[simp] theorem State.modBoot_linkOut (s : State) (f : Boot → Boot) : (s.modBoot f).linkOut = s.linkOut := rfl
@[simp] theorem State.modBoot_fwStore (s : State) (f : Boot → Boot) : (s.modBoot f).fwStore = s.fwStore := rfl
@[simp] theorem State.modBoot_clock (s : State) (f : Boot → Boot) : (s.modBoot f).clock = s.clock := rfl
@[simp] theorem State.modBoot_panels (s : State) (f : Boot → Boot) : (s.modBoot f).panels = s.panels := rfl
@[simp] theorem State.modBoot_channels (s : State) (f : Boot → Boot) : (s.modBoot f).channels = s.channels := rfl
@[simp] theorem State.modBoot_cal (s : State) (f : Boot → Boot) : (s.modBoot f).cal = s.cal := rfl
@[simp] theorem State.modBoot_ports (s : State) (f : Boot → Boot) : (s.modBoot f).ports = s.ports := rfl
@[simp] theorem State.modBoot_config (s : State) (f : Boot → Boot) : (s.modBoot f).config = s.config := rfl
@[simp] theorem State.modBoot_power (s : State) (f : Boot → Boot) : (s.modBoot f).power = s.power := rfl
@[simp] theorem State.modBoot_boot (s : State) (f : Boot → Boot) : (s.modBoot f).boot = f s.boot := rfl
@[simp] theorem State.modBoot_bays (s : State) (f : Boot → Boot) : (s.modBoot f).bays = s.bays := rfl
@[simp] theorem State.modBoot_book (s : State) (f : Boot → Boot) : (s.modBoot f).book = s.book := rfl
@[simp] theorem State.modBoot_mgmt (s : State) (f : Boot → Boot) : (s.modBoot f).mgmt = s.mgmt := rfl
@[simp] theorem State.modBoot_debug (s : State) (f : Boot → Boot) : (s.modBoot f).debug = s.debug := rfl
@[simp] theorem State.modBoot_referee (s : State) (f : Boot → Boot) : (s.modBoot f).referee = s.referee := rfl

/-! ### modConf -/

@[simp] theorem State.modConf_pending (s : State) (f : Conf → Conf) : (s.modConf f).pending = s.pending := rfl
@[simp] theorem State.modConf_cores (s : State) (f : Conf → Conf) : (s.modConf f).cores = s.cores := rfl
@[simp] theorem State.modConf_phys (s : State) (f : Conf → Conf) : (s.modConf f).phys = s.phys := rfl
@[simp] theorem State.modConf_map (s : State) (f : Conf → Conf) : (s.modConf f).map = s.map := rfl
@[simp] theorem State.modConf_units (s : State) (f : Conf → Conf) : (s.modConf f).units = s.units := rfl
@[simp] theorem State.modConf_hbm (s : State) (f : Conf → Conf) : (s.modConf f).hbm = s.hbm := rfl
@[simp] theorem State.modConf_flight (s : State) (f : Conf → Conf) : (s.modConf f).flight = s.flight := rfl
@[simp] theorem State.modConf_nextId (s : State) (f : Conf → Conf) : (s.modConf f).nextId = s.nextId := rfl
@[simp] theorem State.modConf_nextFree (s : State) (f : Conf → Conf) : (s.modConf f).nextFree = s.nextFree := rfl
@[simp] theorem State.modConf_patterns (s : State) (f : Conf → Conf) : (s.modConf f).patterns = s.patterns := rfl
@[simp] theorem State.modConf_loads (s : State) (f : Conf → Conf) : (s.modConf f).loads = s.loads := rfl
@[simp] theorem State.modConf_nextHandle (s : State) (f : Conf → Conf) : (s.modConf f).nextHandle = s.nextHandle := rfl
@[simp] theorem State.modConf_tasks (s : State) (f : Conf → Conf) : (s.modConf f).tasks = s.tasks := rfl
@[simp] theorem State.modConf_nextTask (s : State) (f : Conf → Conf) : (s.modConf f).nextTask = s.nextTask := rfl
@[simp] theorem State.modConf_sessions (s : State) (f : Conf → Conf) : (s.modConf f).sessions = s.sessions := rfl
@[simp] theorem State.modConf_out (s : State) (f : Conf → Conf) : (s.modConf f).out = s.out := rfl
@[simp] theorem State.modConf_alerts (s : State) (f : Conf → Conf) : (s.modConf f).alerts = s.alerts := rfl
@[simp] theorem State.modConf_peerObjects (s : State) (f : Conf → Conf) : (s.modConf f).peerObjects = s.peerObjects := rfl
@[simp] theorem State.modConf_linkOut (s : State) (f : Conf → Conf) : (s.modConf f).linkOut = s.linkOut := rfl
@[simp] theorem State.modConf_fwStore (s : State) (f : Conf → Conf) : (s.modConf f).fwStore = s.fwStore := rfl
@[simp] theorem State.modConf_clock (s : State) (f : Conf → Conf) : (s.modConf f).clock = s.clock := rfl
@[simp] theorem State.modConf_panels (s : State) (f : Conf → Conf) : (s.modConf f).panels = s.panels := rfl
@[simp] theorem State.modConf_channels (s : State) (f : Conf → Conf) : (s.modConf f).channels = s.channels := rfl
@[simp] theorem State.modConf_cal (s : State) (f : Conf → Conf) : (s.modConf f).cal = s.cal := rfl
@[simp] theorem State.modConf_ports (s : State) (f : Conf → Conf) : (s.modConf f).ports = s.ports := rfl
@[simp] theorem State.modConf_config (s : State) (f : Conf → Conf) : (s.modConf f).config = f s.config := rfl
@[simp] theorem State.modConf_power (s : State) (f : Conf → Conf) : (s.modConf f).power = s.power := rfl
@[simp] theorem State.modConf_boot (s : State) (f : Conf → Conf) : (s.modConf f).boot = s.boot := rfl
@[simp] theorem State.modConf_bays (s : State) (f : Conf → Conf) : (s.modConf f).bays = s.bays := rfl
@[simp] theorem State.modConf_book (s : State) (f : Conf → Conf) : (s.modConf f).book = s.book := rfl
@[simp] theorem State.modConf_mgmt (s : State) (f : Conf → Conf) : (s.modConf f).mgmt = s.mgmt := rfl
@[simp] theorem State.modConf_debug (s : State) (f : Conf → Conf) : (s.modConf f).debug = s.debug := rfl
@[simp] theorem State.modConf_referee (s : State) (f : Conf → Conf) : (s.modConf f).referee = s.referee := rfl

/-! ### modMgmt -/

@[simp] theorem State.modMgmt_pending (s : State) (f : Mgmt → Mgmt) : (s.modMgmt f).pending = s.pending := rfl
@[simp] theorem State.modMgmt_cores (s : State) (f : Mgmt → Mgmt) : (s.modMgmt f).cores = s.cores := rfl
@[simp] theorem State.modMgmt_phys (s : State) (f : Mgmt → Mgmt) : (s.modMgmt f).phys = s.phys := rfl
@[simp] theorem State.modMgmt_map (s : State) (f : Mgmt → Mgmt) : (s.modMgmt f).map = s.map := rfl
@[simp] theorem State.modMgmt_units (s : State) (f : Mgmt → Mgmt) : (s.modMgmt f).units = s.units := rfl
@[simp] theorem State.modMgmt_hbm (s : State) (f : Mgmt → Mgmt) : (s.modMgmt f).hbm = s.hbm := rfl
@[simp] theorem State.modMgmt_flight (s : State) (f : Mgmt → Mgmt) : (s.modMgmt f).flight = s.flight := rfl
@[simp] theorem State.modMgmt_nextId (s : State) (f : Mgmt → Mgmt) : (s.modMgmt f).nextId = s.nextId := rfl
@[simp] theorem State.modMgmt_nextFree (s : State) (f : Mgmt → Mgmt) : (s.modMgmt f).nextFree = s.nextFree := rfl
@[simp] theorem State.modMgmt_patterns (s : State) (f : Mgmt → Mgmt) : (s.modMgmt f).patterns = s.patterns := rfl
@[simp] theorem State.modMgmt_loads (s : State) (f : Mgmt → Mgmt) : (s.modMgmt f).loads = s.loads := rfl
@[simp] theorem State.modMgmt_nextHandle (s : State) (f : Mgmt → Mgmt) : (s.modMgmt f).nextHandle = s.nextHandle := rfl
@[simp] theorem State.modMgmt_tasks (s : State) (f : Mgmt → Mgmt) : (s.modMgmt f).tasks = s.tasks := rfl
@[simp] theorem State.modMgmt_nextTask (s : State) (f : Mgmt → Mgmt) : (s.modMgmt f).nextTask = s.nextTask := rfl
@[simp] theorem State.modMgmt_sessions (s : State) (f : Mgmt → Mgmt) : (s.modMgmt f).sessions = s.sessions := rfl
@[simp] theorem State.modMgmt_out (s : State) (f : Mgmt → Mgmt) : (s.modMgmt f).out = s.out := rfl
@[simp] theorem State.modMgmt_alerts (s : State) (f : Mgmt → Mgmt) : (s.modMgmt f).alerts = s.alerts := rfl
@[simp] theorem State.modMgmt_peerObjects (s : State) (f : Mgmt → Mgmt) : (s.modMgmt f).peerObjects = s.peerObjects := rfl
@[simp] theorem State.modMgmt_linkOut (s : State) (f : Mgmt → Mgmt) : (s.modMgmt f).linkOut = s.linkOut := rfl
@[simp] theorem State.modMgmt_fwStore (s : State) (f : Mgmt → Mgmt) : (s.modMgmt f).fwStore = s.fwStore := rfl
@[simp] theorem State.modMgmt_clock (s : State) (f : Mgmt → Mgmt) : (s.modMgmt f).clock = s.clock := rfl
@[simp] theorem State.modMgmt_panels (s : State) (f : Mgmt → Mgmt) : (s.modMgmt f).panels = s.panels := rfl
@[simp] theorem State.modMgmt_channels (s : State) (f : Mgmt → Mgmt) : (s.modMgmt f).channels = s.channels := rfl
@[simp] theorem State.modMgmt_cal (s : State) (f : Mgmt → Mgmt) : (s.modMgmt f).cal = s.cal := rfl
@[simp] theorem State.modMgmt_ports (s : State) (f : Mgmt → Mgmt) : (s.modMgmt f).ports = s.ports := rfl
@[simp] theorem State.modMgmt_config (s : State) (f : Mgmt → Mgmt) : (s.modMgmt f).config = s.config := rfl
@[simp] theorem State.modMgmt_power (s : State) (f : Mgmt → Mgmt) : (s.modMgmt f).power = s.power := rfl
@[simp] theorem State.modMgmt_boot (s : State) (f : Mgmt → Mgmt) : (s.modMgmt f).boot = s.boot := rfl
@[simp] theorem State.modMgmt_bays (s : State) (f : Mgmt → Mgmt) : (s.modMgmt f).bays = s.bays := rfl
@[simp] theorem State.modMgmt_book (s : State) (f : Mgmt → Mgmt) : (s.modMgmt f).book = s.book := rfl
@[simp] theorem State.modMgmt_mgmt (s : State) (f : Mgmt → Mgmt) : (s.modMgmt f).mgmt = f s.mgmt := rfl
@[simp] theorem State.modMgmt_debug (s : State) (f : Mgmt → Mgmt) : (s.modMgmt f).debug = s.debug := rfl
@[simp] theorem State.modMgmt_referee (s : State) (f : Mgmt → Mgmt) : (s.modMgmt f).referee = s.referee := rfl

/-! ### modBook -/

@[simp] theorem State.modBook_pending (s : State) (f : Scorebook → Scorebook) : (s.modBook f).pending = s.pending := rfl
@[simp] theorem State.modBook_cores (s : State) (f : Scorebook → Scorebook) : (s.modBook f).cores = s.cores := rfl
@[simp] theorem State.modBook_phys (s : State) (f : Scorebook → Scorebook) : (s.modBook f).phys = s.phys := rfl
@[simp] theorem State.modBook_map (s : State) (f : Scorebook → Scorebook) : (s.modBook f).map = s.map := rfl
@[simp] theorem State.modBook_units (s : State) (f : Scorebook → Scorebook) : (s.modBook f).units = s.units := rfl
@[simp] theorem State.modBook_hbm (s : State) (f : Scorebook → Scorebook) : (s.modBook f).hbm = s.hbm := rfl
@[simp] theorem State.modBook_flight (s : State) (f : Scorebook → Scorebook) : (s.modBook f).flight = s.flight := rfl
@[simp] theorem State.modBook_nextId (s : State) (f : Scorebook → Scorebook) : (s.modBook f).nextId = s.nextId := rfl
@[simp] theorem State.modBook_nextFree (s : State) (f : Scorebook → Scorebook) : (s.modBook f).nextFree = s.nextFree := rfl
@[simp] theorem State.modBook_patterns (s : State) (f : Scorebook → Scorebook) : (s.modBook f).patterns = s.patterns := rfl
@[simp] theorem State.modBook_loads (s : State) (f : Scorebook → Scorebook) : (s.modBook f).loads = s.loads := rfl
@[simp] theorem State.modBook_nextHandle (s : State) (f : Scorebook → Scorebook) : (s.modBook f).nextHandle = s.nextHandle := rfl
@[simp] theorem State.modBook_tasks (s : State) (f : Scorebook → Scorebook) : (s.modBook f).tasks = s.tasks := rfl
@[simp] theorem State.modBook_nextTask (s : State) (f : Scorebook → Scorebook) : (s.modBook f).nextTask = s.nextTask := rfl
@[simp] theorem State.modBook_sessions (s : State) (f : Scorebook → Scorebook) : (s.modBook f).sessions = s.sessions := rfl
@[simp] theorem State.modBook_out (s : State) (f : Scorebook → Scorebook) : (s.modBook f).out = s.out := rfl
@[simp] theorem State.modBook_alerts (s : State) (f : Scorebook → Scorebook) : (s.modBook f).alerts = s.alerts := rfl
@[simp] theorem State.modBook_peerObjects (s : State) (f : Scorebook → Scorebook) : (s.modBook f).peerObjects = s.peerObjects := rfl
@[simp] theorem State.modBook_linkOut (s : State) (f : Scorebook → Scorebook) : (s.modBook f).linkOut = s.linkOut := rfl
@[simp] theorem State.modBook_fwStore (s : State) (f : Scorebook → Scorebook) : (s.modBook f).fwStore = s.fwStore := rfl
@[simp] theorem State.modBook_clock (s : State) (f : Scorebook → Scorebook) : (s.modBook f).clock = s.clock := rfl
@[simp] theorem State.modBook_panels (s : State) (f : Scorebook → Scorebook) : (s.modBook f).panels = s.panels := rfl
@[simp] theorem State.modBook_channels (s : State) (f : Scorebook → Scorebook) : (s.modBook f).channels = s.channels := rfl
@[simp] theorem State.modBook_cal (s : State) (f : Scorebook → Scorebook) : (s.modBook f).cal = s.cal := rfl
@[simp] theorem State.modBook_ports (s : State) (f : Scorebook → Scorebook) : (s.modBook f).ports = s.ports := rfl
@[simp] theorem State.modBook_config (s : State) (f : Scorebook → Scorebook) : (s.modBook f).config = s.config := rfl
@[simp] theorem State.modBook_power (s : State) (f : Scorebook → Scorebook) : (s.modBook f).power = s.power := rfl
@[simp] theorem State.modBook_boot (s : State) (f : Scorebook → Scorebook) : (s.modBook f).boot = s.boot := rfl
@[simp] theorem State.modBook_bays (s : State) (f : Scorebook → Scorebook) : (s.modBook f).bays = s.bays := rfl
@[simp] theorem State.modBook_book (s : State) (f : Scorebook → Scorebook) : (s.modBook f).book = f s.book := rfl
@[simp] theorem State.modBook_mgmt (s : State) (f : Scorebook → Scorebook) : (s.modBook f).mgmt = s.mgmt := rfl
@[simp] theorem State.modBook_debug (s : State) (f : Scorebook → Scorebook) : (s.modBook f).debug = s.debug := rfl
@[simp] theorem State.modBook_referee (s : State) (f : Scorebook → Scorebook) : (s.modBook f).referee = s.referee := rfl

/-! ### emit -/

@[simp] theorem State.emit_pending (s : State) (code src : Nat) (data : List Byte) : (s.emit code src data).pending = s.pending := rfl
@[simp] theorem State.emit_cores (s : State) (code src : Nat) (data : List Byte) : (s.emit code src data).cores = s.cores := rfl
@[simp] theorem State.emit_phys (s : State) (code src : Nat) (data : List Byte) : (s.emit code src data).phys = s.phys := rfl
@[simp] theorem State.emit_map (s : State) (code src : Nat) (data : List Byte) : (s.emit code src data).map = s.map := rfl
@[simp] theorem State.emit_units (s : State) (code src : Nat) (data : List Byte) : (s.emit code src data).units = s.units := rfl
@[simp] theorem State.emit_hbm (s : State) (code src : Nat) (data : List Byte) : (s.emit code src data).hbm = s.hbm := rfl
@[simp] theorem State.emit_flight (s : State) (code src : Nat) (data : List Byte) : (s.emit code src data).flight = s.flight := rfl
@[simp] theorem State.emit_nextId (s : State) (code src : Nat) (data : List Byte) : (s.emit code src data).nextId = s.nextId := rfl
@[simp] theorem State.emit_nextFree (s : State) (code src : Nat) (data : List Byte) : (s.emit code src data).nextFree = s.nextFree := rfl
@[simp] theorem State.emit_patterns (s : State) (code src : Nat) (data : List Byte) : (s.emit code src data).patterns = s.patterns := rfl
@[simp] theorem State.emit_loads (s : State) (code src : Nat) (data : List Byte) : (s.emit code src data).loads = s.loads := rfl
@[simp] theorem State.emit_nextHandle (s : State) (code src : Nat) (data : List Byte) : (s.emit code src data).nextHandle = s.nextHandle := rfl
@[simp] theorem State.emit_tasks (s : State) (code src : Nat) (data : List Byte) : (s.emit code src data).tasks = s.tasks := rfl
@[simp] theorem State.emit_nextTask (s : State) (code src : Nat) (data : List Byte) : (s.emit code src data).nextTask = s.nextTask := rfl
@[simp] theorem State.emit_sessions (s : State) (code src : Nat) (data : List Byte) : (s.emit code src data).sessions = s.sessions := rfl
@[simp] theorem State.emit_out (s : State) (code src : Nat) (data : List Byte) : (s.emit code src data).out = s.out := rfl
@[simp] theorem State.emit_alerts (s : State) (code src : Nat) (data : List Byte) : (s.emit code src data).alerts = s.alerts := rfl
@[simp] theorem State.emit_peerObjects (s : State) (code src : Nat) (data : List Byte) : (s.emit code src data).peerObjects = s.peerObjects := rfl
@[simp] theorem State.emit_linkOut (s : State) (code src : Nat) (data : List Byte) : (s.emit code src data).linkOut = s.linkOut := rfl
@[simp] theorem State.emit_fwStore (s : State) (code src : Nat) (data : List Byte) : (s.emit code src data).fwStore = s.fwStore := rfl
@[simp] theorem State.emit_clock (s : State) (code src : Nat) (data : List Byte) : (s.emit code src data).clock = s.clock := rfl
@[simp] theorem State.emit_panels (s : State) (code src : Nat) (data : List Byte) : (s.emit code src data).panels = s.panels := rfl
@[simp] theorem State.emit_channels (s : State) (code src : Nat) (data : List Byte) : (s.emit code src data).channels = s.channels := rfl
@[simp] theorem State.emit_cal (s : State) (code src : Nat) (data : List Byte) : (s.emit code src data).cal = s.cal := rfl
@[simp] theorem State.emit_ports (s : State) (code src : Nat) (data : List Byte) : (s.emit code src data).ports = s.ports := rfl
@[simp] theorem State.emit_config (s : State) (code src : Nat) (data : List Byte) : (s.emit code src data).config = s.config := rfl
@[simp] theorem State.emit_power (s : State) (code src : Nat) (data : List Byte) : (s.emit code src data).power = s.power := rfl
@[simp] theorem State.emit_boot (s : State) (code src : Nat) (data : List Byte) : (s.emit code src data).boot = s.boot := rfl
@[simp] theorem State.emit_bays (s : State) (code src : Nat) (data : List Byte) : (s.emit code src data).bays = s.bays := rfl
@[simp] theorem State.emit_mgmt (s : State) (code src : Nat) (data : List Byte) : (s.emit code src data).mgmt = s.mgmt := rfl
@[simp] theorem State.emit_debug (s : State) (code src : Nat) (data : List Byte) : (s.emit code src data).debug = s.debug := rfl
@[simp] theorem State.emit_referee (s : State) (code src : Nat) (data : List Byte) : (s.emit code src data).referee = s.referee := rfl

/-! ### pend -/

@[simp] theorem State.pend_pending (s : State) (n : Nat) (ps : List Pend) : (s.pend n ps).pending = s.pending := rfl
@[simp] theorem State.pend_phys (s : State) (n : Nat) (ps : List Pend) : (s.pend n ps).phys = s.phys := rfl
@[simp] theorem State.pend_map (s : State) (n : Nat) (ps : List Pend) : (s.pend n ps).map = s.map := rfl
@[simp] theorem State.pend_units (s : State) (n : Nat) (ps : List Pend) : (s.pend n ps).units = s.units := rfl
@[simp] theorem State.pend_hbm (s : State) (n : Nat) (ps : List Pend) : (s.pend n ps).hbm = s.hbm := rfl
@[simp] theorem State.pend_flight (s : State) (n : Nat) (ps : List Pend) : (s.pend n ps).flight = s.flight := rfl
@[simp] theorem State.pend_nextId (s : State) (n : Nat) (ps : List Pend) : (s.pend n ps).nextId = s.nextId := rfl
@[simp] theorem State.pend_nextFree (s : State) (n : Nat) (ps : List Pend) : (s.pend n ps).nextFree = s.nextFree := rfl
@[simp] theorem State.pend_patterns (s : State) (n : Nat) (ps : List Pend) : (s.pend n ps).patterns = s.patterns := rfl
@[simp] theorem State.pend_loads (s : State) (n : Nat) (ps : List Pend) : (s.pend n ps).loads = s.loads := rfl
@[simp] theorem State.pend_nextHandle (s : State) (n : Nat) (ps : List Pend) : (s.pend n ps).nextHandle = s.nextHandle := rfl
@[simp] theorem State.pend_tasks (s : State) (n : Nat) (ps : List Pend) : (s.pend n ps).tasks = s.tasks := rfl
@[simp] theorem State.pend_nextTask (s : State) (n : Nat) (ps : List Pend) : (s.pend n ps).nextTask = s.nextTask := rfl
@[simp] theorem State.pend_sessions (s : State) (n : Nat) (ps : List Pend) : (s.pend n ps).sessions = s.sessions := rfl
@[simp] theorem State.pend_out (s : State) (n : Nat) (ps : List Pend) : (s.pend n ps).out = s.out := rfl
@[simp] theorem State.pend_alerts (s : State) (n : Nat) (ps : List Pend) : (s.pend n ps).alerts = s.alerts := rfl
@[simp] theorem State.pend_peerObjects (s : State) (n : Nat) (ps : List Pend) : (s.pend n ps).peerObjects = s.peerObjects := rfl
@[simp] theorem State.pend_linkOut (s : State) (n : Nat) (ps : List Pend) : (s.pend n ps).linkOut = s.linkOut := rfl
@[simp] theorem State.pend_fwStore (s : State) (n : Nat) (ps : List Pend) : (s.pend n ps).fwStore = s.fwStore := rfl
@[simp] theorem State.pend_clock (s : State) (n : Nat) (ps : List Pend) : (s.pend n ps).clock = s.clock := rfl
@[simp] theorem State.pend_panels (s : State) (n : Nat) (ps : List Pend) : (s.pend n ps).panels = s.panels := rfl
@[simp] theorem State.pend_channels (s : State) (n : Nat) (ps : List Pend) : (s.pend n ps).channels = s.channels := rfl
@[simp] theorem State.pend_cal (s : State) (n : Nat) (ps : List Pend) : (s.pend n ps).cal = s.cal := rfl
@[simp] theorem State.pend_ports (s : State) (n : Nat) (ps : List Pend) : (s.pend n ps).ports = s.ports := rfl
@[simp] theorem State.pend_config (s : State) (n : Nat) (ps : List Pend) : (s.pend n ps).config = s.config := rfl
@[simp] theorem State.pend_power (s : State) (n : Nat) (ps : List Pend) : (s.pend n ps).power = s.power := rfl
@[simp] theorem State.pend_boot (s : State) (n : Nat) (ps : List Pend) : (s.pend n ps).boot = s.boot := rfl
@[simp] theorem State.pend_bays (s : State) (n : Nat) (ps : List Pend) : (s.pend n ps).bays = s.bays := rfl
@[simp] theorem State.pend_book (s : State) (n : Nat) (ps : List Pend) : (s.pend n ps).book = s.book := rfl
@[simp] theorem State.pend_mgmt (s : State) (n : Nat) (ps : List Pend) : (s.pend n ps).mgmt = s.mgmt := rfl
@[simp] theorem State.pend_debug (s : State) (n : Nat) (ps : List Pend) : (s.pend n ps).debug = s.debug := rfl
@[simp] theorem State.pend_referee (s : State) (n : Nat) (ps : List Pend) : (s.pend n ps).referee = s.referee := rfl

/-! ### bufWrite -/

@[simp] theorem State.bufWrite_pending (s : State) (n off : Nat) (bs : List Byte) : (s.bufWrite n off bs).pending = s.pending := rfl
@[simp] theorem State.bufWrite_cores (s : State) (n off : Nat) (bs : List Byte) : (s.bufWrite n off bs).cores = s.cores := rfl
@[simp] theorem State.bufWrite_map (s : State) (n off : Nat) (bs : List Byte) : (s.bufWrite n off bs).map = s.map := rfl
@[simp] theorem State.bufWrite_units (s : State) (n off : Nat) (bs : List Byte) : (s.bufWrite n off bs).units = s.units := rfl
@[simp] theorem State.bufWrite_hbm (s : State) (n off : Nat) (bs : List Byte) : (s.bufWrite n off bs).hbm = s.hbm := rfl
@[simp] theorem State.bufWrite_flight (s : State) (n off : Nat) (bs : List Byte) : (s.bufWrite n off bs).flight = s.flight := rfl
@[simp] theorem State.bufWrite_nextId (s : State) (n off : Nat) (bs : List Byte) : (s.bufWrite n off bs).nextId = s.nextId := rfl
@[simp] theorem State.bufWrite_nextFree (s : State) (n off : Nat) (bs : List Byte) : (s.bufWrite n off bs).nextFree = s.nextFree := rfl
@[simp] theorem State.bufWrite_patterns (s : State) (n off : Nat) (bs : List Byte) : (s.bufWrite n off bs).patterns = s.patterns := rfl
@[simp] theorem State.bufWrite_loads (s : State) (n off : Nat) (bs : List Byte) : (s.bufWrite n off bs).loads = s.loads := rfl
@[simp] theorem State.bufWrite_nextHandle (s : State) (n off : Nat) (bs : List Byte) : (s.bufWrite n off bs).nextHandle = s.nextHandle := rfl
@[simp] theorem State.bufWrite_tasks (s : State) (n off : Nat) (bs : List Byte) : (s.bufWrite n off bs).tasks = s.tasks := rfl
@[simp] theorem State.bufWrite_nextTask (s : State) (n off : Nat) (bs : List Byte) : (s.bufWrite n off bs).nextTask = s.nextTask := rfl
@[simp] theorem State.bufWrite_sessions (s : State) (n off : Nat) (bs : List Byte) : (s.bufWrite n off bs).sessions = s.sessions := rfl
@[simp] theorem State.bufWrite_out (s : State) (n off : Nat) (bs : List Byte) : (s.bufWrite n off bs).out = s.out := rfl
@[simp] theorem State.bufWrite_alerts (s : State) (n off : Nat) (bs : List Byte) : (s.bufWrite n off bs).alerts = s.alerts := rfl
@[simp] theorem State.bufWrite_peerObjects (s : State) (n off : Nat) (bs : List Byte) : (s.bufWrite n off bs).peerObjects = s.peerObjects := rfl
@[simp] theorem State.bufWrite_linkOut (s : State) (n off : Nat) (bs : List Byte) : (s.bufWrite n off bs).linkOut = s.linkOut := rfl
@[simp] theorem State.bufWrite_fwStore (s : State) (n off : Nat) (bs : List Byte) : (s.bufWrite n off bs).fwStore = s.fwStore := rfl
@[simp] theorem State.bufWrite_clock (s : State) (n off : Nat) (bs : List Byte) : (s.bufWrite n off bs).clock = s.clock := rfl
@[simp] theorem State.bufWrite_panels (s : State) (n off : Nat) (bs : List Byte) : (s.bufWrite n off bs).panels = s.panels := rfl
@[simp] theorem State.bufWrite_channels (s : State) (n off : Nat) (bs : List Byte) : (s.bufWrite n off bs).channels = s.channels := rfl
@[simp] theorem State.bufWrite_cal (s : State) (n off : Nat) (bs : List Byte) : (s.bufWrite n off bs).cal = s.cal := rfl
@[simp] theorem State.bufWrite_ports (s : State) (n off : Nat) (bs : List Byte) : (s.bufWrite n off bs).ports = s.ports := rfl
@[simp] theorem State.bufWrite_config (s : State) (n off : Nat) (bs : List Byte) : (s.bufWrite n off bs).config = s.config := rfl
@[simp] theorem State.bufWrite_power (s : State) (n off : Nat) (bs : List Byte) : (s.bufWrite n off bs).power = s.power := rfl
@[simp] theorem State.bufWrite_boot (s : State) (n off : Nat) (bs : List Byte) : (s.bufWrite n off bs).boot = s.boot := rfl
@[simp] theorem State.bufWrite_bays (s : State) (n off : Nat) (bs : List Byte) : (s.bufWrite n off bs).bays = s.bays := rfl
@[simp] theorem State.bufWrite_book (s : State) (n off : Nat) (bs : List Byte) : (s.bufWrite n off bs).book = s.book := rfl
@[simp] theorem State.bufWrite_mgmt (s : State) (n off : Nat) (bs : List Byte) : (s.bufWrite n off bs).mgmt = s.mgmt := rfl
@[simp] theorem State.bufWrite_debug (s : State) (n off : Nat) (bs : List Byte) : (s.bufWrite n off bs).debug = s.debug := rfl
@[simp] theorem State.bufWrite_referee (s : State) (n off : Nat) (bs : List Byte) : (s.bufWrite n off bs).referee = s.referee := rfl

/-! ### modSession -/

@[simp] theorem State.modSession_pending (s : State) (c : Nat) (f : Session → Session) : (s.modSession c f).pending = s.pending := by
  unfold State.modSession; split <;> rfl
@[simp] theorem State.modSession_cores (s : State) (c : Nat) (f : Session → Session) : (s.modSession c f).cores = s.cores := by
  unfold State.modSession; split <;> rfl
@[simp] theorem State.modSession_phys (s : State) (c : Nat) (f : Session → Session) : (s.modSession c f).phys = s.phys := by
  unfold State.modSession; split <;> rfl
@[simp] theorem State.modSession_map (s : State) (c : Nat) (f : Session → Session) : (s.modSession c f).map = s.map := by
  unfold State.modSession; split <;> rfl
@[simp] theorem State.modSession_units (s : State) (c : Nat) (f : Session → Session) : (s.modSession c f).units = s.units := by
  unfold State.modSession; split <;> rfl
@[simp] theorem State.modSession_hbm (s : State) (c : Nat) (f : Session → Session) : (s.modSession c f).hbm = s.hbm := by
  unfold State.modSession; split <;> rfl
@[simp] theorem State.modSession_flight (s : State) (c : Nat) (f : Session → Session) : (s.modSession c f).flight = s.flight := by
  unfold State.modSession; split <;> rfl
@[simp] theorem State.modSession_nextId (s : State) (c : Nat) (f : Session → Session) : (s.modSession c f).nextId = s.nextId := by
  unfold State.modSession; split <;> rfl
@[simp] theorem State.modSession_nextFree (s : State) (c : Nat) (f : Session → Session) : (s.modSession c f).nextFree = s.nextFree := by
  unfold State.modSession; split <;> rfl
@[simp] theorem State.modSession_patterns (s : State) (c : Nat) (f : Session → Session) : (s.modSession c f).patterns = s.patterns := by
  unfold State.modSession; split <;> rfl
@[simp] theorem State.modSession_loads (s : State) (c : Nat) (f : Session → Session) : (s.modSession c f).loads = s.loads := by
  unfold State.modSession; split <;> rfl
@[simp] theorem State.modSession_nextHandle (s : State) (c : Nat) (f : Session → Session) : (s.modSession c f).nextHandle = s.nextHandle := by
  unfold State.modSession; split <;> rfl
@[simp] theorem State.modSession_tasks (s : State) (c : Nat) (f : Session → Session) : (s.modSession c f).tasks = s.tasks := by
  unfold State.modSession; split <;> rfl
@[simp] theorem State.modSession_nextTask (s : State) (c : Nat) (f : Session → Session) : (s.modSession c f).nextTask = s.nextTask := by
  unfold State.modSession; split <;> rfl
@[simp] theorem State.modSession_out (s : State) (c : Nat) (f : Session → Session) : (s.modSession c f).out = s.out := by
  unfold State.modSession; split <;> rfl
@[simp] theorem State.modSession_alerts (s : State) (c : Nat) (f : Session → Session) : (s.modSession c f).alerts = s.alerts := by
  unfold State.modSession; split <;> rfl
@[simp] theorem State.modSession_peerObjects (s : State) (c : Nat) (f : Session → Session) : (s.modSession c f).peerObjects = s.peerObjects := by
  unfold State.modSession; split <;> rfl
@[simp] theorem State.modSession_linkOut (s : State) (c : Nat) (f : Session → Session) : (s.modSession c f).linkOut = s.linkOut := by
  unfold State.modSession; split <;> rfl
@[simp] theorem State.modSession_fwStore (s : State) (c : Nat) (f : Session → Session) : (s.modSession c f).fwStore = s.fwStore := by
  unfold State.modSession; split <;> rfl
@[simp] theorem State.modSession_clock (s : State) (c : Nat) (f : Session → Session) : (s.modSession c f).clock = s.clock := by
  unfold State.modSession; split <;> rfl
@[simp] theorem State.modSession_panels (s : State) (c : Nat) (f : Session → Session) : (s.modSession c f).panels = s.panels := by
  unfold State.modSession; split <;> rfl
@[simp] theorem State.modSession_channels (s : State) (c : Nat) (f : Session → Session) : (s.modSession c f).channels = s.channels := by
  unfold State.modSession; split <;> rfl
@[simp] theorem State.modSession_cal (s : State) (c : Nat) (f : Session → Session) : (s.modSession c f).cal = s.cal := by
  unfold State.modSession; split <;> rfl
@[simp] theorem State.modSession_ports (s : State) (c : Nat) (f : Session → Session) : (s.modSession c f).ports = s.ports := by
  unfold State.modSession; split <;> rfl
@[simp] theorem State.modSession_config (s : State) (c : Nat) (f : Session → Session) : (s.modSession c f).config = s.config := by
  unfold State.modSession; split <;> rfl
@[simp] theorem State.modSession_power (s : State) (c : Nat) (f : Session → Session) : (s.modSession c f).power = s.power := by
  unfold State.modSession; split <;> rfl
@[simp] theorem State.modSession_boot (s : State) (c : Nat) (f : Session → Session) : (s.modSession c f).boot = s.boot := by
  unfold State.modSession; split <;> rfl
@[simp] theorem State.modSession_bays (s : State) (c : Nat) (f : Session → Session) : (s.modSession c f).bays = s.bays := by
  unfold State.modSession; split <;> rfl
@[simp] theorem State.modSession_book (s : State) (c : Nat) (f : Session → Session) : (s.modSession c f).book = s.book := by
  unfold State.modSession; split <;> rfl
@[simp] theorem State.modSession_mgmt (s : State) (c : Nat) (f : Session → Session) : (s.modSession c f).mgmt = s.mgmt := by
  unfold State.modSession; split <;> rfl
@[simp] theorem State.modSession_debug (s : State) (c : Nat) (f : Session → Session) : (s.modSession c f).debug = s.debug := by
  unfold State.modSession; split <;> rfl
@[simp] theorem State.modSession_referee (s : State) (c : Nat) (f : Session → Session) : (s.modSession c f).referee = s.referee := by
  unfold State.modSession; split <;> rfl

/-! ### writeS -/

@[simp] theorem State.writeS_pending (s : State) (n : Nat) (r : BitVec 5) (lat : Nat) (v : BitVec 64) : (s.writeS n r lat v).pending = s.pending := by
  unfold State.writeS; split <;> rfl
@[simp] theorem State.writeS_phys (s : State) (n : Nat) (r : BitVec 5) (lat : Nat) (v : BitVec 64) : (s.writeS n r lat v).phys = s.phys := by
  unfold State.writeS; split <;> rfl
@[simp] theorem State.writeS_map (s : State) (n : Nat) (r : BitVec 5) (lat : Nat) (v : BitVec 64) : (s.writeS n r lat v).map = s.map := by
  unfold State.writeS; split <;> rfl
@[simp] theorem State.writeS_units (s : State) (n : Nat) (r : BitVec 5) (lat : Nat) (v : BitVec 64) : (s.writeS n r lat v).units = s.units := by
  unfold State.writeS; split <;> rfl
@[simp] theorem State.writeS_hbm (s : State) (n : Nat) (r : BitVec 5) (lat : Nat) (v : BitVec 64) : (s.writeS n r lat v).hbm = s.hbm := by
  unfold State.writeS; split <;> rfl
@[simp] theorem State.writeS_flight (s : State) (n : Nat) (r : BitVec 5) (lat : Nat) (v : BitVec 64) : (s.writeS n r lat v).flight = s.flight := by
  unfold State.writeS; split <;> rfl
@[simp] theorem State.writeS_nextId (s : State) (n : Nat) (r : BitVec 5) (lat : Nat) (v : BitVec 64) : (s.writeS n r lat v).nextId = s.nextId := by
  unfold State.writeS; split <;> rfl
@[simp] theorem State.writeS_nextFree (s : State) (n : Nat) (r : BitVec 5) (lat : Nat) (v : BitVec 64) : (s.writeS n r lat v).nextFree = s.nextFree := by
  unfold State.writeS; split <;> rfl
@[simp] theorem State.writeS_patterns (s : State) (n : Nat) (r : BitVec 5) (lat : Nat) (v : BitVec 64) : (s.writeS n r lat v).patterns = s.patterns := by
  unfold State.writeS; split <;> rfl
@[simp] theorem State.writeS_loads (s : State) (n : Nat) (r : BitVec 5) (lat : Nat) (v : BitVec 64) : (s.writeS n r lat v).loads = s.loads := by
  unfold State.writeS; split <;> rfl
@[simp] theorem State.writeS_nextHandle (s : State) (n : Nat) (r : BitVec 5) (lat : Nat) (v : BitVec 64) : (s.writeS n r lat v).nextHandle = s.nextHandle := by
  unfold State.writeS; split <;> rfl
@[simp] theorem State.writeS_tasks (s : State) (n : Nat) (r : BitVec 5) (lat : Nat) (v : BitVec 64) : (s.writeS n r lat v).tasks = s.tasks := by
  unfold State.writeS; split <;> rfl
@[simp] theorem State.writeS_nextTask (s : State) (n : Nat) (r : BitVec 5) (lat : Nat) (v : BitVec 64) : (s.writeS n r lat v).nextTask = s.nextTask := by
  unfold State.writeS; split <;> rfl
@[simp] theorem State.writeS_sessions (s : State) (n : Nat) (r : BitVec 5) (lat : Nat) (v : BitVec 64) : (s.writeS n r lat v).sessions = s.sessions := by
  unfold State.writeS; split <;> rfl
@[simp] theorem State.writeS_out (s : State) (n : Nat) (r : BitVec 5) (lat : Nat) (v : BitVec 64) : (s.writeS n r lat v).out = s.out := by
  unfold State.writeS; split <;> rfl
@[simp] theorem State.writeS_alerts (s : State) (n : Nat) (r : BitVec 5) (lat : Nat) (v : BitVec 64) : (s.writeS n r lat v).alerts = s.alerts := by
  unfold State.writeS; split <;> rfl
@[simp] theorem State.writeS_peerObjects (s : State) (n : Nat) (r : BitVec 5) (lat : Nat) (v : BitVec 64) : (s.writeS n r lat v).peerObjects = s.peerObjects := by
  unfold State.writeS; split <;> rfl
@[simp] theorem State.writeS_linkOut (s : State) (n : Nat) (r : BitVec 5) (lat : Nat) (v : BitVec 64) : (s.writeS n r lat v).linkOut = s.linkOut := by
  unfold State.writeS; split <;> rfl
@[simp] theorem State.writeS_fwStore (s : State) (n : Nat) (r : BitVec 5) (lat : Nat) (v : BitVec 64) : (s.writeS n r lat v).fwStore = s.fwStore := by
  unfold State.writeS; split <;> rfl
@[simp] theorem State.writeS_clock (s : State) (n : Nat) (r : BitVec 5) (lat : Nat) (v : BitVec 64) : (s.writeS n r lat v).clock = s.clock := by
  unfold State.writeS; split <;> rfl
@[simp] theorem State.writeS_panels (s : State) (n : Nat) (r : BitVec 5) (lat : Nat) (v : BitVec 64) : (s.writeS n r lat v).panels = s.panels := by
  unfold State.writeS; split <;> rfl
@[simp] theorem State.writeS_channels (s : State) (n : Nat) (r : BitVec 5) (lat : Nat) (v : BitVec 64) : (s.writeS n r lat v).channels = s.channels := by
  unfold State.writeS; split <;> rfl
@[simp] theorem State.writeS_cal (s : State) (n : Nat) (r : BitVec 5) (lat : Nat) (v : BitVec 64) : (s.writeS n r lat v).cal = s.cal := by
  unfold State.writeS; split <;> rfl
@[simp] theorem State.writeS_ports (s : State) (n : Nat) (r : BitVec 5) (lat : Nat) (v : BitVec 64) : (s.writeS n r lat v).ports = s.ports := by
  unfold State.writeS; split <;> rfl
@[simp] theorem State.writeS_config (s : State) (n : Nat) (r : BitVec 5) (lat : Nat) (v : BitVec 64) : (s.writeS n r lat v).config = s.config := by
  unfold State.writeS; split <;> rfl
@[simp] theorem State.writeS_power (s : State) (n : Nat) (r : BitVec 5) (lat : Nat) (v : BitVec 64) : (s.writeS n r lat v).power = s.power := by
  unfold State.writeS; split <;> rfl
@[simp] theorem State.writeS_boot (s : State) (n : Nat) (r : BitVec 5) (lat : Nat) (v : BitVec 64) : (s.writeS n r lat v).boot = s.boot := by
  unfold State.writeS; split <;> rfl
@[simp] theorem State.writeS_bays (s : State) (n : Nat) (r : BitVec 5) (lat : Nat) (v : BitVec 64) : (s.writeS n r lat v).bays = s.bays := by
  unfold State.writeS; split <;> rfl
@[simp] theorem State.writeS_book (s : State) (n : Nat) (r : BitVec 5) (lat : Nat) (v : BitVec 64) : (s.writeS n r lat v).book = s.book := by
  unfold State.writeS; split <;> rfl
@[simp] theorem State.writeS_mgmt (s : State) (n : Nat) (r : BitVec 5) (lat : Nat) (v : BitVec 64) : (s.writeS n r lat v).mgmt = s.mgmt := by
  unfold State.writeS; split <;> rfl
@[simp] theorem State.writeS_debug (s : State) (n : Nat) (r : BitVec 5) (lat : Nat) (v : BitVec 64) : (s.writeS n r lat v).debug = s.debug := by
  unfold State.writeS; split <;> rfl
@[simp] theorem State.writeS_referee (s : State) (n : Nat) (r : BitVec 5) (lat : Nat) (v : BitVec 64) : (s.writeS n r lat v).referee = s.referee := by
  unfold State.writeS; split <;> rfl

/-! ### A unit after it is changed -/

@[simp] theorem State.core_setCore (s : State) (n : Nat) (c : Core) : (s.setCore n c).core n = c := by simp [State.core]
@[simp] theorem State.core_modCore (s : State) (n : Nat) (f : Core → Core) : (s.modCore n f).core n = f (s.core n) := by
  simp [State.core]
theorem State.core_modCore_ne (s : State) {n m : Nat} (f : Core → Core) (h : m ≠ n) : (s.modCore n f).core m = s.core m := by
  simp [State.core, mget_mset_ne _ _ _ h]
@[simp] theorem State.ph_modPh (s : State) (p : Nat) (f : Phys → Phys) : (s.modPh p f).ph p = f (s.ph p) := by simp [State.ph]
theorem State.ph_modPh_ne (s : State) {p q : Nat} (f : Phys → Phys) (h : q ≠ p) : (s.modPh p f).ph q = s.ph q := by
  simp [State.ph, mget_mset_ne _ _ _ h]
@[simp] theorem State.physOf_modCore (s : State) (n m : Nat) (f : Core → Core) : (s.modCore n f).physOf m = s.physOf m := rfl
@[simp] theorem State.pcore_modCore (s : State) (n m : Nat) (f : Core → Core) : (s.modCore n f).pcore m = s.pcore m := rfl
@[simp] theorem State.physOf_modP (s : State) (n m : Nat) (f : Phys → Phys) : (s.modP n f).physOf m = s.physOf m := rfl
@[simp] theorem State.core_modP (s : State) (n m : Nat) (f : Phys → Phys) : (s.modP n f).core m = s.core m := rfl
@[simp] theorem State.pcore_modP (s : State) (n : Nat) (f : Phys → Phys) : (s.modP n f).pcore n = f (s.pcore n) :=
  State.ph_modPh s (s.physOf n) f
@[simp] theorem State.panel_modPanel (s : State) (p : Nat) (f : Panel → Panel) : (s.modPanel p f).panel p = f (s.panel p) := by
  simp [State.panel]
@[simp] theorem State.port_modPort (s : State) (p : Nat) (f : Port → Port) : (s.modPort p f).port p = f (s.port p) := by
  simp [State.port]
@[simp] theorem State.channel_modChannel (s : State) (c : Nat) (f : Channel → Channel) :
    (s.modChannel c f).channel c = f (s.channel c) := by simp [State.channel]
@[simp] theorem State.bay_modBay (s : State) (b : Nat) (f : Bay → Bay) : (s.modBay b f).bay b = f (s.bay b) := by
  simp [State.bay]
theorem State.session_modSession (s : State) (c : Nat) (f : Session → Session) : (s.modSession c f).session c = (s.session c).map f := by
  unfold State.modSession
  cases h : s.session c with
  | none => simp [h]
  | some x => simp [State.session]

/-- A command never changes the queue behind it. -/
theorem done_pending (s t u : State) (h : done s t = .next u) : u.pending = s.pending := by
  simp only [done, Host.Outcome.next.injEq] at h
  rw [← h]

end Sys2Proof.Machine
end

