-- ==== Sys2Proof/Laws/Engine.lean ====
section
/-!
SUPPORT. What the engine's reads at the end of a cycle can do: nothing where no row still reads, and else a change of the cores and of the
physical cores alone.
-/

namespace Sys2Proof.Machine

/-- Where no row still reads, nothing settles anew: R62. -/
theorem State.resettle_none {s : State} {n t : Nat} (h : (s.core n).mx.base = none) : s.resettle n t = s := by
  simp [State.resettle, h]

/-- Rows that settle anew change the cores and the physical cores alone: R62. -/
theorem State.settleAnew_frame (s : State) (n t : Nat) (b : EngineBase) :
    s.settleAnew n t b = { s with cores := (s.settleAnew n t b).cores, phys := (s.settleAnew n t b).phys } := rfl

/-- What the engine reads at the end of a cycle changes the cores and the physical cores alone: R62. -/
theorem State.resettle_frame (s : State) (n t : Nat) :
    s.resettle n t = { s with cores := (s.resettle n t).cores, phys := (s.resettle n t).phys } := by
  cases h : (s.core n).mx.base with
  | none => rw [State.resettle_none h]
  | some b =>
    simp only [State.resettle, h]
    split <;> rfl

@[simp] theorem State.resettle_pending (s : State) (n t : Nat) : (s.resettle n t).pending = s.pending := by
  rw [State.resettle_frame]

/-- A read that is still to be made finds what stands in its cycle: R62. -/
theorem State.engineRead_ahead {s : State} {n t : Nat} {r : EngineRead} (h : r.past t = false) :
    s.engineRead n t r = s.viewRead n r.off r.len r.due r.into := by
  simp [State.engineRead, h]

end Sys2Proof.Machine
end

