-- ==== Sys2Proof/Laws/Memory.lean ====
section
/-!
SUPPORT. Memory: what a byte reads as after a write, and the canonical form that every write keeps.
-/

namespace Sys2Proof.Machine

theorem mget_filter (d : α) (m : List (Nat × α)) (p : Nat → Bool) (k : Nat) (h : p k = true) :
    mget d (m.filter (fun c => p c.1)) k = mget d m k := by
  induction m with
  | nil => rfl
  | cons c m ih =>
    obtain ⟨a, x⟩ := c
    by_cases e : a = k
    · subst e; simp [mget, h]
    · by_cases q : p a = true <;> simp [q, mget, e, ih]

theorem mget_append_of_ne (d : α) (m n : List (Nat × α)) (k : Nat) (h : ∀ c ∈ m, c.1 ≠ k) :
    mget d (m ++ n) k = mget d n k := by
  induction m with
  | nil => rfl
  | cons c m ih =>
    obtain ⟨a, x⟩ := c
    have h1 := h (a, x) (List.mem_cons_self ..)
    simp only [List.cons_append, mget, if_neg h1]
    exact ih (fun c hc => h c (List.mem_cons_of_mem _ hc))

theorem mget_append_of_all_ne (d : α) (m n : List (Nat × α)) (k : Nat) (h : ∀ c ∈ n, c.1 ≠ k) :
    mget d (m ++ n) k = mget d m k := by
  induction m with
  | nil =>
    simp only [List.nil_append, mget]
    induction n with
    | nil => rfl
    | cons c n ih =>
      obtain ⟨a, x⟩ := c
      have h1 := h (a, x) (List.mem_cons_self ..)
      simp only [mget, if_neg h1]
      exact ih (fun c hc => h c (List.mem_cons_of_mem _ hc))
  | cons c m ih =>
    obtain ⟨a, x⟩ := c
    simp only [List.cons_append, mget]
    split
    · rfl
    · exact ih

theorem cells_addr (a : Nat) (bs : List Byte) : ∀ c ∈ Memory.cells a bs, a ≤ c.1 ∧ c.1 < a + bs.length := by
  induction bs generalizing a with
  | nil => simp [Memory.cells]
  | cons b bs ih =>
    intro c hc
    simp only [Memory.cells] at hc
    split at hc
    · have := ih (a + 1) c hc
      simp only [List.length_cons]; omega
    · rcases List.mem_cons.1 hc with h | h
      · subst h; simp
      · have := ih (a + 1) c h
        simp only [List.length_cons]; omega

theorem mget_cells (a : Nat) (bs : List Byte) (k : Nat) (h : a ≤ k) :
    mget Memory.unwritten (Memory.cells a bs) k = bs.getD (k - a) Memory.unwritten := by
  induction bs generalizing a with
  | nil => simp [Memory.cells, mget]
  | cons b bs ih =>
    simp only [Memory.cells]
    by_cases e : k = a
    · subst e
      have hne : mget Memory.unwritten (Memory.cells (k + 1) bs) k = Memory.unwritten := by
        have := mget_append_of_ne Memory.unwritten (Memory.cells (k + 1) bs) [] k
          (fun c hc => by have := cells_addr (k + 1) bs c hc; omega)
        simpa [mget] using this
      split
      · next h0 => simp [hne, h0]
      · simp [mget]
    · have e2 : k - a = (k - (a + 1)) + 1 := by omega
      have ih' := ih (a + 1) (by omega)
      split
      · rw [ih', e2]; simp
      · simp only [mget, if_neg (Ne.symm e)]; rw [ih', e2]; simp

/-- Reading a byte after a write: the byte written inside the span, the old one outside. -/
theorem Memory.read_writeN (m : Memory) (a : Nat) (bs : List Byte) (k : Nat) :
    (m.writeN a bs).read k = if a ≤ k ∧ k < a + bs.length then bs.getD (k - a) Memory.unwritten else m.read k := by
  simp only [Memory.writeN, Memory.read]
  by_cases h1 : k < a
  · rw [mget_append_of_all_ne, mget_filter (p := fun x => decide (x < a)) (h := by simpa using h1), if_neg (by omega)]
    intro c hc
    rcases List.mem_append.1 hc with h | h
    · have := cells_addr a bs c h; omega
    · have := (List.mem_filter.1 h).2; simp at this; omega
  · rw [mget_append_of_ne _ _ _ _ (fun c hc => by have := (List.mem_filter.1 hc).2; simp at this; omega)]
    by_cases h2 : k < a + bs.length
    · rw [if_pos ⟨by omega, h2⟩, mget_append_of_all_ne, mget_cells _ _ _ (by omega)]
      intro c hc
      have := (List.mem_filter.1 hc).2; simp at this; omega
    · rw [if_neg (by omega), mget_append_of_ne _ _ _ _ (fun c hc => by have := cells_addr a bs c hc; omega),
        mget_filter (p := fun x => decide (a + bs.length ≤ x)) (h := by simpa using by omega)]

theorem cells_wf (a : Nat) (bs : List Byte) : Memory.wf (Memory.cells a bs) = true := by
  induction bs generalizing a with
  | nil => rfl
  | cons b bs ih =>
    simp only [Memory.cells]
    split
    · exact ih (a + 1)
    · next h =>
      have ih' := ih (a + 1)
      simp only [Memory.wf, Bool.and_eq_true, decide_eq_true_eq, List.pairwise_cons, List.all_cons, bne_iff_ne] at ih' ⊢
      refine ⟨⟨fun c hc => ?_, ih'.1⟩, h, ih'.2⟩
      have := cells_addr (a + 1) bs c hc
      show a < c.1
      omega

/-- Every write keeps the canonical form. -/
theorem Memory.wf_writeN (m : Memory) (a : Nat) (bs : List Byte) (h : m.wf = true) : (m.writeN a bs).wf = true := by
  have hc := cells_wf a bs
  have ha := cells_addr a bs
  simp only [Memory.wf, Bool.and_eq_true, decide_eq_true_eq, List.all_eq_true] at h hc
  rw [Memory.wf, Bool.and_eq_true, decide_eq_true_eq, List.all_eq_true, Memory.writeN]
  simp only [List.pairwise_append, List.mem_append]
  refine ⟨⟨h.1.filter _, ⟨hc.1, h.1.filter _, ?_⟩, ?_⟩, ?_⟩
  · intro c hc1 d hd
    have := ha c hc1
    have := (List.mem_filter.1 hd).2
    simp at this; omega
  · intro c hc1 d hd
    have h1 := (List.mem_filter.1 hc1).2
    simp at h1
    rcases hd with hd | hd
    · have := ha d hd; omega
    · have := (List.mem_filter.1 hd).2
      simp at this; omega
  · intro c hc1
    rcases hc1 with h1 | h1 | h1
    · exact h.2 c (List.mem_filter.1 h1).1
    · exact hc.2 c h1
    · exact h.2 c (List.mem_filter.1 h1).1

/-- Writing one byte keeps the canonical form. -/
theorem Memory.wf_write (m : Memory) (a : Nat) (b : Byte) (h : m.wf = true) : (m.write a b).wf = true :=
  Memory.wf_writeN m a [b] h

/-- Empty memory has the canonical form. -/
theorem Memory.wf_nil : Memory.wf [] = true := rfl

end Sys2Proof.Machine
end

