-- ==== Sys2Proof/Laws/Slot.lean ====
section
/-!
SUPPORT. What a slot command answers, said once: refused where its slot is reserved, else a next state with the queue as it was; its
action, where it issues at once.
-/

namespace Sys2Proof.Machine

/-- Reads that meet no stored error change nothing: R135. -/
theorem State.readWeak_clean {s : State} {n : Nat} {spans : List (Nat × Nat)}
    (h : s.readsClean n spans = true) : s.readWeak n spans = s := by
  have : spans.flatMap (fun x => (s.pcore n).weak.filter (fun w => (s.pcore n).wordMet w x.1 x.2)) = [] := by
    simp only [List.flatMap_eq_nil_iff, List.filter_eq_nil_iff]
    simp only [State.readsClean, List.all_eq_true, Bool.not_eq_true'] at h
    exact fun x hx w hw => by simp [h x hx w hw]
  simp [State.readWeak, this]

/-- A slot command that may issue acts at once, on the state in which its engine ports have counted the stored errors they read (R135). -/
theorem issueSlot_acts {s : State} {n : Nat} {i : Instr} {act : State → State} (h : s.mayIssue n i = true) :
    s.issueSlot n i act = act (s.readWeak n (s.portSpans n i)) := by
  simp only [State.mayIssue, Bool.and_eq_true, Bool.not_eq_true', Option.isNone_iff_eq_none] at h
  obtain ⟨⟨⟨⟨_, hf⟩, hg⟩, hh⟩, hb⟩ := h
  simp [State.issueSlot, hf, hg, hh, hb]

/-- A slot command that issues and reads no stored error does its action and nothing else. -/
theorem slotExec_issues {s : State} {core : CoreId} {i : Instr} {name : String} {act : State → State}
    (h : s.issuesNow core.toNat i = true) : s.slotExec core i name act = done s (act s) := by
  simp only [State.issuesNow, Bool.and_eq_true] at h
  obtain ⟨hm, hc⟩ := h
  have hw : i.wf = true := by simp only [State.mayIssue, Bool.and_eq_true] at hm; exact hm.1.1.1.1
  simp [State.slotExec, hw, issueSlot_acts hm, State.readWeak_clean hc]

/-- A short-path command that issues and reads no stored error does its action and nothing else. -/
theorem shortExec_issues {s : State} {b : BSlot} {i : Instr} {act : State → State} (h : s.issuesNow b.core.toNat i = true) :
    s.shortExec b i act = done s (act s) := by
  simp only [State.issuesNow, Bool.and_eq_true] at h
  obtain ⟨hm, hc⟩ := h
  have hw : i.wf = true := by simp only [State.mayIssue, Bool.and_eq_true] at hm; exact hm.1.1.1.1
  simp [State.shortExec, hw, issueSlot_acts hm, State.readWeak_clean hc]

/-- A short-path command with a reserved bit ends the task of a core that issues rows and is in no held turn, with rule 9 and its f field
(R9). -/
theorem shortExec_reserved {s : State} {b : BSlot} {i : Instr} {act : State → State} (h : i.wf = false)
    (hf : (s.core b.core.toNat).frozen = false) (hg : s.stalled b.core.toNat = false) :
    s.shortExec b i act = done s (s.programFault b.core.toNat 9 b.f.toNat) := by
  simp [State.shortExec, h, hf, hg]

/-- A slot command whose slot is an encoding the loader admits answers a next state. -/
theorem slotExec_wf {s : State} {core : CoreId} {i : Instr} {name : String} {act : State → State} (h : i.wf = true) :
    s.slotExec core i name act = done s (s.issueSlot core.toNat i act) := by
  simp [State.slotExec, h]

/-- A slot command whose slot is reserved is refused by name. -/
theorem slotExec_reserved {s : State} {core : CoreId} {i : Instr} {name : String} {act : State → State} (h : i.wf = false) :
    s.slotExec core i name act = .refused (.reservedEncoding name) := by
  simp [State.slotExec, h]

/-- Where the queue is already that of the state before, the answer is the state itself. -/
theorem done_eq {s t : State} (h : t.pending = s.pending) : done s t = .next t := by
  simp only [done, ← h]

end Sys2Proof.Machine
end

