-- ==== Sys2Proof/Machine/Pins.lean ====
section
/-!
DEFINITION. What the module shows at its connectors, as functions of the state: the signals of J2 in each state (R311, R440), the contacts
they lie on (R434), the fibres and wavelengths of the ports (R327, R439), and the signals of a cartridge bay (R441).
-/

namespace Sys2Proof.Machine

/-! ### The signals of J2 -/

/-- A group of signals: R311. -/
inductive PinGroup where
  | serviceTx | serviceRx | sgmiiTx | sgmiiRx | i3c | alert | present | pwrEn | modSlot | debugHeader
  deriving DecidableEq, Repr

/-- How a group behaves: R311. `floats` is high impedance; `floatsButBook` floats except the scorebook read pins, `bookByVref` floats with
the scorebook readable from 3.3 V applied. -/
inductive PinLevel where
  | driven | floats | terminated | highImpedance | drivenWhenAddressed | low | released | sampled | latched | ignored | floatsButBook
  | bookByVref
  deriving DecidableEq, Repr

/-- Whether the E domain is up, so that the service ports drive their lanes: R311, R397. -/
def State.eDomain (s : State) : Bool := s.boot.aux && s.power.state != .auxOnly && s.boot.rails == 8

/-- The behaviour of a group in the state the module is in: R311. -/
def State.pin (s : State) (g : PinGroup) : PinLevel :=
  let aux := s.boot.aux
  match g with
  | .serviceTx => if s.eDomain then .driven else .floats
  | .serviceRx => if s.eDomain then .terminated else .highImpedance
  | .sgmiiTx => if aux then .driven else .floats
  | .sgmiiRx => if aux then .terminated else .highImpedance
  | .i3c => if aux then .drivenWhenAddressed else .floats
  | .alert => if aux && s.alertLow then .low else .released
  | .present => .low
  | .pwrEn => if aux then .sampled else .ignored
  | .modSlot => if aux then .latched else .ignored
  | .debugHeader => if !aux then .bookByVref else if s.power.state = .auxOnly then .floatsButBook else .driven

/-- Whether the transmit fibre of a port carries light: R311, R440. -/
def State.lit (s : State) (p : Nat) : Bool :=
  s.power.state != .auxOnly && s.linksPowered && (match (s.port p).state with
    | .up | .train | .retrain => true
    | .unused | .down | .failed | .miswired => false)

/-! ### The contacts of J2 -/

/-- The rows of J2: R434. -/
inductive J2Row where
  | a | b | c | d | e | f | g | h | j | k
  deriving DecidableEq, Repr

/-- What a contact of J2 carries; `n` tells the N contact of a differential pair: R434. -/
inductive J2Net where
  | serviceTx (port lane : Nat) (n : Bool)
  | serviceRx (port lane : Nat) (n : Bool)
  | sgmiiTx (n : Bool) | sgmiiRx (n : Bool)
  | i3cScl | i3cSda | alert | pwrEn
  | modSlot (i : Nat)
  | dbgVref | dbgCs | dbgSck | dbgIo0 | dbgIo1 | dbgReq | dbgRdy | dbgUartTx | present | ground | unconnected
  deriving DecidableEq, Repr

/-- The service lane of a row at a column: lane by lane of port 0, then of port 1, three columns apart, P before N: R434. -/
def serviceLane (first col : Nat) : Option (Nat × Nat × Bool) :=
  let i := first + (col - 1) / 3
  if (col - 1) % 3 < 2 ∧ i < 8 then some (i / 4, i % 4, (col - 1) % 3 == 1) else none

/-- The contact of J2 at a row and column: R434. -/
def j2At (row : J2Row) (col : Nat) : J2Net :=
  let tx (first : Nat) : J2Net := (serviceLane first col).elim .ground (fun x => .serviceTx x.1 x.2.1 x.2.2)
  let rx (first : Nat) : J2Net := (serviceLane first col).elim .ground (fun x => .serviceRx x.1 x.2.1 x.2.2)
  match row with
  | .a => tx 0
  | .c => if col = 4 ∨ col = 5 then .sgmiiTx (col == 5) else tx 7
  | .e => rx 0
  | .g => if col = 4 ∨ col = 5 then .sgmiiRx (col == 5) else rx 7
  | .j =>
    if 6 ≤ col ∧ col ≤ 11 then .modSlot (col - 6)
    else match col with
      | 1 => .i3cScl
      | 2 => .i3cSda
      | 3 => .alert
      | 4 => .pwrEn
      | 13 => .dbgVref
      | 14 => .dbgCs
      | 15 => .dbgSck
      | 16 => .dbgIo0
      | 17 => .dbgIo1
      | 18 => .dbgReq
      | 19 => .dbgRdy
      | 20 => .dbgUartTx
      | _ => .ground
  | .k => if col = 20 then .present else .unconnected
  | .b | .d | .f | .h => .ground

/-! ### Fibres and wavelengths -/

/-- The optical engine of a port: R327. -/
def engineOf (port : Nat) : Nat := port / 6

/-- The receptacle Jm of a port: R327, R439. -/
def receptacleOf (port : Nat) : Nat := 3 + port / 6

/-- The port of a fibre position of receptacle Jm, and whether the fibre transmits: R439. -/
def fibreAt (m pos : Nat) : Option (Nat × Bool) :=
  if m < 3 ∨ 8 < m ∨ pos = 0 ∨ 12 < pos then none
  else if pos ≤ 6 then some (6 * (m - 3) + pos - 1, true)
  else some (6 * (m - 3) + (13 - pos) - 1, false)

/-- The centre frequency of a lane in GHz: R327. -/
def laneGHz (lane : Nat) : Nat := 191500 + 400 * lane

/-! ### A cartridge bay -/

/-- The LED of a bay: R441. -/
inductive Led where
  | off | on | blink1Hz | blink4Hz
  deriving DecidableEq, Repr

/-- The LED of a bay; none where a powered bay is not mounted, which R441 does not list: R441. -/
def Bay.led (y : Bay) : Option Led :=
  if y.drained ∧ y.cart.isSome then some .blink4Hz
  else if !y.powered then some .off
  else if y.target then some .blink1Hz
  else if y.mounted then some .on
  else none

/-- Whether a bay has its 12 V and 3.3 V: only in SERVE, IDLE and STANDBY (R441). -/
def State.baySupply (s : State) (b : Nat) : Bool := s.power.state != .auxOnly && (s.bay b).powered && !(s.bay b).pwrdis

end Sys2Proof.Machine
end

