-- ==== Sys2Proof/Tests/Slice0.lean ====
section
/-!
SUPPORT. Tests: rows written out from their fields; an ill-formed term for every check of WellFormed; for every statement with
hypotheses a concrete state and operands that meet them.
-/

namespace Sys2Proof.Tests

set_option Elab.async false

open Sys2Proof Sys2Proof.Machine Sys2Proof.Claim

/-! ### Small states -/

/-- The machine after reset with one core put in another condition. -/
def oneCore (k : Core) : State := withCore State.reset 0 k

/-- Scalar registers that point into AB (r4), PB (r8), the own window (r16), its AB (r17), the own tally 5 (r18) and HBM (r20). -/
def pointers : List (Nat × BitVec 64) :=
  [(4, 0x600000), (8, 0xA00000), (16, 0x10000000000), (17, 0x10000600000), (18, 0x10000F00028), (19, 0xFFFFFFFFFFFFFFFF), (20, 0x100000)]

/-- A core with those registers, all elements in reach of VL, and the given rest. -/
def base : Core := { s := pointers, sChk := pointers, vl := some 256, vlChk := some 256 }

/-- A DMA descriptor: 64 bytes from `src` to `dst`. -/
def descBytes (src dst cable : Nat) : List Byte :=
  leBytes 8 src ++ leBytes 8 dst ++ leBytes 4 64 ++ zeros 42 ++ leBytes 2 cable

/-- A cable header: load and store stages over a ring of two slots of 256 bytes. -/
def cableBytes : List Byte :=
  [9, 4, 0, 0] ++ leBytes 2 1 ++ zeros 6 ++ leBytes 2 2 ++ [5, 0] ++ leBytes 4 7 ++ zeros 4 ++
    leBytes 8 (0x610000 + 2 ^ 24 + 2 * 2 ^ 40) ++ zeros 32

/-- Buffers with a get descriptor, a put descriptor, a cable header with its descriptors, and a tile descriptor. -/
def buffers : Memory :=
  ((((Memory.writeN [] 0x601000 (descBytes 0 0x602000 0)).writeN 0x601040 (descBytes 0x602000 0x1000 0)).writeN 0x602000
    cableBytes).writeN 0x602040 (descBytes 0 0 1)).writeN 0x602080 (descBytes 0 0x1000 5)

/-- A state with that core and those buffers. -/
def ready : State := withPhys (oneCore base) 0 { mem := buffers }

/-- A tile descriptor: M = 16, K = 128, N = 512, INT4 by INT4, output mode 2. -/
def tileBytes : List Byte := leBytes 4 16 ++ leBytes 4 128 ++ leBytes 4 512 ++ [3, 3, 8, 0] ++ zeros 8 ++ leBytes 4 256 ++ zeros 36

/-- A running task of core 0. -/
def task1 : Task := { num := 1, session := 5, tag := 9, handle := 1, options := 0, input := [], seeds := zeros 64, p := 0, state := .running, coreSet := [0] }

/-! ### Fields -/

def cs (sd sa sb : BitVec 5) (x : BitVec 6) (imm : BitVec 32) : CSlot := { core := 0, sd := sd, sa := sa, sb := sb, x := x, imm := imm }
def ms (f : BitVec 64) : MSlot := { core := 0, xa := 4, wa := 0, pa := 0, ta := 0, f := f }
def md (f : BitVec 64) : MSlot := { core := 0, xa := 0, wa := 0, pa := 8, ta := 0, f := f }
def vs (ty : Nat) (vd va vb vc : BitVec 5) : VSlot :=
  { core := 0, pipe := false, vd := vd, va := va, vb := vb, vc := vc, mask := 0, maskEn := false, ab := 0, st := 0, f := BitVec.ofNat 38 ty }
def bs (src dst cnt : BitVec 5) (f : BitVec 32) : BSlot := { core := 0, src := src, dst := dst, cnt := cnt, f := f }
def ds (q : BitVec 2) (desc : BitVec 5) (f : BitVec 64) : DSlot := { core := 0, q := q, desc := desc, src := 0, dst := 0, f := f }

/-! ### Rows -/

/-- R20 to R24: the words of `RowWords` are read as their rows. -/
theorem test_row_words : Obligations.RowWords := by unfold Obligations.RowWords; decide +kernel

/-- R22: an encoded row gives its bits back. -/
theorem test_row_round_trip :
    decodeRow 0 (encodeRow { c := some (.sAdd (cs 1 2 3 0 0)), d := some (.dmaGet (ds 0 4 0x40)) }) =
      some { c := some (.sAdd (cs 1 2 3 0 0)), d := some (.dmaGet (ds 0 4 0x40)) } := by decide +kernel

/-! ### Ill-formed terms: what each check of WellFormed refuses -/

theorem test_wf_alu : (Instr.sAdd (cs 1 2 3 2 0)).wf = false ∧ (Instr.sAdd (cs 1 2 3 1 0)).wf = false ∧
    (Instr.sAdd (cs 1 2 3 0 1)).wf = false := by decide
theorem test_wf_moves : (Instr.sLi (cs 1 2 0 0 0)).wf = false ∧ (Instr.sLui (cs 1 2 3 0 0)).wf = false ∧
    (Instr.sLd (cs 1 4 3 0 0)).wf = false ∧ (Instr.sSt (cs 1 4 3 0 0)).wf = false := by decide
theorem test_wf_rdreg : (Instr.sRdreg (cs 1 0 0 0 2)).wf = false ∧ (Instr.sRdreg (cs 1 0 0 0 0x1000)).wf = false := by decide
theorem test_wf_control : (Instr.sbDef (cs 0 4 4 32 0)).wf = false ∧ (Instr.br (cs 0 0 0 0 0x1000)).wf = false ∧
    (Instr.brZ (cs 0 1 1 0 0)).wf = false ∧ (Instr.loopI (cs 0 0 0 0 5)).wf = false ∧ (Instr.loopR (cs 0 1 0 4 0)).wf = false := by decide
theorem test_wf_tally : (Instr.tallySig (cs 0 0 0 63 0)).wf = false ∧ (Instr.tallyWait (cs 0 0 1 0 0)).wf = false ∧
    (Instr.tallyTake (cs 0 0 0 0 1)).wf = false ∧ (Instr.bankFlip (cs 1 0 0 0 0)).wf = false ∧ (Instr.brk (cs 0 0 0 0 1)).wf = false ∧
    (Instr.taskEnd (cs 0 0 0 1 0)).wf = false := by decide
theorem test_wf_matrix : (Instr.mmPass (ms 0)).wf = false ∧ (Instr.mmDiag (ms 0xC04400)).wf = false ∧ (Instr.mmTile (ms 0x10000)).wf = false ∧
    (Instr.mmDrain (ms 0)).wf = false ∧ (Instr.mmMon (ms 0x100000000)).wf = false := by decide
theorem test_wf_vector_arith : (Instr.vAdd (vs 6 1 2 3 0)).wf = false ∧ (Instr.vAdd (vs 2 1 2 3 4)).wf = false ∧
    (Instr.vMul (vs 4 1 2 3 0)).wf = false ∧ (Instr.vFma (vs 2 1 2 3 4)).wf = false ∧ (Instr.vWfma (vs 0 1 2 3 4)).wf = false ∧
    (Instr.vAbs (vs 5 1 2 0 0)).wf = false ∧ (Instr.vAnd (vs 0 1 2 3 0)).wf = false ∧ (Instr.vPopc (vs 0 1 2 0 0)).wf = false ∧
    (Instr.vExp (vs 2 1 2 0 0)).wf = false := by decide
theorem test_wf_vector_shape : (Instr.vShl (vs 0 1 2 0 0)).wf = false ∧ (Instr.vIota (vs 4 1 0 0 0)).wf = false ∧
    (Instr.vSel (vs 2 1 2 3 0)).wf = false ∧ (Instr.vCeq (vs 2 8 2 3 0)).wf = false ∧ (Instr.mAnd (vs 0 1 8 3 0)).wf = false ∧
    (Instr.vCompress (vs 2 1 2 0 0)).wf = false := by decide
theorem test_wf_vector_convert : (Instr.vCvt (vs 0x20 1 2 3 4)).wf = false ∧ (Instr.vCvt (vs 0x11 1 2 3 0)).wf = false ∧
    (Instr.vCvtbs (vs 0 1 2 0 1)).wf = false := by decide
theorem test_wf_vector_rest : (Instr.vRedsum (vs 4 1 2 0 0)).wf = false ∧ (Instr.vSieve (vs 2 1 2 3 0)).wf = false ∧
    (Instr.vSinit (vs 2 1 0 0 0)).wf = false ∧ (Instr.vSetvl (vs 2 1 0 0 0)).wf = false ∧ (Instr.vGetvl (vs 2 0 0 0 0)).wf = false ∧
    (Instr.vLd (vs 9 1 0 0 0)).wf = false ∧ (Instr.vSt (vs 2 1 2 0 0)).wf = false := by decide
theorem test_wf_buffer_rows : (Instr.ribPut (bs 4 4 0 0)).wf = false ∧ (Instr.bMove (bs 4 4 1 0)).wf = false ∧ (Instr.spPut (bs 4 17 0 8)).wf = false ∧
    (Instr.spGet (bs 17 4 0 16)).wf = false ∧ (Instr.spSig (bs 1 18 0 0)).wf = false ∧ (Instr.spWord (bs 0 17 1 1)).wf = false ∧
    (Instr.fifoPush (bs 0 0 1 0)).wf = false ∧ (Instr.fifoPop (bs 0 1 0 5) true).wf = false ∧ (Instr.fifoStat (bs 0 1 1 0)).wf = false := by decide
theorem test_wf_descriptor_rows : (Instr.dmaGet { ds 0 4 0 with src := 1 }).wf = false ∧ (Instr.dmaPut { ds 0 4 0 with dst := 1 }).wf = false ∧
    (Instr.strandSend (ds 1 0 0)).wf = false ∧ (Instr.cableRun (ds 1 4 0)).wf = false := by decide
theorem test_wf_events : (Instr.flitReceive 0 [] {}).wf = false ∧ (Instr.windowEnd 0 65).wf = false ∧ (Instr.eyeCheck 0 [] []).wf = false ∧
    (Instr.swapReq 0 8 0).wf = false ∧ (Instr.voltageSettled 0 31).wf = false ∧ (Instr.unitRequest 846 0 false 0).wf = false ∧
    (Instr.stagedSet [[]]).wf = false ∧ (Instr.sbRead 0 0).wf = false ∧ (Instr.fifoDataWrite 0 5 0).wf = false ∧
    (Instr.configFormation true [{ module := 0, side := false }]).wf = false ∧ (Instr.scrubRead 0 { buffer := .wb, bank := 512, line := 0 } .clean (.good true)).wf = false := by decide

/-! ### What meets the hypotheses of the statements on slots -/

/-- CommandsKeepTheQueue. -/
theorem wit_commands_keep_the_queue : ∃ t, exec .gtLoRead State.reset = .next t := ⟨_, rfl⟩
/-- ScalarRows. -/
theorem wit_scalar_rows : ready.issuesNow 0 (.sAdd (cs 1 2 3 0 0)) = true ∧ ready.issuesNow 0 (.sMul (cs 0 2 0 1 0xFFFFFFFF)) = true ∧
    ready.issuesNow 0 (.sSra (cs 31 19 0 1 64)) = true ∧ ready.issuesNow 0 (.sLi (cs 1 0 0 0 0xA0000000)) = true ∧
    ready.issuesNow 0 (.sLui (cs 1 2 0 0 1)) = true ∧ ready.issuesNow 0 (.sRdreg (cs 1 0 0 0 0x10)) = true ∧
    ready.issuesNow 0 (.sLd (cs 1 4 0 0 0x3FFFF8)) = true ∧ ready.issuesNow 0 (.sSt (cs 0 4 19 0 0)) = true := by decide +kernel
/-- BranchesAndLoops: both conditions of each. -/
theorem wit_branches_and_loops : ready.issuesNow 0 (.br (cs 0 0 0 0 4095)) = true ∧ ready.issuesNow 0 (.brZ (cs 0 1 0 0 7)) = true ∧
    base.readChk 1 = 0 ∧ base.readChk 4 ≠ 0 ∧ ready.issuesNow 0 (.brNz (cs 0 4 0 0 7)) = true ∧ ready.issuesNow 0 (.brNeg (cs 0 19 0 0 7)) = true ∧
    (base.readChk 19).toInt < 0 ∧ ready.issuesNow 0 (.loopI (cs 0 0 0 3 0x1005)) = true ∧ ready.issuesNow 0 (.loopR (cs 0 4 0 0 5)) = true ∧
    ready.issuesNow 0 (.loopR (cs 0 0 0 0 5)) = true := by decide +kernel
/-- ControlRows. -/
theorem wit_control_rows : ready.issuesNow 0 (.sbDef (cs 0 4 8 31 0)) = true ∧ ready.issuesNow 0 (.taskEnd (cs 0 0 0 0 0)) = true ∧
    (cs 1 2 3 0 0).wfAlu = true := by decide +kernel
/-- TallyRows: the own unit, another core's, and outstanding writes; a wait met, a take granted, a bank ready. -/
theorem wit_tally_rows :
    (ready.issuesNow 0 (.tallySig (cs 0 0 1 62 1)) = true ∧ ready.outbound 0 0 = [] ∧ ownerOf (cs 0 0 1 62 1) = 0 ∧
      ownerOf (cs 31 0 1 62 1) ≠ 0) ∧
    (let s := oneCore { base with short := [{ id := 1, kind := 8, remote := 0x10001600000, loc := 0, len := 8 }] }
     s.issuesNow 0 (.tallySig (cs 0 0 1 0 0x60000000)) = true ∧ s.outbound 0 1 ≠ []) ∧
    ready.issuesNow 0 (.tallyWait (cs 0 0 0 62 0)) = true ∧
    (oneCore { base with tallies := [(3, 1)] }).issuesNow 0 (.tallyTake (cs 0 0 0 3 0)) = true ∧
    (oneCore { base with tallies := [(63, 1)] }).issuesNow 0 (.bankFlip (cs 0 0 0 0 9)) = true := by decide +kernel
/-- HoldConditions: a full FIFO; a breakpoint; a wait not met; a take not granted. -/
theorem wit_hold_conditions :
    (slotCore (.fifoPush (bs 0 0 1 1)) = some 0 ∧ (Instr.fifoPush (bs 0 0 1 1)).wf = true ∧ base.frozen = false ∧ base.inGang = false ∧
      ready.stalled 0 = false ∧ ready.debugOf 0 = none ∧ base.tallyReq (.fifoPush (bs 0 0 1 1)) = none ∧ ready.rowHolds 0 { row := [.fifoPush (bs 0 0 1 1)] } ≠ []) ∧
    ((Instr.brk (cs 0 0 0 0 0)).wf = true ∧ ready.draining 0 = false) ∧
    ((Instr.tallyWait (cs 0 0 0 62 1)).wf = true ∧ base.stepLeft ≠ some 0 ∧ ownerOf (cs 0 0 0 62 1) = 0 ∧
      (mget 0 base.tallies 62 - targetOf (cs 0 0 0 62 1) base).toInt < 0) ∧
    (Instr.tallyTake (cs 0 0 0 62 0)).wf = true ∧ (mget (0 : BitVec 32) base.tallies 62).toInt < 1 := by decide +kernel
/-- BreachEndsTheTask: a load outside the buffers. -/
theorem wit_breach_ends_the_task :
    let s : State := { oneCore { base with task := some 1, phase := .running } with tasks := [task1] }
    slotCore (.sLd (cs 1 16 0 0 0)) = some 0 ∧ (Instr.sLd (cs 1 16 0 0 0)).wf = true ∧ (s.core 0).frozen = false ∧
      s.stalled 0 = false ∧ s.rowHolds 0 { row := [.sLd (cs 1 16 0 0 0)] } = [] ∧ s.slotBreach 0 (.sLd (cs 1 16 0 0 0)) = some (24, 0x10000000000) ∧
      s.lostTwinAccess 0 0x10000000000 = false ∧ (s.task 1).isSome = true ∧ 1 ∈ s.batchOf 1 := by decide +kernel
/-- ReservedSlotsAreRefused. -/
theorem wit_reserved_slots : slotCore (.sAdd (cs 1 2 3 2 0)) = some 0 ∧ (Instr.sAdd (cs 1 2 3 2 0)).wf = false := by decide +kernel
/-- PassResult: a block format with its exponents, and a diagonal. -/
theorem wit_pass_result :
    let p : Plane := { fmt := 1, diag := true, bytes := [] }
    let q : PassIn := { plane := some p, xFmt := 8, shift8 := true, cols := 512, rows := [(List.replicate 128 3, [0, 1, 2, 3])] }
    q.plane = some p ∧ q.rows[0]? = some (List.replicate 128 3, [0, 1, 2, 3]) ∧ isBS q.xFmt = true ∧ q.cols ≤ 512 := by decide +kernel
/-- MatrixPasses: a pass and a diagonal on an engine that has done nothing. -/
theorem wit_matrix_passes : ready.issuesNow 0 (.mmPass (ms 0x4400)) = true ∧ ready.issuesNow 0 (.mmDiag (ms 0xFF004400)) = true ∧ (ms 0x4400).xCb = false ∧
    base.pipe = [] ∧ base.mx = {} ∧ (ms 0x4400).keepS = false := by decide +kernel
/-- R60, R62, R77: a diagonal's S bytes are read in cycles 0 to 15 after its issue and its X row in cycle 22; bytes that stand there from cycle
10 on count from the tenth byte of S on, and not at all once everything has been read. -/
theorem test_late_read :
    (match exec (.mmDiag (ms 0x4400)) ready with
     | .next t =>
       let u := withPhys t 0 { t.pcore 0 with mem := (Memory.writeN [] 0 (List.replicate 16 0xFF)).writeN 0x600000 (List.replicate 16 0xFF) }
       let v := u.resettle 0 10
       [accAt (t.pcore 0) 0 80, accAt (v.pcore 0) 0 79, accAt (v.pcore 0) 0 80, accAt (v.pcore 0) 0 127, accAt ((u.resettle 0 23).pcore 0) 0 127]
     | _ => []) = [0, 0, 1, 1, 0] := by decide +kernel
/-- DrainAndTile: every output mode, with and without clearing; a tile descriptor of one pass. -/
theorem wit_drain_and_tile :
    ready.issuesNow 0 (.mmDrain (md 0)) = true ∧ (md 0).out = 0 ∧ (md 0).bits 18 18 = 0 ∧ (md 0).bits 19 19 = 0 ∧
      (ready.issuesNow 0 (.mmDrain (md 0x10000)) = true ∧ (md 0x10000).out = 1 ∧ 4096 ≤ (md 0x10000).oStride ∧ base.inGang = false ∧
        base.pipe = []) ∧
      ready.issuesNow 0 (.mmDrain { md 0xA0000 with pa := 4 }) = true ∧ (md 0xA0000).out = 2 ∧ (md 0xA0000).bits 19 19 = 1 ∧
      (withPhys (oneCore base) 0 { mem := Memory.writeN [] 0x600000 tileBytes }).issuesNow 0 (.mmTile { ms 0 with pa := 4, ta := 4 }) = true := by
  decide +kernel
/-- MonitorAndEngineEvents: the store, with and without work of the engine; a sequence due, its end, and none; an output done, and none. -/
theorem wit_monitor_and_engine_events :
    (ready.issuesNow 0 (.mmMon (ms 0)) = true ∧ base.mx.work = []) ∧
    (let s := withPhys (oneCore { base with mx := { work := [{ id := 3, doneAt := 9, output := false }] } }) 0 { mem := buffers }
     s.issuesNow 0 (.mmMon (ms 0)) = true ∧ (s.core 0).mx.work ≠ []) ∧
    (let u : Rescale := { due := 0, entries := [4], rounds := [1], passes := 1 }
     let w : MWork := { id := 3, doneAt := 9, output := false, rescales := [u] }
     let l : Late := { cause := 0xC, detail := 0, after := 0, left := 0, clear := false }
     (oneCore { base with mx := { work := [w] } }).rescaleDue 0 = some (w, u) ∧ (oneCore base).rescaleDue 0 = none ∧
       l.cause = 0xC ∧ l.after = 0 ∧ l.clear = false ∧ l.left = 0 ∧
       (let s := oneCore { base with phase := .running, late := [l] }
        s.lateIn 0 = true ∧ s.mayPass 0 = false) ∧
       (let s := oneCore { base with phase := .running, late := [{ l with left := 5 }] }
        s.lateIn 0 = true ∧ s.mayPass 0 = true ∧ (s.heldCycle 0 []).isSome = true)) ∧
    (let w : MWork := { id := 3, doneAt := 0, output := true, ranges := [2] }
     [w].find? (fun w => w.output && (decide (w.doneAt ≤ now State.reset 0) || Phase.idle == Phase.ended)) = some w ∧
       [w].find? (fun w => w.output && (decide (w.doneAt ≤ now State.reset 0) || Phase.idle == Phase.ended)) ≠ none ∧
       base.mx.work.find? (fun w => w.output && (decide (w.doneAt ≤ now State.reset 0) || base.phase == .ended)) = none) := by decide +kernel

/-- Each operation of a vector rule issues in the state `ready`. -/
def issue (i : Instr) : Bool := ready.issuesNow 0 i

/-- VectorFrame, VectorIntegers: every operation at a type it takes, with a mask and without. -/
theorem wit_vector_integers :
    issue (.vAdd (vs 2 1 2 3 0)) = true ∧ issue (.vSub { vs 5 31 1 1 0 with maskEn := true, mask := 7 }) = true ∧ issue (.vMul (vs 3 1 2 3 0)) = true ∧
      issue (.vMin (vs 4 1 2 3 0)) = true ∧ issue (.vMax (vs 5 1 2 3 0)) = true ∧ issue (.vAbs (vs 4 1 2 0 0)) = true ∧
      issue (.vNeg (vs 2 1 2 0 0)) = true ∧ issue (.vAnd (vs 2 1 2 3 0)) = true ∧ issue (.vOr (vs 3 1 2 3 0)) = true ∧
      issue (.vXor (vs 4 1 2 3 0)) = true ∧ issue (.vShl (vs 0x7C002 1 2 0 0)) = true ∧ issue (.vShr (vs 0x1002 1 2 3 0)) = true ∧
      issue (.vSra (vs 3 1 2 0 0)) = true ∧ issue (.vPopc (vs 2 1 2 0 0)) = true ∧ issue (.vIota (vs 3 1 0 0 0)) = true ∧
      (intRule (.vIota (vs 3 1 0 0 0)) (vs 3 1 0 0 0)).isSome = true := by decide +kernel
/-- FloatRows: every operation at a float type; the codes of a NaN, the infinities, zero, and a finite number. -/
theorem wit_float_rows :
    (∀ i ∈ [Instr.vAdd (vs 0 1 2 3 0), .vSub (vs 1 1 2 3 0), .vMul (vs 0 1 2 3 0), .vFma (vs 1 1 2 3 4), .vFnma (vs 0 1 2 3 4),
            .vMin (vs 0 1 2 3 0), .vMax (vs 1 1 2 3 0), .vAbs (vs 0 1 2 0 0), .vNeg (vs 1 1 2 0 0), .vExp (vs 0 1 2 0 0),
            .vLog (vs 1 1 2 0 0), .vRcp (vs 0 1 2 0 0), .vRsqrt (vs 0 1 2 0 0), .vTanh (vs 1 1 2 0 0), .vErf (vs 0 1 2 0 0)],
      issue i = true ∧ (floatRule i b32).isSome = true ∧ (floatRule i bf16).isSome = true) ∧
    b32.isNan 0x7FC00000 = true ∧ b32.infBits = 0x7F800000 ∧ b32.value 0x3F800000 = .fin false (2 ^ 23) (-23) := by decide +kernel
/-- VectorMasks, LengthAndSelection. -/
theorem wit_vector_masks_and_lengths :
    issue (.vCeq (vs 0 7 2 3 0)) = true ∧ issue (.vClt (vs 5 1 2 3 0)) = true ∧ issue (.vCle (vs 1 1 2 3 0)) = true ∧ issue (.mAnd (vs 0 7 1 2 0)) = true ∧
      issue (.mOr (vs 0 7 1 2 0)) = true ∧ issue (.mXor (vs 0 7 1 2 0)) = true ∧ issue (.mAndn (vs 0 7 1 2 0)) = true ∧
      issue (.vSetvl (vs 0x80002 0 0 0 0)) = true ∧ issue (.vGetvl (vs 0x80000 0 0 0 0)) = true ∧ issue (.vSel { vs 4 1 2 3 0 with maskEn := true }) = true ∧
      issue (.vCompress { vs 2 1 2 0 0 with maskEn := true }) = true ∧ issue (.vExpand { vs 2 1 2 0 0 with maskEn := true }) = true := by decide +kernel
/-- VectorMemory, ConversionsAndBlocks: the four forms of a load, the two of a store; conversions to and from binary32; a block. -/
theorem wit_vector_memory_and_conversions :
    issue (.vLd { vs 2 1 0 0 0 with ab := 4 }) = true ∧ issue (.vLd { vs 0x4004 1 0 0 0 with ab := 4, st := 1 }) = true ∧
      issue (.vLd { vs 0xC002 1 0 0 0 with ab := 4 }) = true ∧ issue (.vSt { vs 2 0 2 0 0 with ab := 4 }) = true ∧
      issue (.vSt { vs 0x4003 0 2 0 0 with ab := 4, st := 1 }) = true ∧ issue (.vCvt (vs 0x10 1 2 0 0)) = true ∧ issue (.vCvt (vs 0x340 1 2 3 0)) = true ∧
      issue (.vCvt (vs 0x1002 1 2 0 0)) = true ∧ issue (.vCvtbs (vs 0x20000 1 2 0 4)) = true := by decide +kernel
/-- ReductionsAndSieve. -/
theorem wit_reductions_and_sieve :
    issue (.vRedsum (vs 2 1 2 0 0)) = true ∧ issue (.vRedmax (vs 3 1 2 0 0)) = true ∧ issue (.vRedmin (vs 2 1 2 0 0)) = true ∧
      issue (.vRedsum (vs 0 1 2 0 0)) = true ∧ issue (.vSieve (vs 0xFC002 4 2 3 0)) = true ∧ issue (.vSinit (vs 2 6 0 0 0)) = true := by decide +kernel
/-- WideningAndBlockRows: both halves of a widening multiply-add; conversions of blocks to the least and the widest container. -/
theorem wit_widening_and_block_rows :
    (∀ v ∈ [vs 1 1 2 3 4, { vs 1 1 2 3 4 with maskEn := true, mask := 7 }], issue (.vWfma v) = true) ∧
      issue (.vCvtbs (vs 0x20000 1 2 0 4)) = true := by decide +kernel
/-- The number of a finite code of binary32. -/
theorem real_of_code (w m : Nat) (e : Int) (h : b32.value w = .fin false m e) : realOf b32 w = some ((m : ℚ) * (2 : ℚ) ^ e) := by
  simp [realOf, h]
/-- ConversionsAndBlocks: a list of 32 whose first value is the largest, finite and not 0: 1.0, and one whose exponent rises: all ones. -/
theorem wit_block_scaling :
    (∀ x ∈ [0x3F800000, 0x3FFFFFFF], (x :: List.replicate 31 0).length = 32 ∧ 8 ∈ [4, 6, 8, 12, 16]) ∧
      realOf b32 0x3F800000 = some ((2 ^ 23 : Nat) * (2 : ℚ) ^ (-23 : Int)) ∧ realOf b32 0x3FFFFFFF = some ((0xFFFFFF : Nat) * (2 : ℚ) ^ (-23 : Int)) ∧
      realOf b32 0 = some ((0 : Nat) * (2 : ℚ) ^ (-149 : Int)) ∧ b32.value 0x7F800000 = .inf false ∧ b32.isNan 0x7FC00000 = true := by
  refine ⟨by decide, real_of_code _ _ _ (by decide +kernel), real_of_code _ _ _ (by decide +kernel), real_of_code _ _ _ (by decide +kernel),
    by decide +kernel, by decide +kernel⟩
/-- BufferRows: rib puts to each neighbour and on a full ring; the short path near and far, outstanding or not; a move. -/
theorem wit_buffer_rows :
    (let s := oneCore { base with inGang := true, gangPos := 1, gangLast := 2 }
     s.issuesNow 0 (.ribPut (bs 4 4 1 0)) = true ∧ s.issuesNow 0 (.ribPut (bs 4 4 2 0)) = true ∧ s.issuesNow 0 (.ribPut (bs 4 4 3 0)) = true) ∧
    (oneCore { base with inGang := true, gangPos := 0, gangLast := 31 }).issuesNow 0 (.ribPut (bs 4 4 1 0)) = true ∧
    issue (.spPut (bs 4 17 0 7)) = true ∧ ready.place 0 0x10000600000 ≠ .remote ∧ issue (.spWord (bs 0 17 1 0)) = true ∧
    issue (.spGet (bs 17 4 0 15)) = true ∧ base.combine = [] ∧ issue (.spSig (bs 0 18 1 0x30)) = true ∧ ready.outbound 0 3 = [] ∧
    (oneCore { base with short := [{ id := 1, kind := 8, remote := 0x10000600000, loc := 0, len := 8 }] }).outbound 0 3 ≠ [] ∧
    issue (.bMove (bs 4 8 0 7)) = true := by decide +kernel
/-- FifoRows: a credit; an empty FIFO; a word of the firmware, of another core, and of bad parity; the firmware's write. -/
theorem wit_fifo_rows :
    (oneCore { base with fifos := [(1, { writer := some 0, credits := 1 })] }).issuesNow 0 (.fifoPush (bs 0 0 1 1)) = true ∧
      issue (.fifoPop (bs 0 1 0 4) true) = true ∧
      (∀ q ∈ [({ words := [7], parity := [wordParity 7] } : Fifo), { words := [7], parity := [!wordParity 7], writer := some 3 }],
        let s := oneCore { base with fifos := [(0, q), (2, q)] }
        s.issuesNow 0 (.fifoPop (bs 0 1 0 0) true) = true ∧ s.issuesNow 0 (.fifoPop (bs 0 1 0 2) true) = true ∧
          s.issuesNow 0 (.fifoPop (bs 0 1 0 2) false) = true ∧ s.issuesNow 0 (.fifoStat (bs 0 1 0 0)) = true) ∧
      (∀ p, [wordParity 7].head? = some p → p = wordParity 7) ∧ [!wordParity 7].head? ≠ some (wordParity 7) ∧
      ({ words := List.replicate 32 0 } : Fifo).words.length = 32 := by
  decide +kernel
/-- DescriptorRows. -/
theorem wit_descriptor_rows :
    issue (.dmaGet (ds 0 4 0x40)) = true ∧ issue (.dmaPut (ds 1 4 0x41)) = true ∧ issue (.cableRun (ds 0 4 0x80)) = true ∧
      (let s := oneCore { base with sends := [(2, { enable := true, tModule := 0, tCore := 255, tSkein := 15 })] }
       let d : DSlot := { ds 0 0 0x20000 with src := 4 }
       let e : SendEp := mget {} (s.core 0).sends d.ep
       s.issuesNow 0 (.strandSend d) = true ∧ e.tModule = s.config.module ∧ e.tCore < 256 ∧ e.tSkein < 16) := by decide +kernel

/-! ### What meets the hypotheses of the statements on events of a core -/

/-- A transaction of a short-path operation of core 0. -/
def shortTxn (kind : TxKind) (dst : Nat) : Txn := { id := 3, kind := kind, core := 0, dst := dst, len := 8, data := leBytes 8 5, origin := .short 0 7, loc := 0x600000 }

/-- A state with that core and one transaction in flight. -/
def flying (k : Core) (x : Txn) : State := { oneCore k with flight := [x] }

/-- After reset no address is another module's. -/
theorem reset_place_near (k : Core) (a : Nat) : (oneCore k).place 0 a ≠ .remote := by
  have h : ∀ b, localPlace b ≠ .remote := by intro b; simp only [localPlace]; split <;> [simp; split <;> simp]
  simp only [State.place]
  split
  · exact h a
  · have e : (oneCore k).config.n = 0 := rfl
    rw [e]; simp

/-- A get and a put of one burst each, and a queue that holds them. -/
def entry (get : Bool) : DEntry := { id := 4, isGet := get, desc := { src := if get then 0 else 0x600000, dst := if get then 0x600000 else 0, len0 := 64 } }

/-- A put of one transposed block of 128 × 128 bytes, which counts the bursts of the block. -/
def transposed : DEntry := { id := 4, isGet := false, desc := { src := 0x600000, len0 := 128, n1 := 128, srcS := [128, 0, 0], transpose := true } }

/-- DmaAndShortPathFlow: a burst of a get, of a put and of a transposed block, below and at the limits; a descriptor that is not landed and
one that is; a delivery of each kind; a burst that lands. -/
theorem wit_dma_and_short_path_flow :
    (∀ e ∈ [entry true, entry false, transposed], let s := oneCore { base with queues := [(0, [e])] }
      [e].find? (fun e => decide (e.sent < e.desc.bursts.length)) = some e ∧ e.desc.bursts[0]?.isSome = true ∧
      s.qBursts 0 0 < 256 ∧ s.landingUsed 0 < 64 ∧ base.combine = [] ∧ e.desc.sigEn = false) ∧
    (let reads (k : Nat) : State := { oneCore base with flight := List.replicate k { id := 9, kind := .readReq, origin := .dma 0 0 4 } }
     (reads 256).qBursts 0 0 = 256 ∧ 64 ≤ (reads 64).landingUsed 0) ∧
    ((entry true).landed ≠ (entry true).desc.bursts.length ∧ ({ entry true with landed := 1 }).landed = (entry true).desc.bursts.length ∧
      (entry true).covers = [] ∧ (entry true).counted = false ∧ (entry true).isGet = true) ∧
    ([({ id := 7, kind := 9, remote := 0, loc := 0x600000, len := 8, done := true } : ShortOp)].find? (fun o => o.id == 7)).isSome = true ∧
    ((({ base with queues := [(0, [entry true])] } : Core).queues.flatMap (fun q => q.2)).find? (fun e => e.id == 4)) = some (entry true) ∧
    (let s := flying base (shortTxn .landing 0)
     s.txn 3 = some (shortTxn .landing 0) ∧ s.shortBlocked 0 7 = false) := by decide +kernel
/-- CommandsComplete: slots that issue; events whose number is known, and one that names none; numbers that nothing bears. -/
theorem wit_commands_complete :
    (slotCore (.sAdd (cs 1 2 3 0 0)) = some 0 ∧ ready.issuesNow 0 (.sAdd (cs 1 2 3 0 0)) = true) ∧
    (slotCore (.readReq 3) = none ∧ ((flying base (shortTxn .readReq 0)).txn 3).isSome = true) ∧
    (State.reset.txn 1 = none ∧ base.short.find? (fun o => o.id == 1) = none ∧
      (base.queues.flatMap (fun q => q.2)).find? (fun e => e.id == 1) = none) ∧
    (slotCore .heartbeat = none ∧ (∀ core e ports, Instr.heartbeat ≠ .issueCycle core e ports) ∧ (∀ core k, Instr.heartbeat ≠ .heldTurnEnd core k) ∧
      named State.reset .heartbeat) :=
  ⟨by decide +kernel, by decide +kernel, by decide +kernel, ⟨rfl, fun _ _ _ h => Instr.noConfusion h, fun _ _ h => Instr.noConfusion h, trivial⟩⟩
/-- HomesAndAnswers: a read of HBM, its answer, a write to HBM and to a window, an acknowledgement, an add, a granted take, a release. -/
theorem wit_homes_and_answers :
    (let s := flying base (shortTxn .readReq 0)
     s.txn 3 = some (shortTxn .readReq 0) ∧ (shortTxn .readReq 0).follows = none ∧ s.shortBlocked 0 7 = false ∧ s.place 0 0 = .hbm 0 ∧
       s.hbmWaits 0 8 = false ∧ s.accessBreach 0 0 8 false = none) ∧
    (let s := flying base (shortTxn .write 0x10000600000)
     s.readIndexTarget (shortTxn .write 0x10000600000) = none ∧ (shortTxn .write 0).port = none ∧ s.accessBreach 0 0x10000600000 8 true = none ∧
       s.place 0 0x10000600000 = .win 0 0x600000 ∧ s.fenced 0 = false ∧ 0x600000 + 8 ≤ 0xC00000 ∧ s.hbmShut 0 = false ∧
       s.accessBreach 0 0 8 true = none) ∧
    (let x : Txn := { shortTxn .tallyAdd 0x10000F00028 with origin := .release 0 0 }
     let s := flying base x
     s.txn 3 = some x ∧ tallyAt (s.place 0 0x10000F00028) = some (0, 5) ∧ s.addBreach 0 0 = false ∧ base.reqs = [] ∧ x.port = none) ∧
    (let h : Held := { cause := 8, detail := 3, tag := 0, row := [.tallyTake (cs 0 0 0 3 0)], granted := true }
     h.granted = true ∧ h.arrived = false ∧ h.row = [.tallyTake (cs 0 0 0 3 0)]) ∧
    (let r : Release := { id := 2, addr := 0x10001F00028, value := 1, waits := [], origin := .release 0 0 }
     (oneCore base).flight = [] ∧ (shortTxn .write 0).unsent = false ∧ [r].find? (fun r => r.waits.isEmpty) = some r ∧ r.origin.core? = some 0 ∧ (oneCore base).place 0 r.addr ≠ .remote ∧ tallyAt ((oneCore base).place 0 r.addr) = some (1, 5)) := by
  decide +kernel
/-- StrandAndCableFlow: a request, a grant with and without a wrap, a full ring, an index, a message written, data; a stage that waits, one
that starts, a cable that ends. -/
theorem wit_strand_and_cable_flow :
    (let x : Txn := { id := 3, kind := .strandReq, core := 0, dst := 0x10000F10000, len := 64, origin := .strand 0 0 9 }
     let s := flying base x
     s.txn 3 = some x ∧ x.origin ≠ .outside ∧ x.port = none ∧ s.place 0 x.dst = .win 0 0xF10000 ∧ ∀ y ∈ s.flight, y.kind = .strandReq → 3 ≤ y.id) ∧
    (let k : Skein := { base := 0x600000, log2 := 10, enable := true, alloc := 960, used := 0, reqs := [⟨0, 0, 0, 2⟩] }
     (State.reset.pcore 0).weak = [] ∧ k.alloc ≤ 2 ^ k.log2 ∧ k.used + (64 + 128) ≤ 2 ^ k.log2 ∧ 2 ^ k.log2 < 1000 + (64 + 128)) ∧
    (let g : Grant := { req := ⟨0, 0, 0, 1⟩, pos := 960, wrapAt := none, left := 0 }
     g.left = 0 ∧ g.pos + 64 * g.req.g = 2 ^ 10) ∧
    (let m : Msg := { id := 9, g := 1, endMark := true, tag := 0, seq := 0, payload := 0x600000, sig := none, unacked := some 0 }
     m.unacked = some 0 ∧ m.sig = none) ∧
    (let x : Txn := { id := 3, kind := .strandData, core := 0, dst := 0x10000600000, data := zeros 64, origin := .strand 0 0 9 }
     (flying base x).place 0 x.dst = .win 0 0x600000 ∧ (flying base x).fenced 0 = false) ∧
    (let k : Cable := { stages := 9, load := { len0 := 64 }, store := { len0 := 64 }, ringA := { base := 0x600000, slot := 256, slots := 2 } }
     k.stageDone 0 = false ∧ k.canStart 0 = true ∧ k.stageDone 3 = false ∧ k.canStart 3 = false ∧ k.waiting.testBit 3 = false ∧
       (∀ i < 4, ({ k with loadU := 1, stoU := 1 } : Cable).stageDone i = true) ∧ k.unacked = 0 ∧ k.toStore = [] ∧ k.covers = [] ∧ k.epiPipe = [] ∧ base.lent = 0 ∧
       (oneCore base).cableLoads 0 = false ∧
       k.doneTally < 63) := by decide +kernel
/-- IssueTurns: an empty row that issues while one passes, with nothing on its way and with results, and while one holds for its pips; a
held row that passes and one that does not, with and without a row behind it; a slot that goes on; cores that issue no row. -/
theorem wit_issue_turns :
    (let k : Checked := { row := [] }
     let behind : List (Option Checked) := [some k, none, some k]
     let c : Core := { base with phase := .running, skid := some k :: behind }
     (∀ ps ∈ [([] : List Pend), [⟨1, .sreg 3 7⟩], [⟨1, .vreg 3 1 1⟩]], let s := oneCore { c with pipe := ps }
      c.inGang = false ∧ s.debugOf 0 = none ∧ c.late = [] ∧ s.rescaleDue 0 = none ∧ c.fetchEnd = false ∧ c.held = none ∧ behind.length = 3 ∧
        k.breach = none ∧ (s.pcore 0).weak = [] ∧ s.fetchRow 0 = some {} ∧ s.rowHolds 0 { row := [], pips := 0 } = []) ∧
     (let s := withPhys (oneCore c) 0 { imem := [(0, 9)] }
      s.fetchRow 0 = some { pips := 9 } ∧ s.rowHolds 0 { row := [], pips := 9 } = [(0xA, 0)])) ∧
    (let h : Held := { cause := 0xA, detail := 0, tag := 0, row := [], pips := 9, fetched := true }
     let k : Checked := { row := [] }
     ∀ ks ∈ [[some k, none, none], [none, none, (none : Option Checked)]],
      let c : Core := { base with phase := .running, held := some h, skid := none :: ks }
      ks.length = 3 ∧ (oneCore { c with allot := 9 }).rowHolds 0 { row := [], pips := 9 } = [] ∧
       (oneCore c).rowHolds 0 { row := [], pips := 9 } ≠ [] ∧ (oneCore c).rescaleDue 0 = none ∧ (oneCore c).debugOf 0 = none) ∧
    (let h : Held := { cause := 8, detail := 3, tag := 0, row := [.tallyTake (cs 0 0 0 3 0)], granted := true, arrived := true }
     let s := oneCore { base with held := some h }
     base.phase = .idle ∧ h.fetched = false ∧ base.skid = [] ∧ s.rescaleDue 0 = none ∧ s.rowHolds 0 { row := h.row, pips := h.pips } = []) ∧
    ({ phase := .castOff } : Core).phase ≠ .running ∧ ({ phase := .castOff } : Core).phase ≠ .idle := by decide +kernel
/-- PipsHold. -/
theorem wit_pips_hold : (oneCore { base with allot := 9 }).core 0 = { base with allot := 9 } ∧ base.lent = 0 := by decide +kernel

/-! ### What meets the hypotheses of the statements on tasks, time and calibration -/

/-- An image that reserves core 0 and has one output range. -/
def image1 : List Byte :=
  zeros 16 ++ leBytes 4 64 ++ zeros 44 ++ ([1, 0, 1] ++ zeros 5 ++ [1] ++ zeros 35 ++ leBytes 4 192 ++ zeros 8 ++ leBytes 4 1216 ++ [1, 0] ++
    zeros 18 ++ leBytes 4 64 ++ zeros 44) ++ zeros 1024 ++ (leBytes 8 0x100000 ++ leBytes 6 4096 ++ [2, 0])

/-- Its pattern. -/
def pattern1 : Pattern := { handle := 1, image := image1, hash := 0, weights := 0, debug := false, lax := false, batchMax := 1, windowUs := 0 }

/-- A module that serves, alone in its configuration, with that pattern and these tasks. -/
def serving (ts : List Task) (k : Core) : State :=
  { oneCore k with
    boot := { aux := true, main := true, pwrEn := true, rails := 8, step := 8 }, power := { state := .serve, target := .serve }
    config := { n := 1, formed := true }, clock := { locked := true, isLead := true, gt := 3000000000000 }, mgmt := { eid := 8 }
    patterns := [pattern1], tasks := ts }

/-- The queued task of that pattern. -/
def queued1 : Task := { task1 with state := .queued, inHash := some 0, coreSet := [] }

/-- No unit of those states has a request pending, and the map is the ring order's. -/
theorem serving_settled (t : Task) (k : Core) : Settled (serving [t] k) pattern1 :=
  ⟨rfl, fun u => (show (unitDefault u).pending = none by unfold unitDefault; split <;> rfl), by simp [serving],
    by show State.mapped (serving [] {}) _ = true; decide +kernel, by decide +kernel,
    by show ∀ q < 8, onPanel pattern1.man.coreSet q ≠ [] → ∀ e ∈ (serving [] {}).ringMap q 0, (serving [] {}).physOf e.1 = e.2; decide +kernel⟩

/-- StartTime, CastOns. -/
theorem wit_cast_ons :
    (MayCastOn (serving [queued1] {}) pattern1 queued1 [] ∧ Settled (serving [queued1] {}) pattern1 ∧ AtOnce pattern1 queued1 [] ∧
      (serving [queued1] {}).twinTakes pattern1 0 = false) ∧
    (let p : Pattern := { pattern1 with image := image1.set 68 2, batchMax := 4, windowUs := 100 }
     let s : State := { serving [queued1, { queued1 with num := 2 }] {} with
       patterns := [p], config := { n := 1, formed := true, twin := true, side := true } }
     MayCastOn s p queued1 [{ queued1 with num := 2 }] ∧ s.twinTakes p 0 = true ∧ s.twinTakes p 2 = false ∧ ¬ AtOnce p queued1 [{ queued1 with num := 2 }] ∧
       s.windowOver p queued1 = true ∧ ({ s with clock := { gt := 100, locked := true } } : State).windowOver p queued1 = false) ∧
    (let t : Task := { task1 with state := .replaying }
     let s := serving [t] { phase := .stopped, task := some 1 }
     s.task 1 = some t ∧ s.awaitsReplay t pattern1 = true ∧ s.coresFree pattern1.man.coreSet 1 = true ∧ s.unsettled pattern1.man.coreSet = false ∧
       s.rangesShut pattern1 = false ∧ pattern1.dual = false ∧ pattern1.twin ≠ 1 ∧ t.batch.Nodup) ∧
    (let p : Pattern := { pattern1 with image := image1.set 67 1 }
     let t : Task := { task1 with check := .second, runs := [(0, 0)], runCores := [[State.reset.physOf 0]] }
     let s : State := { serving [t] {} with patterns := [p] }
     p.dual = true ∧ t.runs.length = 1 ∧ (let free := (s.freeCores p.man.coreSet).boundary p.man
       free.mayRemap (free.mapFor p.man.coreSet (free.secondMap p.man.coreSet (t.runCores.headD []))) = true) ∧
       t.runCores.headD [] = p.man.coreSet.map s.physOf ∧ s.rangesShut p = false ∧ s.fitDual s.images p.image = true ∧
       s.coresFree p.man.coreSet 1 = true ∧ s.mapped p.man.coreSet = true) ∧
    (let s := serving [{ task1 with start := 5 }] { phase := .ready, task := some 1 }
     (s.core 0).task = some 1 ∧ (s.core 0).phase = .ready ∧ 5 ≤ s.panelGt 0 ∧ s.panelGt 0 < 2 ^ 48) :=
  ⟨⟨by unfold MayCastOn; decide +kernel, serving_settled _ _, by unfold AtOnce; decide, by decide +kernel⟩, by unfold MayCastOn AtOnce; decide +kernel,
    by decide +kernel, by decide +kernel, by decide +kernel⟩
/-- TaskEnds: a core that casts off and one that may not; a task whose core has cast off; a quiet task; equal and unequal votes; an input
that lands; a delivered task; a cast-on that waits. -/
theorem wit_task_ends :
    (let c : Core := { phase := .ended }
     c.pipe = [] ∧ c.mx.work = [] ∧ (∀ q ∈ c.queues, q.2 = []) ∧ c.short = [] ∧ c.cable = none ∧ (∀ e ∈ c.sends, e.2.queue = []) ∧
       ({ phase := .running } : Core).phase ≠ .ended ∧ (oneCore c).pipesEnd 0 = true ∧
       (oneCore { c with late := [{ cause := 0xB, detail := 0, left := 9 }] }).pipesEnd 0 = false) ∧
    (let s := serving [task1] { phase := .castOff, task := some 1 }
     s.task 1 = some task1 ∧ s.pattern 1 = some pattern1 ∧ task1.live = true ∧ s.coresOf 1 ≠ [] ∧
       (∀ n ∈ s.coresOf 1, (s.core n).phase = .castOff ∧ (s.core n).pipe = [] ∧ (s.core n).rels = [] ∧
       (s.core n).skeins = [] ∧ (∀ f ∈ (s.core n).fifos, f.2.words = []) ∧ ∀ k < 64, s.tally n k = mget 0 (s.core n).tally0 k) ∧
       s.flight = [] ∧ task1.poisoned = false ∧ task1.cancelled = false ∧ task1.batch = [] ∧ pattern1.dual = false ∧ pattern1.twin ≠ 1 ∧
       s.leads = true ∧ s.slotResult pattern1.man 0 = some []) ∧
    (let s := serving [task1] { phase := .running, task := some 1, quiet := 2 ^ 20, held := some { cause := 7, detail := 0, tag := 0, row := [] } }
     s.coresOf 1 ≠ [] ∧ (∀ n ∈ s.coresOf 1, 2 ^ 20 ≤ (s.core n).quiet ∧ (s.core n).held.all (fun h => h.cause != 0xE && !h.broke) = true) ∧
       (∃ n ∈ s.coresOf 1, (s.core n).phase ≠ .castOff) ∧ (∀ n ∈ s.coresOf 1, (s.core n).phase ≠ .stopped) ∧ s.inFlight (s.coresOf 1) = false) ∧
    (({ task1 with check := .vote } : Task).check = .vote ∧ ((0, 1) : Hash × Hash) ≠ (task1.digest, task1.qHash)) ∧
    (({ queued1 with inHash := none } : Task).inHash = none ∧ queued1.state = .queued ∧
      ({ task1 with state := .delivered } : Task).deliveredAt + 300 * 2000000000 ≤ (serving [] {}).clock.gt ∧
      ({ queued1 with waitsUnlocked := some 5 } : Task).waitsUnlocked = some 5 ∧ 5 + 10 * 2000000 < (serving [] {}).clock.gt) := by decide +kernel
/-- R75: the worked example of the spec, a pass of 64 rows of BS8 whose entry 37 overflows in cycle 3022, six passes since the spill: the
sequence is clear 906 cycles later. -/
theorem test_rescale_length : ({ log := [⟨2176, 128, 2694, 8, 32, 64⟩, ⟨2688, 128, 3206, 8, 32, 64⟩] } : Matrix).rescaleLength
    { due := 3026, entries := [37], rounds := [1], passes := 6 } = 906 := by decide +kernel
/-- MemoryErrors: words of a buffer and of the instruction memory; a running cable; a late rescale, and none; a core in NAP and one that
is not; an address in no pattern's ranges, its channel in service. -/
theorem wit_memory_errors :
    (Sys2Proof.Buffer.wb ≠ .imem ∧ Sys2Proof.Buffer.wb ≠ .acc ∧ ({ base with cable := some {} } : Core).cable ≠ none ∧ base.cable = none ∧
      (∃ l ∈ [({ cause := 0xC, detail := 0, after := 0, left := 9, clear := false } : Late)], l.cause = 0xC ∧ l.after = 0 ∧ l.clear = false) ∧
      base.late = []) ∧
    ({ nap := true } : Phys).nap = true ∧ (State.reset.ph 0).nap = false ∧
    (serving [] {}).patterns.all (fun p => (p.roleAt 0).isNone) = true ∧ ((serving [] {}).unit 296).state = .inService ∧
    ((State.reset.setUnit 296 .suspect 0 false).unit 296).state = .suspect ∧
    (let s := withPhys ready 0 { mem := buffers, weak := [{ buffer := .ab, bank := 0, line := 0 }] }
     s.mayIssue 0 (.sLd (cs 1 4 0 0 0)) = true ∧ mget 0 (s.pcore 0).corr (bufferCode .ab) ≤ corrMax .ab ∧
       ((s.pcore 0).weak.filter (fun w => w.buffer == .ab && (s.pcore 0).wordMet w ((cs 1 4 0 0 0).addr (s.core 0)) 8)).length = 1) := by
  decide +kernel
/-- LoaderEvents: a load that is refused; one of a resident pattern; a bank load that is due, at either bank, and its end. -/
theorem wit_loads :
    (let l : Load := { reply := none, options := 0, batchMax := 1, windowUs := 0, image := [] }
     l.peerRefusal = none ∧ ({ l with peerRefusal := some (0, []) } : Load).peerRefusal = some (0, []) ∧ State.reset.weightsShut l.image = false ∧
       State.reset.mustAsk l = false ∧ State.reset.resident l = none ∧ (match State.reset.verify [] false false with | .refuse _ _ => true | _ => false) = true) ∧
    (let l : Load := { reply := none, options := 0, batchMax := 9, windowUs := 7, image := image1 }
     let p : Pattern := { pattern1 with hash := imgHash image1 }
     ({ State.reset with patterns := [p] } : State).resident l = some p) ∧
    (let s := serving [task1] { phase := .running, task := some 1, flipList := [0] }
     ((((s.core 0).task.bind s.task).bind (fun t => s.pattern t.handle)) = some pattern1) ∧ (s.core 0).flipList = [0] ∧
       (s.core 0).bankDue pattern1 0 = true ∧ (segAt image1 0).rows ≤ 4096 ∧ (1 : BitVec 1).toNat ≠ (s.core 0).bank ∧
       (0 : BitVec 1).toNat = (s.core 0).bank ∧ ({ s.core 0 with loadDone := true } : Core).loadDone = true ∧ (s.core 0).reqs = []) := by
  decide +kernel
/-- PoolRaise, TimeKeeping: the states of an epoch mark, between marks, at a mark that is due and without T; of a beacon of the source in
use, of another and of the lead; of a module that loses its lock, with another source. -/
theorem wit_time_keeping :
    (let s := serving [] {}
     s.tOn = true ∧ s.panelRuns = true ∧ ((s.panel 0).sustained = 3 → (s.panel 0).droop = false) ∧ (s.panel 7).sustained = 0 ∧ s.boot.aux = true ∧
       s.pending = [] ∧ ¬ 65536 ∣ s.clock.gt ∧ s.summaryDue = false ∧ mfind s.cores 0 = some {}) ∧
    (let s : State := { serving [] {} with clock := { gt := 5 * 65536, locked := true, isLead := true } }
     s.tOn = true ∧ 65536 ∣ s.clock.gt ∧ s.clock.epoch ≠ s.clock.gt / 65536 % 2 ^ 48) ∧ State.reset.tOn = false ∧ State.reset.boot.aux = false ∧
    (let s : State := { serving [] {} with
       config := { module := 1, n := 2, formed := true }, clock := { srcPort := 4, locked := true, missed := 4 }
       ports := [(4, { state := .up, peerModule := 0 }), (5, { state := .up, peerModule := 0 })] }
     s.clock.isLead = false ∧ s.timeSource s.nextFree = some (4, false) ∧ (s.port 4).swapped = false ∧ (s.port 4).state = .up ∧
       (s.timeSource s.nextFree).all (fun x => x.1 != 5) = true ∧ 4 ≤ s.clock.missed ∧
       ∃ x ∈ s.timeSources s.nextFree, x.1 ≠ s.clock.srcPort ∧ x.1 ∉ s.clock.passed) := by decide +kernel
/-- PanelEvents, Calibration: a panel that runs at its request and one below it; a channel in its interval, decided and undecided, open,
closed and stopped; a port that is down, one whose eye is good, one with a bad lane, with and without a replay, and each step of a swap; a
summary that is due. -/
theorem wit_panels_and_calibration :
    (let s := serving [] {}
     s.panelRuns = true ∧ ({ cur := 32, req := 40, droop := true, vset := some 40 } : Panel).cur < 40 ∧ (s.panel 0).vset ≠ some 40 ∧ 6 ≤ s.boot.rails ∧
       s.working 0 = true ∧ (s.panel 0).droop = false ∧ (s.unit 288).state = .inService ∧
       s.hbmRuns = true ∧ s.tOn = true ∧ (s.channel 0).recentred = false ∧ (s.channel 0).isOpen = false ∧ (s.channel 0).stopped = false ∧
       ({ s with channels := [(0, { interval := s.clock.gt / 8000000, recentred := true, isOpen := true })] } : State).channel 0 =
         { interval := s.clock.gt / 8000000, recentred := true, isOpen := true } ∧
       ({ recentred := true } : Channel).recentreExit = s.cal.exits ∧ ({ stopped := true } : Channel).windowExit = s.cal.exits) ∧
    (let x : Port := { state := .up }
     8 ≤ (serving [] {}).boot.rails ∧ ((serving [] {}).port 0).state ≠ .up ∧
     x.spareFor = 15 ∧ x.swapReq = none ∧ x.swapHeld = none ∧ x.naked = false ∧ ({ x with naked := true } : Port).naked = true ∧ x.txSpareFor = 15 ∧
       x.swapTx = none ∧ (∀ l < 9, 12 ≤ (List.replicate 9 63).getD l 63 ∧
       (List.replicate 9 0).getD l 0 ≤ 16384) ∧ 16384 < ([0, 16385] : List Nat).getD 1 0 ∧ (x.swapGt + 20000 ≤ (serving [] {}).clock.gt) ∧
       (let here := ((serving [] {}).clock.gt - x.aligned) * 25 / 64
        here < here + 64 ∧ 64 ≤ here)) ∧
    (({ swapReq := some 3, swapRx := some (3, 70), swapTx := some (2, 64) } : Port).swapReq = some 3 ∧
      ({ swapReq := some 3, spareFor := 3 } : Port).spareFor = 3) ∧
    (let s : State := { serving [] {} with clock := { gt := 2 ^ 37, locked := true, isLead := true } }
     s.tOn = true ∧ 2 ^ 37 ∣ s.clock.gt ∧ s.cal.summed ≠ s.clock.gt / 2 ^ 37) := by decide +kernel

/-- The fields of an image of one row, `task.end`, on core 0, each at its byte offset: header (R229), manifest (R231), core record (R232),
segment table and HBM ranges (R233), the row (R20), and the SHA-384 of all that (FIPS 180-4) in the signature block (R230). -/
def imageFields : List (Nat × Nat) :=
  [(0, 0x54504C50), (4, 0x0101), (8, 1728), (16, 64), (20, 128), (24, 1344), (28, 1), (32, 64), (40, 1536)] ++
  [(64, 0x10001), (72, 1), (104, 128), (108, 256), (112, 1280), (116, 64), (120, 1408), (124, 2), (140, 100), (144, 100), (148, 10)] ++
  [(260, 1280), (264, 0xA0001), (312, 1280), (1346, 1), (1348, 1472), (1416, 4096), (1422, 1), (1424, 4096), (1432, 4096), (1438, 2)] ++
  [(1472, 0x10000), (1476, 0x58), (1536, 0x8696f4c2a95a26dfb7416850aa4bb0f292f3398870be158eaacc53196e6eb4c57f50955e3d41aae72d260619ad65e509)]

/-- The image. -/
def signedImage : List Byte := leBytes 1728 (imageFields.foldl (fun a f => a + f.2 * 2 ^ (8 * f.1)) 0)

/-- A module that serves and has enrolled that key. -/
def enrolled : State := { serving [] {} with patterns := [], mgmt := { eid := 8, keys := [⟨0, 0, 0⟩] } }

/-- R234: a load whose five phases find nothing is accepted. -/
theorem verify_accepts (s : State) (b : List Byte) (ha : s.phaseA b = []) (hb : s.phaseB b = []) (hc : phaseC b false = [])
    (hd : s.phaseD b = []) (he : s.phaseE b false = []) : ∃ ws k, s.verify b false false = .accept ws k := by
  simp only [State.verify, ha, hb, hc, hd, he, verdictOf, List.filter_nil, List.map_nil, firstRefusal]
  exact ⟨_, _, rfl⟩
/-- R240: an image in good form, with its own hash and a good signature, and no weight objects, passes phase A. -/
theorem phase_a_passes (s : State) (b : List Byte) (hf : imgFormat b = []) (hh : (hashOf (slice b (imgSigOff b) 48) == imgHash b) = true)
    (hs : s.signatureOk b = true) (h4 : leAt b 4 1 = 1) (h5 : leAt b 5 1 = 1) (hw : imgWrefCount b = 0) : s.phaseA b = [] := by
  simp [State.phaseA, hf, hh, hs, h4, h5, hw, need]
/-- R238, R242: a simulation that ends within a limit shows the same under every greater one, and leaves that much more of it. -/
theorem explore_limit (e : GEnv) (k d : Nat) : ∀ (n left : Nat) (todo seen : List GSim), (e.explore n left todo seen).stopped = false →
    e.explore (n + k) (left + d) todo seen = { e.explore n left todo seen with left := (e.explore n left todo seen).left + d }
  | 0, left, todo, seen, h => by
    obtain rfl : todo = [] := by simpa [GEnv.explore] using h
    cases k <;> simp [GEnv.explore]
  | n + 1, left, [], seen, _ => by rw [Nat.add_right_comm]; rfl
  | n + 1, left, x :: todo, seen, h => by
    rw [Nat.add_right_comm]
    simp only [GEnv.explore] at h ⊢
    split at h <;> rename_i hc
    · simp only [hc, if_true]; exact explore_limit e k d n _ _ _ h
    · split at h <;> rename_i hl
      · simp at h
      · have g : ¬ left + d < e.effort x := by omega
        simp only [hc, hl, g, if_false]
        rw [show left + d - e.effort x = left - e.effort x + d by omega]
        exact explore_limit e k d n _ _ _ h
/-- The simulations of a load under a limit of eight rows and a share of it. -/
def explored8 : Nat → List GEnv → List (GEnv × GRun)
  | _, [] => []
  | left, e :: es =>
    let r := e.explore 26 left [e.arrive { row := e.core.rcd.entryRow, ranges := (e.s.core e.n).ranges }] []
    (e, r) :: explored8 r.left es
/-- A simulation under a limit that is greater by `d`. -/
def later (d : Nat) (r : GEnv × GRun) : GEnv × GRun := (r.1, { r.2 with left := r.2.left + d })
/-- R242: simulations that end within eight rows show the same under a greater limit. -/
theorem explored_limit (k d : Nat) (h : Config.verifyRows = 8 + k) : ∀ (es : List GEnv) (left : Nat),
    (explored8 left es).all (fun r => !r.2.stopped) = true → explored (left + d) es = (explored8 left es).map (later d)
  | [], _, _ => rfl
  | e :: es, left, a => by
    simp only [explored8, List.all_cons, Bool.and_eq_true, Bool.not_eq_true'] at a
    have p : e.points (left + d) =
        (later d (e, e.explore 26 left [e.arrive { row := e.core.rcd.entryRow, ranges := (e.s.core e.n).ranges }] [])).2 := by
      rw [GEnv.points, h, show 3 * (8 + k) + 2 = 26 + 3 * k by ring]; exact explore_limit e (3 * k) d 26 left _ _ a.1
    simp only [explored, explored8, p, List.map_cons, later]
    rw [explored_limit k d h es _ a.2]
/-- The limit of eight rows. -/
def limit8 : Nat := foldsPerRow * 8
/-- What a round of simulations of at most eight rows adds to what is known to be run-time: R237. -/
def learned8 (s : State) (b : List Byte) (know : GKnow) : GKnow :=
  let found := (explored8 limit8 (s.gEnvs b know)).map (fun r => r.1.learn r.2.points)
  { spoiled := (know.spoiled ++ found.flatMap (fun k => k.spoiled)).eraseDups, dropped := (know.dropped ++ found.flatMap (fun k => k.dropped)).eraseDups }
/-- Whether the simulations of an image end within eight rows. -/
def short8 (s : State) (b : List Byte) (know : GKnow) : Bool := (explored8 limit8 (s.gEnvs b know)).all (fun r => !r.2.stopped)
/-- R242: where they do, and the limit is no smaller, the simulations show nothing else. -/
theorem explored_eq (s : State) (b : List Byte) (know : GKnow) (k : Nat) (h : Config.verifyRows = 8 + k) (a : short8 s b know = true) :
    explored verifyLimit (s.gEnvs b know) = (explored8 limit8 (s.gEnvs b know)).map (later (foldsPerRow * k)) := by
  rw [show verifyLimit = limit8 + foldsPerRow * k by rw [verifyLimit, h, Nat.mul_add]; rfl]
  exact explored_limit k _ h _ _ a
/-- R237: a round of the settling. -/
theorem settle_round (s : State) (b : List Byte) (know : GKnow) (k : Nat) (h : Config.verifyRows = 8 + k) (a : short8 s b know = true) (n : Nat) :
    s.settleKnow b (n + 1) know = if learned8 s b know = know then know else s.settleKnow b n (learned8 s b know) := by
  rw [State.settleKnow, explored_eq s b know k h a, List.map_map]; rfl
/-- Refusals do not depend on what is left of the limit. -/
theorem refusals_later (d : Nat) (rs : List (GEnv × GRun)) : refusalsOf (rs.map (later d)) = refusalsOf rs := by
  simp only [refusalsOf, List.flatMap_map, List.any_map, List.map_map, later, Function.comp_def]
/-- R238, R242: phase D of an image whose simulations end within eight rows and settle at once. -/
theorem phase_d_limited (s : State) (b : List Byte) (limit : 8 ≤ Config.verifyRows) (first : short8 s b {} = true)
    (second : short8 s b (learned8 s b {}) = true) (settled : learned8 s b (learned8 s b {}) = learned8 s b {}) :
    s.phaseD b = refusalsOf (explored8 limit8 (s.gEnvs b (learned8 s b {}))) := by
  obtain ⟨k, h⟩ := Nat.exists_eq_add_of_le limit
  have know : ∀ n, 2 ≤ n → s.settleKnow b n {} = learned8 s b {} := by
    rintro (_ | _ | n) g
    · omega
    · omega
    have one := settle_round s b {} k h first (n + 1)
    have two := settle_round s b (learned8 s b {}) k h second n
    rw [if_pos settled] at two
    rw [one, two]
    exact ite_eq_right_iff.2 (fun g => g.symm)
  rw [State.phaseD, know (2 ^ 64) (by norm_num), explored_eq s b _ k h second, refusals_later]
/-- R240: the hash in the image is the one the loader computes. -/
theorem test_image_hash : (hashOf (slice signedImage (imgSigOff signedImage) 48) == imgHash signedImage) = true := by decide +kernel
/-- R240: phases B to D find nothing in that image. -/
theorem test_image_phases : enrolled.phaseB signedImage = [] ∧ phaseC signedImage false = [] ∧
    refusalsOf (explored8 limit8 (enrolled.gEnvs signedImage (learned8 enrolled signedImage {}))) = [] := by decide +kernel
/-- LoaderEvents: a load that is accepted. What it rests on are the constants that the configuration leaves free: the signature is good
(entry 18), the store holds the image and the Genqualer has the time for eight points (entry 36). -/
theorem wit_load_accepted (signature : ∀ k h g, Config.verify k h g = true) (limit : 8 ≤ Config.verifyRows)
    (store : 4096 ≤ Config.patternStore) :
    (let l : Load := { reply := none, options := 0, batchMax := 1, windowUs := 0, image := signedImage }
     enrolled.weightsShut l.image = false ∧ enrolled.mustAsk l = false ∧ enrolled.resident l = none) ∧
      ∃ ws k, enrolled.verify signedImage false false = .accept ws k := by
  have key : (enrolled.mgmt.keys.any (fun c => c.keyId == hashOf (slice signedImage (imgSigOff signedImage + 144) 48))) = true := by
    decide +kernel
  have n : sumN (enrolled.images.map List.length) + signedImage.length ≤ 4096 := by decide +kernel
  refine ⟨by decide +kernel, verify_accepts _ _ (phase_a_passes _ _ (by decide +kernel) test_image_hash ?_ (by decide +kernel) (by decide +kernel)
    (by decide +kernel)) test_image_phases.1 test_image_phases.2.1
    ((phase_d_limited _ _ limit (by decide +kernel) (by decide +kernel) (by decide +kernel)).trans test_image_phases.2.2) ?_⟩
  · rw [State.signatureOk, key, signature]; rfl
  · rw [State.phaseE, decide_eq_false (show ¬ Config.patternStore < sumN (enrolled.images.map List.length) + signedImage.length by omega)]
    decide +kernel

/-! ### What meets the hypotheses of the statements on power, links, the protocol, bays and management -/

/-- ThermalTrip. -/
theorem wit_thermal_trip : (288 ≤ 288 ∧ 288 < 296 ∧ (112 : Int) ≤ 112) ∧ (296 ≤ 807 ∧ 807 < 808 ∧ (105 : Int) ≤ 105) ∧ (serving [] {}).boot.rails ≠ 0 ∧
    ¬ ((288 ≤ 288 ∧ 288 < 296 ∧ (112 : Int) ≤ 111) ∨ (296 ≤ 288 ∧ 288 < 808 ∧ (105 : Int) ≤ 111)) := by decide +kernel
/-- PipsAndPowerStates: a core that lends and one that asks for its pips back; a core that may nap; an idle module, one asked for
STANDBY. -/
theorem wit_pips_and_power_states :
    (let s := serving [] { allot := 10, wait := 4096 }
     s.panelRuns = true ∧ (s.core 0).lent = 0 ∧ 4096 ≤ (s.core 0).wait ∧ (s.core 0).keepPips < (s.core 0).allot ∧ s.mayNap 0 = true ∧
       s.openCount = 0 ∧ s.power.idleSince + s.power.idleMs * 2000000 ≤ s.clock.gt ∧ s.boot.aux = true ∧ s.mgmt.eid ≠ 0 ∧
       s.power.state = .serve ∧ ({ s.power with standbyAsked := true } : Power).standbyAsked = true) ∧
    (let s := serving [task1] { phase := .running, task := some 1, allot := 10, lent := 8, keep := 2,
                                held := some { cause := 10, detail := 0, tag := 0, row := [], pips := 5 } }
     ((List.range 32).map (fun i => 32 * 0 + i)).filter s.wantsPips = [0] ∧ (s.core 0).lent ≤ 512) := by decide +kernel
/-- RailsAndReset: a module that serves; one at boot step 3; a dead one with a good image in the active slot, in the other, in none. -/
theorem wit_rails_and_reset :
    ((serving [] {}).boot.rails = 8 ∧ (serving [] {}).power.state ≠ .auxOnly) ∧
    (let b : Boot := { aux := true, step := 3 }
     b.rails = 0 ∧ b.failStep = 0 ∧ 2 ≤ b.step ∧ State.reset.power.tripped = false ∧ State.reset.mgmt.waiting = [] ∧
       ({} : BootFacts).railsOk = true ∧ ({} : BootFacts).badChannels = []) ∧
    (let good : Flash := { sigOk := true, svn := 3, hash := 0, raise := false }
     State.reset.boot.aux = false ∧ (good.sigOk = true ∧ State.reset.boot.minSvn ≤ good.svn) ∧
       ¬ (({ good with sigOk := false } : Flash).sigOk = true ∧ State.reset.boot.minSvn ≤ good.svn)) := by decide +kernel

/-- A flit with a sequence number, a control word and these bytes from byte 8 on, with its CRC. -/
def flit1 (seq ctl : Nat) (body : List Byte) : List Byte :=
  let b := padTo 252 (leBytes 2 seq ++ leBytes 2 ctl ++ zeros 4 ++ body)
  b ++ leBytes 4 (crc32 b).toNat

/-- A tally add of 5 to tally 5 of core 3, from core 7 of module 1, in a flit of its own. -/
def addFlit : List Byte := flit1 0 0 ([0, 0, 0, 0, 5, 1, 7, 1] ++ zeros 4 ++ leBytes 8 (2 ^ 63 + 0x10003F00028) ++ [5])

set_option maxRecDepth 20000 in
/-- LinkEvents: flits of both kinds in order, and one that is not; a nak and a time-out with something to replay. -/
theorem wit_flits :
    (∀ f ∈ [flit1 0 0 [15], addFlit], let b := padTo 256 f
     leAt b 252 4 = (crc32 (b.take 252)).toNat ∧ leAt b 0 2 % 4096 = ({} : Port).rxSeq ∧ leAt b 0 2 % 4096 ≠ 1 ∧ (leAt b 2 2).testBit 12 = false ∧
       (leAt b 2 2).testBit 13 = false ∧ leAt b 0 2 / 4096 % 16 = 0) ∧
    (let b := padTo 256 addFlit
     leAt b 8 1 % 16 = 0 ∧ kindOf (leAt b 12 1) = some .tallyAdd ∧ leAt b 13 1 % 32 = 1 ∧ kindOf (leAt b 44 1) = none ∧
       leAt b 20 8 / 2 ^ 56 % 64 = (serving [] {}).config.module ∧
       ((leAt b 15 1).testBit 5 = (serving [] {}).config.side ↔ (leAt b 20 8).testBit 62 = false)) ∧
    leAt (padTo 256 (flit1 0 0 [15])) 8 1 % 16 = 15 ∧
    (let x : Port := { state := .up, unacked := [⟨1, .beacon, 0⟩, ⟨2, .beacon, 0⟩] }
     ({ x with swapHeld := some 3 } : Port).spareFor = 15 ∧ x.txQ = [] ∧ x.partChunks = [] ∧ (∃ f ∈ x.unacked, f.seq = 1 % 4096) ∧ x.unacked ≠ [] ∧ x.naked = false ∧ ({ x with naked := true } : Port).naked = true ∧
       x.owed.length = 4 ∧ x.oldest < 7 ∧ ({ x with oldest := 7 } : Port).oldest = 7) := by
  decide +kernel
/-- LinkEvents: a port in training and one that retrains. -/
theorem wit_training :
    (let s : State := { State.reset with boot := { rails := 8 } }
     (s.port 0).state = .down ∧ 0 < 36 ∧ (s.port 0).attempts + 1 < 3 ∧ 3 ≤ ({ attempts := 2 } : Port).attempts + 1 ∧
       s.wired 0 1 false 0 = true ∧ ¬ s.wired 0 0 false 0 = true) ∧
    (let x : Port := { state := .retrain, unacked := [⟨4, .beacon, 0⟩] }
     x.txQ = [] ∧ x.attempts + 1 < 3) := by decide +kernel
/-- LinkEvents: a formation of one module; a heartbeat to module 1; the loss of the own module, of another, and of the twin. -/
theorem wit_configurations :
    (let s : State := { serving [] {} with ports := [(4, { state := .up, peerModule := 1 })] }
     let nums (peers : List PeerId) : List Nat := s.config.module :: (peers.filter (fun q => q.side == s.config.side)).map (fun q => q.module.toNat)
     (((List.range 31).filter (fun p => (s.port p).state == .up || (s.port p).state == .retrain)).map (fun p => (s.port p).peerModule + 1)).foldl max 1 = 2 ∧
       (∀ m < 2, m ∈ nums [{ module := 1, side := false, n := 2 }]) ∧ (∀ m ∈ nums [{ module := 1, side := false, n := 2 }], m < 2) ∧ 1 ∉ nums [] ∧
       s.boot.rails = 8 ∧ s.config.formed = true ∧ s.port 4 = { state := .up, peerModule := 1 } ∧ meshPeer 3 0 30 = none) ∧
    (let s := serving [task1] { phase := .running, task := some 1 }
     s.task 1 = some task1 ∧ task1.live = true ∧ task1.replays < 8 ∧ (∃ n ∈ s.coresOf 1, (s.core n).phase ≠ .stopped) ∧
       leAt ([5, 0, 0, 0, 1] : List Byte) 0 4 = 5 ∧ leAt ([5, 0, 0, 0, 1] : List Byte) 4 4 = 1 ∧ leAt ([7] : List Byte) 0 4 = 7) ∧
    (let s : State := { serving [task1] {} with
       config := { n := 2, formed := true }, ports := [(4, { state := .up, peerModule := 1 })] }
     s.config.twin = false ∧ s.config.n = 2 ∧ s.config.module = 1 - 1 ∧ s.config.lost = [] ∧ s.outPort 256 (2 ^ 63 + 1 * 2 ^ 56) = some 4 ∧
       (s.port 4).state = .up ∧ (s.port 4).txQ = [] ∧ 1 ≤ (s.port 4).credits.getD 3 0 ∧ (s.port 4).unacked.length < 2048 ∧ (s.tasks.map (fun t => t.num)).Nodup ∧
       ∀ t ∈ s.tasks, t.batch = [] ∨ t.num ∈ t.batch) ∧
    (let s : State := { serving [{ task1 with check := .vote }] {} with config := { n := 1, formed := true, twin := true } }
     s.config.twinLost = false ∧ (∀ t ∈ s.tasks, t.check = .vote ∧ t.live = true ∧ (s.pattern t.handle).isSome = true) ∧
       ({ task1 with check := .twin } : Task).check = .twin) := by decide +kernel

/-- A packet of session 5 with the first sequence number. -/
def pk (op : BitVec 16) (flags : BitVec 8) (params : List Byte) : Packet :=
  let p : Packet := { cid := 5, session := 5, flags := flags, opcode := op, params := params, paramLen := BitVec.ofNat 32 params.length }
  { p with crc := p.crcOf }

/-- A cartridge with one object. -/
def cart1 : Cartridge := { capacity := 10 ^ 12, valid := true, objects := [(7, firstDataBlock, [1, 2, 3])] }

/-- A module that serves, with session 5 of an operator, a pattern whose inputs hold 4 bytes, and a cartridge. -/
def talking (ts : List Task) (x : Session) : State :=
  { serving ts {} with
    sessions := [(5, { x with roles := 2 })], patterns := [{ pattern1 with image := image1.set 140 4 }]
    bays := [(0, { cart := some cart1, powered := true, perst := false, mounted := true })] }

/-- PacketAnswers: a command of one packet, CLOSE, a GET_SEQ out of band, and an opcode that is not in the table. -/
theorem wit_packet_answers :
    (∀ p ∈ [pk 1 0 [1, 2], pk 3 0 [], pk 2 16 [0, 0, 0, 0], pk 0x99 0 []], Arrives (talking [] {}) p { roles := 2 } ∧ p.more = false) ∧
      (pk 1 0 []).oob = false ∧ (pk 3 0 []).oob = false ∧ (pk 2 16 []).oob = true ∧ opcodeKnown (pk 0x99 0 []).opcode.toNat = false ∧
      singleOf (.ping (pk 1 0 [])) = some (pk 1 0 [], true) ∧ singleOf (.ping (pk 3 0 [])) = some (pk 3 0 [], false) := by
  unfold Arrives; decide +kernel
set_option maxRecDepth 20000 in
/-- LongCommands: a SUBMIT, a LOAD_PATTERN and a PUT_OBJECT of one packet; a continuation that completes a command, one that adds to it,
one that is too long. -/
theorem wit_long_commands :
    (let p := pk 0x10 0 (beBytes 8 1 ++ beBytes 4 2 ++ zeros 116 ++ [7, 8])
     Arrives (talking [] {}) p { roles := 2 } ∧ p.params.length = 128 + 2 ∧ submitLen (p.params.take 128) = 2 ∧
       (taken (talking [] {}) p { roles := 2 }).submitBreach 5 (p.params.take 128) = none) ∧
    (let p := pk 0x20 0 ([0, 1] ++ zeros 62)
     let r := (taken (talking [] {}) p { roles := 2 }).loadPattern 5 p.tag (p.params.take 64) []
     Arrives (talking [] {}) p { roles := 2 } ∧ loadLeadOk (p.params.take 64) = true ∧ loadInline (p.params.take 64) = 0 ∧ r.2 = none) ∧
    (let p := pk 0x30 0 (zeros 48 ++ beBytes 8 1 ++ zeros 8 ++ [9])
     Arrives (talking [] {}) p { roles := 2 } ∧ putLen (p.params.take 64) = 1 ∧
       (taken (talking [] {}) p { roles := 2 }).putBreach (p.params.take 64) = none) := by
  unfold Arrives; decide +kernel
/-- LongCommands: a continuation that completes a command, one that adds to it, one that is too long. -/
theorem wit_continuations :
    (let p := pk 0x10 0 (beBytes 4 1 ++ zeros 4 ++ [8])
     let m : Multi := { opcode := 0x10, tag := 0, lead := zeros 128, data := [7], total := 2, since := 0 }
     Arrives (talking [] { multis := [m] }) p { roles := 2, multis := [m] } ∧ m.opcode = p.opcode.toNat ∧ m.tag = p.tag ∧ m.dead = false ∧
       (leadBytes p.opcode.toNat).isSome = true ∧ beAt p.params 0 4 = m.data.length ∧ slice p.params 4 4 = zeros 4 ∧
       (m.data ++ p.params.drop 8).length = m.total ∧ p.more = false ∧ ({ m with total := 1 } : Multi).total < (m.data ++ p.params.drop 8).length) ∧
    (pk 0x10 2 []).more = true := by
  unfold Arrives; decide +kernel

/-- TaskCommands: a SUBMIT that nothing stands against, a task of the session in each state, an UNLOAD of a used and of an unused pattern. -/
theorem wit_task_commands :
    (let s := talking [task1] {}
     (s.tasks.map (fun t => t.num)).Nodup ∧ s.submitBreach 5 (beBytes 8 1 ++ zeros 120) = none ∧ s.ownTask 5 (beNat [0, 0, 0, 9]) = none ∧
       s.task (beNat [0, 0, 0, 1]) = some task1 ∧ task1.session = 5 ∧ task1.state = .running ∧ task1.batch = [] ∧
       s.session 5 = some { roles := 2 } ∧ (s.pattern (beNat (beBytes 8 1))).isSome = true ∧
       (∃ t ∈ s.tasks, t.handle = beNat (beBytes 8 1) ∧ t.state ≠ .delivered ∧ (t.session ≠ 16384 ∨ t.live = true))) ∧
    ((talking [queued1] {}).task 1 = some queued1 ∧ queued1.state = .queued ∧ ({ task1 with check := .vote } : Task).check ≠ .none) ∧
    (let a : Task := { task1 with batch := [1, 2] }
     let s := talking [a, { a with num := 2, slot := 1 }] {}
     s.task 1 = some a ∧ a.check = .none ∧ ∃ m ∈ s.liveOf 1, m ≠ 1 ∧ ∃ j, s.task m = some j ∧ j.cancelled = false) ∧
    (let k : Task := { task1 with state := .delivered }
     (talking [k] {}).task 1 = some k ∧ k.state = .delivered ∧ ∀ t ∈ (talking [k, { k with num := 2, session := 16384, state := .complete }] {}).tasks,
       t.handle = 1 → t.state = .delivered ∨ (t.session = 16384 ∧ t.live = false)) ∧
    (let k : Task := { task1 with state := .complete, result := [4, 5] }
     let b := beBytes 4 1 ++ beBytes 4 0 ++ beBytes 4 8
     b.length = 12 ∧ (talking [k] {}).task (beAt b 0 4) = some k ∧ k.released = false ∧ beAt b 4 4 ≤ k.result.length ∧
       k.options.testBit 0 = false ∧ k.deliverSeq = none ∧ (k.result.drop (beAt b 4 4)).take (min (beAt b 8 4) 8144) ≠ [] ∧
       beAt b 4 4 + ((k.result.drop (beAt b 4 4)).take (min (beAt b 8 4) 8144)).length = k.result.length ∧
       ((0 : BitVec 32) - ({ roles := 2 } : Session).devNext).toNat < 2 ^ 31) := by decide +kernel
/-- OtherCommands: a cap below the range, below what the patterns need, and in the range; a read of the scorebook; an object that is new,
one that is there and free, one that a pattern names. -/
theorem wit_other_commands :
    (let s := talking [] {}
     beNat (beBytes 4 23999) < 24000 ∧ (24000 ≤ beNat (beBytes 4 24000) ∧ beNat (beBytes 4 48000) ≤ 48000) ∧ s.fitTotal s.images ≤ 24000 ∧
       (let b := beBytes 8 0 ++ [1, 0, 0, 0]
        b.length = 12 ∧ 1 ≤ leAt b 8 1 ∧ leAt b 8 1 ≤ 126 ∧ slice b 9 3 = [0, 0, 0]) ∧
       s.object 7 = some [1, 2, 3] ∧ (let b := hashBytes 7 ++ beBytes 8 1 ++ beBytes 4 2
         b.length = 60 ∧ hashOf (b.take 48) = 7 ∧ beAt b 48 8 ≤ 3) ∧
       (hashBytes 7).length = 48 ∧ hashOf (hashBytes 7) = 7 ∧ (∀ p ∈ s.patterns, ∀ w ∈ wrefs p.image, w.hash ≠ 7) ∧
       (∀ k < 2, (s.bay k).mounted = true → (s.bay k).writable = true) ∧
       (s.bay 0).mounted = true ∧ (s.bay 0).cart.isSome = true ∧ (s.bay 0).target = false ∧ (s.bay 1).mirroring = false ∧
       ({ s with bays := [(0, s.bay 0), (1, s.bay 0)] } : State).bay 1 = s.bay 0 ∧ (s.bay 0).mirroring = true) ∧
    (let s : State := { talking [] {} with patterns := [{ pattern1 with image := image1.set 203 64 }] }
     beNat (beBytes 4 24000) < s.fitTotal s.images) ∧
    (let lead := hashBytes (sha384 [9]) ++ beBytes 8 1 ++ zeros 8
     (talking [] {}).putBreach lead = none ∧ sha384 [9] = putHash lead ∧ putKind lead = 0 ∧ (talking [] {}).object (putHash lead) = none) ∧
    (let p : Pattern := { pattern1 with image := (image1.set 32 64).set 36 1 }
     let s : State := { talking [] {} with patterns := [p] }
     ∃ p ∈ s.patterns, ∃ w ∈ wrefs p.image, w.hash = (wrefAt p.image 0).hash) := by decide +kernel
/-- OtherCommands: SPDM requests in and out of their order. -/
theorem wit_spdm :
    (∃ x, (talking [] {}).session 5 = some x ∧ x.spdm ≠ 1) ∧ spdmCode [0x10, 0x84, 0, 0] = 0x84 ∧ spdmCode (0x13 :: 0xE1 :: zeros 18) = 0xE1 ∧
      ((0x13 : Byte) :: 0xE1 :: zeros 18).length = 20 ∧ spdmCode [0x13, 0x81, 0, 0] = 0x81 ∧ ({ spdm := 1 } : Session).spdm = 1 ∧
      ({ spdm := 3 } : Session).spdm = 3 := by decide +kernel
/-- OtherCommands: what may be armed, and a held core that RESUME releases; reads of the referee's log and of a window. -/
theorem wit_debug_arm :
    (let h : Held := { cause := 0xE, detail := 0, tag := 0, row := [], broke := true }
     let s : State := { serving [task1] { phase := .running, task := some 1, held := some h } with patterns := [{ pattern1 with debug := true }] }
     let arm (a n : Nat) : List Byte := beBytes 8 1 ++ beBytes 4 1 ++ leBytes 1 a ++ leBytes 1 n ++ [0, 3]
     let brk : List Byte := [3, 0, 0, 0] ++ zeros 12
     s.armBreach 5 (arm 1 1 ++ brk) = none ∧ armAction (arm 1 1) = 1 ∧ (∀ i < 1, breakOk (slice (arm 1 1 ++ brk) (16 + 16 * i) 16) = true) ∧
       (s.debugFor 1 1).breaks.length + armCount (arm 1 1) ≤ 8 ∧ armTask (arm 1 1) ≠ 0 ∧
       (∀ a ∈ [2, 3, 4, 5, 6], s.armBreach 5 (arm a 0) = none ∧ armAction (arm a 0) = a) ∧ armSteps (arm 6 0) ≠ 0 ∧ (s.core 0).held = some h ∧
       (∃ k ∈ s.tasks, k.handle = armHandle (arm 5 0) ∧ (armTask (arm 5 0) = 0 ∨ k.num = armTask (arm 5 0)) ∧ ∃ m ∈ s.batchOf k.num, 0 ∈ s.coresOf m)) ∧
    (let s : State := { serving [task1] {} with patterns := [{ pattern1 with debug := true }] }
     let b (w : Byte) : List Byte := beBytes 4 1 ++ [w] ++ zeros 3 ++ beBytes 8 0x10000600000 ++ beBytes 4 8
     (b 0).length = 20 ∧ (b 1).length = 20 ∧ s.ownTask 5 (beAt (b 0) 0 4) = some task1 ∧ s.ownTask 6 (beAt (b 0) 0 4) = none ∧ (s.pattern task1.handle).any (fun p => p.debug) = true ∧
       slice (b 0) 5 3 = [0, 0, 0] ∧ readWhat (b 0) = 0 ∧ readWhat (b 1) = 1 ∧ localPlace (beAt (b 1) 8 8) = .win 0 0x600000 ∧
       0 ∈ s.taskCores task1 ∧ (s.core 0).broken = false) := by decide +kernel
/-- SessionEvents: a handshake under an enrolled CA and under another; a session that is idle, has sent much, holds a packet, or has a
command in progress. -/
theorem wit_session_events :
    (let s : State := { serving [] {} with mgmt := { eid := 8, cas := [⟨1, 2, 3⟩] } }
     let c : ClientChain := { ca := 1, length := 4 }
     s.boot.rails = 8 ∧ s.session 5 = none ∧ s.sessions.length < 16384 ∧ c.length ≤ 4 ∧ 4 < ({ c with length := 5 } : ClientChain).length ∧
       (List.replicate 16384 ((6, {}) : Nat × Session)).length = 16384 ∧ s.mgmt.cas.find? (fun c => c.hash == 1) = some ⟨1, 2, 3⟩ ∧
       s.mgmt.cas.find? (fun c => c.hash == 9) = none) ∧
    (let m : Multi := { opcode := 0x10, tag := 0, lead := [], data := [], total := 2, since := 0 }
     let x : Session := { roles := 2, sent := 2 ^ 23, multis := [m], held := [(0, pk 1 0 [])] }
     let s := talking [] x
     s.session 5 = some x ∧ 2 ^ 23 ≤ x.sent ∧ ({ x with sent := 0 } : Session).sent < 2 ^ 23 ∧ x.lastGt + 300 * 2000000000 ≤ s.clock.gt ∧
       s.clock.gt < s.clock.gt + 300 * 2000000000 ∧ x.multis = [m] ∧ m.dead = false ∧ m.since + 2 * 2000000000 ≤ s.clock.gt ∧
       x.held = [(0, pk 1 0 [])] ∧ 0 + 5 * 2000000 ≤ s.clock.gt) := by decide +kernel
/-- Bays: an empty bay and a powered one; a cartridge that waits, one presented, one mounted as target beside its partner, worn, retired. -/
theorem wit_bays :
    (let s := serving [] {}
     (s.bay 0).cart = none ∧ (s.bay 0).powered = false ∧ (s.bay 0).mounted = false ∧ 7 ≤ s.boot.rails ∧ (s.bay 0).target = false ∧
       ¬ ((s.bay 0).retired = true ∨ ((s.unit 844).cause ≠ 0 ∧ ((s.unit 844).state = .disabled ∨ (s.unit 844).state = .retired))) ∧
       State.reset.boot.rails < 7) ∧
    (let y : Bay := { powered := true, perst := true }
     y.cart = none ∧ ({ y with perst := false } : Bay).perst = false ∧ ({ y with cart := some cart1 } : Bay).cart = some cart1 ∧ y.mounted = false) ∧
    (let y : Bay := { cart := some cart1, powered := true, perst := false, mounted := true }
     let s : State := { serving [] {} with bays := [(0, { y with target := true }), (1, y)] }
     (s.bay 0).target = true ∧ (s.bay 0).cart = some cart1 ∧ (s.bay (1 - 0)).mounted = true ∧ (s.bay (1 - 0)).cart = some cart1 ∧
       (let life (p : Byte) : Nat := max p.toNat ((cart1.written * 100 + 14 * 10 ^ 15 - 1) / (14 * 10 ^ 15))
        life 79 < 80 ∧ (80 ≤ life 80 ∧ life 80 < 100) ∧ 100 ≤ life 100) ∧ y.warned = false ∧ y.draining = false ∧ ({ y with draining := true } : Bay).draining = true ∧ cart1.state = 0 ∧ y.retired = false ∧ y.target = false) ∧
    (cart1.authOk = true ∧ cart1.valid = true ∧ cart1.state ≠ 2 ∧ ({ cart1 with authOk := false } : Cartridge).authOk = false ∧
      ({ cart1 with state := 2 } : Cartridge).state = 2 ∧ ({ cart1 with valid := false } : Cartridge).valid = false ∧
      cart1.generation < ({ cart1 with generation := 1 } : Cartridge).generation ∧ cart1.mirrorId = ({ cart1 with generation := 1 }).mirrorId ∧
      cart1.mirrorId ≠ ({ cart1 with mirrorId := 4 } : Cartridge).mirrorId) := by decide +kernel
/-- Management: an endpoint that answers, with and without a running task; units that are asked for and that drain; registers of always-on
places and others; an update that is under way. -/
theorem wit_management :
    (Ready (talking [] {}) ∧ ({ rails := 0 } : Boot).rails < 8 ∧ 23999 < 24000 ∧ 48000 ≤ 48000 ∧ (∃ t ∈ (talking [task1] {}).tasks, t.live = true) ∧ (talking [] {}).fitTotal (talking [] {}).images ≤ 24000) ∧
    (let s := serving [] {}
     (s.boot.aux = true ∧ s.mgmt.eid ≠ 0 ∧ s.boot.rails = 8 ∧ ({ rails := 0 } : Boot).rails < 8) ∧ 5 ∉ [0, 3, 4] ∧ (s.unit 3).generation ≤ 0 ∧ ¬ ((s.unit 3).state = .retired ∧ 3 < 288) ∧
       (let r : State := { s with units := [(3, { unitDefault 3 with state := .retired })] }
        (r.unit 3).state = .retired ∧ 3 < 288) ∧
       ¬ (296 ≤ 3 ∧ 3 < 808) ∧ (296 ≤ 296 ∧ 296 < 808) ∧ (s.unit 3).state ≠ .disabled ∧ (s.unit 3).state ≠ .draining ∧
       (serving [] {}).unitUsed 3 = false ∧ (serving [task1] { phase := .running, task := some 1 }).unitUsed 0 = true) ∧
    (let s : State := { serving [] {} with units := [(3, { unitDefault 3 with state := .draining, target := .disabled })] }
     3 < 846 ∧ (s.unit 3).state = .draining ∧ (s.unit 3).target = .disabled ∧ s.unitIdle 3 = true ∧ s.tasksUsing 3 = []) ∧
    (let s : State := { serving [task1] { phase := .running, task := some 1, short := [{ id := 7, kind := 9, remote := 0, loc := 0, len := 8 }] } with
       units := [(0, { unitDefault 0 with state := .draining, target := .retired })] }
     (s.unit 0).state = .draining ∧ (s.unit 0).target = .retired ∧ s.unitIdle 0 = false) ∧
    (let r : EnrolReq := { ca := false, add := true, hash := 1, keyId := 1, roles := 0, certOk := true }
     let cs : List Cert := [⟨1, 1, 0⟩]
     r.certOk = true ∧ (cs.filter (fun (c : Cert) => c.hash != r.hash) ++ [(⟨r.hash, r.keyId, r.roles⟩ : Cert)]).length ≤ 8 ∧ cs.filter (fun (c : Cert) => c.hash != r.hash) ≠ cs) ∧
    ((0x20000003000 : Nat) ≤ (0x20000003000 : Word).toNat ∧ 0x3000 ∈ [0x3000, 0x3018, 0x6C00, 0x7000, 0x7008] ∧ 0x1000 ∉ [0x3000, 0x3018] ∧
      ({ updating := true } : Boot).updating = true ∧ (serving [] {}).boot.updating = false ∧ State.reset.mgmt.eid = 0) := by
  unfold Ready; decide +kernel
/-- ScorebookRecords, DebugPinsAndLinks. -/
theorem wit_records_and_pins :
    (let e : Event := ⟨0x16, 0x805, [1]⟩
     let b : Scorebook := { offered := [e], allowance := 1 }
     b.offered = e :: [] ∧ b.paused = false ∧ b.queue = [] ∧ b.owed = 0 ∧ 1 ≤ b.allowance ∧ e.data.length ≤ 44 ∧ b.nextSeq % 256 < 252 ∧
       b.nextSeq < 2 ^ 48 ∧ (let c : Scorebook := { b with paused := true, allowance := 0 }
         c.paused = true ∧ c.allowance < max 1 ((e.data.length + 43) / 44) + (if c.owed = 0 then 0 else 1))) ∧
    (let m : Mgmt := { dbgReq := true, dbgRdy := true }
     m.dbgReq = true ∧ m.dbgRdy = true ∧ State.reset.mgmt.dbgReq = false ∧ State.reset.boot.aux = false ∧ State.reset.boot.rails < 8 ∧
       (serving [] {}).boot.aux = true ∧ (serving [] {}).boot.rails = 8) := by decide +kernel
/-- RowsRoundTrip: a row of slots that the loader admits. -/
theorem wit_rows : RowOk 0 { c := some (.sAdd (cs 1 2 3 0 0)), d := some (.dmaGet (ds 0 4 0x40)) } := by
  refine ⟨?_, ?_, ?_, ?_, ?_, ?_⟩ <;> intro i h <;> simp at h <;> subst h
  · exact ⟨by decide +kernel, _, _, rfl, rfl⟩
  · exact ⟨by decide +kernel, _, _, rfl, rfl⟩
/-- MemoryStaysCanonical: a state with bytes in its buffers, and a step that it takes. -/
theorem wit_canonical : Canonical ready ∧ ∃ t, step ready = .next t :=
  ⟨by unfold Canonical; decide +kernel, ⟨_, rfl⟩⟩
/-- StepRunsTheFrontCommand, CommandsKeepTheQueue: a command in front runs and leaves the queue's rest. -/
theorem test_front_command :
    (match step { State.reset with pending := [.dbgVref true, .heartbeat] } with
     | .next t => t.pending == [.heartbeat] && t.mgmt.vref
     | _ => false) = true := by decide +kernel
/-- PanelVoltage at both ends of the codes; ModuleRegisters at an address that is no register. -/
theorem wit_voltage_and_registers : (∃ code, 32 ≤ code ∧ code ≤ 132) ∧ (5 : Word) ≠ 0x20000002000 ∧ (5 : Word) ≠ 0x20000003018 ∧
    ((5 : Word) < 0x20000001140 ∨ 0x20000001180 ≤ (5 : Word) ∨ (5 : Word).toNat % 8 ≠ 0) := ⟨⟨132, by decide⟩, by decide⟩

/-- Contacts, fibres and lanes as R327, R434 and R439 list them; the pins without auxiliary power and the LED of a bay (R311, R441). -/
theorem test_connectors :
    j2At .a 19 = .serviceTx 1 2 false ∧ j2At .c 1 = .serviceTx 1 3 false ∧ j2At .e 5 = .serviceRx 0 1 true ∧ j2At .j 11 = .modSlot 5 ∧
      j2At .g 4 = .sgmiiRx false ∧ j2At .k 3 = .unconnected ∧ receptacleOf 19 = 6 ∧ fibreAt 6 2 = some (19, true) ∧
      fibreAt 6 11 = some (19, false) ∧ laneGHz 4 = 193100 ∧ State.reset.pin .sgmiiTx = .floats ∧ State.reset.pin .pwrEn = .ignored ∧
      ({ cart := some {}, drained := true } : Bay).led = some .blink4Hz ∧ ({} : Bay).led = some .off := by decide +kernel

end Sys2Proof.Tests
end

section
/-!
SUPPORT. The frame of a slot command: what every state operation that a slot's action is made of leaves as it was (R9, R22, R29).
-/

namespace Sys2Proof.Machine

/-! ### The frame and the state operations -/

/-- What no slot that issues touches: HBM, the buffers, patterns, sessions, the configuration, the time and the state of the units. -/
structure SlotFrame (s t : State) : Prop where
  hbm : t.hbm = s.hbm
  mem : ∀ p, (t.ph p).mem = (s.ph p).mem
  patterns : t.patterns = s.patterns
  sessions : t.sessions = s.sessions
  config : t.config = s.config
  clock : t.clock = s.clock
  units : t.units = s.units

namespace SlotFrame

variable {s t : State}

theorem refl (s : State) : SlotFrame s s := ⟨rfl, fun _ => rfl, rfl, rfl, rfl, rfl, rfl⟩

theorem trans {u : State} (h : SlotFrame s t) (k : SlotFrame t u) : SlotFrame s u :=
  ⟨k.hbm.trans h.hbm, fun p => (k.mem p).trans (h.mem p), k.patterns.trans h.patterns, k.sessions.trans h.sessions,
    k.config.trans h.config, k.clock.trans h.clock, k.units.trans h.units⟩

/-- A fold of operations that each keep the frame keeps it. -/
theorem foldl {α : Type} {f : State → α → State} (hf : ∀ u x, SlotFrame u (f u x)) (h : SlotFrame s t) (l : List α) :
    SlotFrame s (l.foldl f t) := by
  induction l generalizing t with
  | nil => exact h
  | cons x l ih => exact ih (h.trans (hf t x))

theorem ite {c : Prop} [Decidable c] {u : State} (h : SlotFrame s t) (k : SlotFrame s u) : SlotFrame s (if c then t else u) := by
  split
  · exact h
  · exact k

theorem modCore (h : SlotFrame s t) (n : Nat) (f : Core → Core) : SlotFrame s (t.modCore n f) :=
  ⟨h.hbm, h.mem, h.patterns, h.sessions, h.config, h.clock, h.units⟩

theorem pend (h : SlotFrame s t) (n : Nat) (ps : List Pend) : SlotFrame s (t.pend n ps) := h.modCore n _

/-- A change of a physical core that leaves its buffers as they were. -/
theorem modPh (h : SlotFrame s t) (p : Nat) {f : Phys → Phys} (hf : ∀ x, (f x).mem = x.mem := by intro; rfl) : SlotFrame s (t.modPh p f) where
  hbm := h.hbm
  mem q := by
    by_cases e : q = p
    · subst e; rw [State.ph_modPh, hf, h.mem]
    · rw [State.ph_modPh_ne t f e, h.mem]
  patterns := h.patterns
  sessions := h.sessions
  config := h.config
  clock := h.clock
  units := h.units

theorem modP (h : SlotFrame s t) (n : Nat) {f : Phys → Phys} (hf : ∀ x, (f x).mem = x.mem := by intro; rfl) : SlotFrame s (t.modP n f) :=
  h.modPh _ hf

theorem fresh (h : SlotFrame s t) : SlotFrame s t.fresh.2 :=
  ⟨h.hbm, h.mem, h.patterns, h.sessions, h.config, h.clock, h.units⟩

theorem emit (h : SlotFrame s t) (code source : Nat) (data : List Byte) : SlotFrame s (t.emit code source data) :=
  ⟨h.hbm, h.mem, h.patterns, h.sessions, h.config, h.clock, h.units⟩

theorem modTask (h : SlotFrame s t) (n : Nat) (f : Task → Task) : SlotFrame s (t.modTask n f) :=
  ⟨h.hbm, h.mem, h.patterns, h.sessions, h.config, h.clock, h.units⟩

theorem modTxn (h : SlotFrame s t) (id : Nat) (f : Txn → Txn) : SlotFrame s (t.modTxn id f) :=
  ⟨h.hbm, h.mem, h.patterns, h.sessions, h.config, h.clock, h.units⟩

theorem modPort (h : SlotFrame s t) (p : Nat) (f : Port → Port) : SlotFrame s (t.modPort p f) :=
  ⟨h.hbm, h.mem, h.patterns, h.sessions, h.config, h.clock, h.units⟩

/-- What goes out on a link is in no frame. -/
theorem linkOut (h : SlotFrame s t) (l : List (Nat × LinkMsg)) : SlotFrame s { t with linkOut := l } :=
  ⟨h.hbm, h.mem, h.patterns, h.sessions, h.config, h.clock, h.units⟩

/-- Transactions in flight are in no frame. -/
theorem flight (h : SlotFrame s t) (l : List Txn) : SlotFrame s { t with flight := l } :=
  ⟨h.hbm, h.mem, h.patterns, h.sessions, h.config, h.clock, h.units⟩

theorem pending (h : SlotFrame s t) (l : List Instr) : SlotFrame s { t with pending := l } :=
  ⟨h.hbm, h.mem, h.patterns, h.sessions, h.config, h.clock, h.units⟩

theorem stir (h : SlotFrame s t) (n : Nat) : SlotFrame s (t.stir n) := by
  unfold State.stir
  split
  · exact h
  · exact ⟨h.hbm, h.mem, h.patterns, h.sessions, h.config, h.clock, h.units⟩

theorem stopCores (h : SlotFrame s t) (cs : List Nat) : SlotFrame s (t.stopCores cs) :=
  ⟨h.hbm, h.mem, h.patterns, h.sessions, h.config, h.clock, h.units⟩

theorem freeCores (h : SlotFrame s t) (cs : List Nat) : SlotFrame s (t.freeCores cs) :=
  ⟨h.hbm, h.mem, h.patterns, h.sessions, h.config, h.clock, h.units⟩

/-! ### Register results -/

theorem writeS (h : SlotFrame s t) (n : Nat) (r : BitVec 5) (lat : Nat) (v : BitVec 64) : SlotFrame s (t.writeS n r lat v) :=
  .ite h (h.pend n _)

theorem writeM (h : SlotFrame s t) (n : Nat) (r : BitVec 3) (lat : Nat) (m v : BitVec 256) : SlotFrame s (t.writeM n r lat m v) :=
  h.pend n _

theorem writeVl (h : SlotFrame s t) (n lat v : Nat) : SlotFrame s (t.writeVl n lat v) := h.pend n _

theorem writeElems (h : SlotFrame s t) (n : Nat) (r : BitVec 5) (lat w : Nat) (ps : List (Nat × Nat)) :
    SlotFrame s (t.writeElems n r lat w ps) := h.pend n _

theorem store (h : SlotFrame s t) (n off lat : Nat) (bs : List Byte) : SlotFrame s (t.store n off lat bs) := h.pend n _

theorem numStat (h : SlotFrame s t) (n sats inv ovf : Nat) : SlotFrame s (t.numStat n sats inv ovf) := h.modCore n _

theorem countRes (h : SlotFrame s t) (n : Nat) (rs : List FRes) : SlotFrame s (t.countRes n rs) := h.numStat n _ _ _

theorem writeList (h : SlotFrame s t) (n : Nat) (r : BitVec 5) (lat : Nat) (float : Bool) (es : List Entry) :
    SlotFrame s (t.writeList n r lat float es) := by
  unfold State.writeList
  exact (h.writeElems n _ _ _ _).writeElems n _ _ _ _

/-- Reads that meet stored errors raise counts of corrected reads alone: R135. -/
theorem readWeak (h : SlotFrame s t) (n : Nat) (spans : List (Nat × Nat)) : SlotFrame s (t.readWeak n spans) := by
  refine .ite h (h.modP n fun x => ?_)
  exact List.foldlRecOn _ (motive := fun y : Phys => y.mem = x.mem) _ rfl (fun _ hy _ _ => hy)

/-- Deliveries that a slot starts are counted in its core's ranges: R35. -/
theorem count (h : SlotFrame s t) (n : Nat) (i : Instr) : SlotFrame s (t.count n i) := by
  unfold State.count
  exact h.modCore n _

/-! ### The end of a task, tallies, links and transactions -/

theorem endTask (h : SlotFrame s t) (k status : Nat) : SlotFrame s (t.endTask k status) :=
  .foldl (fun u m => (refl u).modTask m _) ((h.stopCores _).freeCores _) _

theorem programFault (h : SlotFrame s t) (n rule detail : Nat) : SlotFrame s (t.programFault n rule detail) :=
  .ite (h.endTask _ _) (((h.emit _ _ _).stopCores _).endTask _ _)

theorem acquire (h : SlotFrame s t) (n scope : Nat) : SlotFrame s (t.acquire n scope) := h.modCore n _

theorem setTally (h : SlotFrame s t) (n k : Nat) (v : BitVec 32) : SlotFrame s (t.setTally n k v) := h.modCore n _

theorem answer (h : SlotFrame s t) (owner : Nat) (r : TallyReq) : SlotFrame s (t.answer owner r) :=
  .ite ((h.modCore _ _).acquire _ _) ((h.modCore _ _).stir _)

theorem serviceTally (h : SlotFrame s t) (owner k : Nat) : SlotFrame s (t.serviceTally owner k) :=
  .foldl (fun u r => .ite ((((refl u).setTally _ _ _).modCore _ _).answer owner r) (refl u))
    (.foldl (fun u r => (refl u).answer owner r) (h.modCore _ _) _) _

theorem addTally (h : SlotFrame s t) (owner k : Nat) (v : BitVec 32) : SlotFrame s (t.addTally owner k v) :=
  (h.setTally _ _ _).serviceTally _ _

theorem sendIdle (h : SlotFrame s t) (p : Nat) (nak : Bool) : SlotFrame s (t.sendIdle p nak) := (h.modPort p _).linkOut _

theorem sendOne (h : SlotFrame s t) (p : Nat) : SlotFrame s (t.sendOne p) := by
  unfold State.sendOne
  refine .ite h ?_
  split
  · exact h
  · refine SlotFrame.linkOut ?_ _
    split
    · exact (h.modPort _ _).modPort _ _
    · exact h.modPort _ _

theorem drainPort (h : SlotFrame s t) (p : Nat) : SlotFrame s (t.drainPort p) :=
  have k : SlotFrame s ((List.range (t.port p).txQ.length).foldl (fun u _ => u.sendOne p) t) := .foldl (fun u _ => (refl u).sendOne p) h _
  .ite (k.sendIdle p false) k

theorem portWait (h : SlotFrame s t) (p : Nat) (w : Waiting) : SlotFrame s (t.portWait p w) := (h.modPort p _).drainPort p

theorem send (h : SlotFrame s t) (x : Txn) : SlotFrame s (t.send x) := by
  unfold State.send
  have k := h.fresh.flight (t.flight ++ [{ x with id := t.nextId }])
  dsimp only
  split
  · exact k.stir _
  · exact k

theorem launch (h : SlotFrame s t) (n : Nat) (x : Txn) (yellow : Bool) : SlotFrame s (t.launch n x yellow) := by
  unfold State.launch
  split
  · split
    · exact h.programFault _ _ _
    · dsimp only
      split
      · exact h.send _
      · exact .ite (h.send _) ((h.send _).portWait _ _)
  · exact h.send _

theorem launchBurst (h : SlotFrame s t) (n : Nat) (x : Txn) : SlotFrame s (t.launchBurst n x) := (h.modCore n _).launch n x _

theorem sendAdd (h : SlotFrame s t) (n a : Nat) (v : BitVec 32) (o : Origin) : SlotFrame s (t.sendAdd n a v o) := by
  unfold State.sendAdd
  dsimp only
  split
  · exact .ite (h.addTally _ _ _) (h.launch _ _ _)
  · exact h.launch _ _ _

theorem release (h : SlotFrame s t) (n a : Nat) (v : BitVec 32) (waits : List Nat) (o : Origin) :
    SlotFrame s (t.release n a v waits o) :=
  .ite (h.sendAdd n a v o) (h.fresh.modCore n _)

theorem sendRead (h : SlotFrame s t) (n : Nat) (x : Txn) (line : Bool) : SlotFrame s (t.sendRead n x line) := by
  unfold State.sendRead
  dsimp only
  split
  · exact (SlotFrame.ite (h.modCore n _) h).send _
  · have k : ∀ b : Bool, SlotFrame s (if b then t.modCore n (fun c => { c with combine := c.combine ++ [{ addr := x.dst, txn := t.nextId, line := line }] }) else t) :=
      fun b => .ite (h.modCore n _) h
    exact .ite ((k _).launch _ _ _) ((k _).launchBurst _ _)

end SlotFrame

end Sys2Proof.Machine
end

section
/-!
SUPPORT. What the action of each slot command leaves as it was.
-/

namespace Sys2Proof

open Machine

/-! ### Control slots -/

theorem CSlot.alu_frame (c : CSlot) (lat : Nat) (f : BitVec 64 → BitVec 64 → BitVec 64) (s : State) : SlotFrame s (c.alu lat f s) :=
  (SlotFrame.refl s).writeS _ _ _ _

theorem CSlot.branch_frame (c : CSlot) (taken : BitVec 64 → Bool) (s : State) : SlotFrame s (c.branch taken s) :=
  .ite ((SlotFrame.refl s).modCore _ _) (.refl s)

theorem CSlot.loop_frame (c : CSlot) (count : Nat) (s : State) : SlotFrame s (c.loop count s) :=
  (SlotFrame.refl s).modCore _ _

theorem CSlot.satisfied_frame (c : CSlot) (tally scope : Nat) (take : Bool) (s : State) :
    SlotFrame s (c.satisfied tally scope take s) := by
  unfold CSlot.satisfied
  dsimp only
  split
  · exact .refl s
  · exact (SlotFrame.ite ((SlotFrame.refl s).setTally _ _ _) (.refl s)).acquire _ _

/-! ### Vector slots -/

theorem VSlot.map_frame (v : VSlot) (lat : Nat) (f : Core → Nat → FRes) (s : State) : SlotFrame s (v.map lat f s) :=
  ((SlotFrame.refl s).countRes _ _).writeElems _ _ _ _ _

theorem VSlot.compare_frame (v : VSlot) (fl : Int → Int → Bool) (s : State) : SlotFrame s (v.compare fl s) :=
  (SlotFrame.refl s).writeM _ _ _ _ _

theorem VSlot.maskOp_frame (v : VSlot) (f : BitVec 256 → BitVec 256 → BitVec 256) (s : State) : SlotFrame s (v.maskOp f s) :=
  (SlotFrame.refl s).writeM _ _ _ _ _

theorem VSlot.convert_frame (v : VSlot) (s : State) : SlotFrame s (v.convert s) :=
  ((SlotFrame.refl s).numStat _ _ _ _).writeElems _ _ _ _ _

theorem VSlot.convertBs_frame (v : VSlot) (s : State) : SlotFrame s (v.convertBs s) := by
  unfold VSlot.convertBs
  exact (((SlotFrame.refl s).numStat _ _ _ _).writeElems _ _ _ _ _).writeElems _ _ _ _ _

theorem VSlot.reduce_frame (v : VSlot) (fl : Nat → Nat → FRes) (int : Int → Int → Int) (emptyF : Nat) (emptyI : Int) (s : State) :
    SlotFrame s (v.reduce fl int emptyF emptyI s) :=
  .ite (((SlotFrame.refl s).countRes _ _).writeElems _ _ _ _ _) ((SlotFrame.refl s).writeElems _ _ _ _ _)

theorem VSlot.sieve_frame (v : VSlot) (s : State) : SlotFrame s (v.sieve s) := by
  unfold VSlot.sieve
  dsimp only
  split
  · exact .refl s
  · split
    · exact ((SlotFrame.refl s).writeList _ _ _ _ _).writeList _ _ _ _ _
    · exact (SlotFrame.refl s).writeList _ _ _ _ _

theorem actVSt_frame (v : VSlot) (s : State) : SlotFrame s (actVSt v s) :=
  .foldl (fun u _ => (SlotFrame.refl u).store _ _ _ _) (.refl s) _

theorem VSlot.op2_frame (v : VSlot) (lat : Nat) (fl : FloatFmt → Nat → Nat → FRes) (int : Nat → Nat → Nat → Nat) (s : State) :
    SlotFrame s (v.op2 lat fl int s) := v.map_frame _ _ s

theorem VSlot.func_frame (v : VSlot) (g : Nat → FRes) (s : State) : SlotFrame s (v.func g s) := v.map_frame _ _ s

/-- A V slot puts results on their way and counts events, and does nothing else: R87, R110. -/
theorem actV_frame (i : Instr) (s : State) : SlotFrame s (actV i s) := by
  have r := SlotFrame.refl s
  cases i with
  | vAdd v | vSub v | vMul v | vMin v | vMax v =>
    simp only [actV, actVAdd, actVSub, actVMul, actVMin, actVMax, v.op2_frame]
  | vFma v | vFnma v | vAbs v | vNeg v | vAnd v | vOr v | vXor v | vShl v | vShr v | vSra v | vPopc v | vIota v =>
    simp only [actV, actVFma, actVFnma, actVAbs, actVNeg, actVAnd, actVOr, actVXor, actVShl, actVShr, actVSra, actVPopc, actVIota,
      v.map_frame]
  | vExp v | vLog v | vRcp v | vRsqrt v | vTanh v | vErf v =>
    simp only [actV, actVExp, actVLog, actVRcp, actVRsqrt, actVTanh, actVErf, v.func_frame]
  | vWfma v => exact (r.countRes _ _).writeElems _ _ _ _ _
  | vSel v | vExpand v | vLd v => exact r.writeElems _ _ _ _ _
  | vCompress v => exact (r.writeElems _ _ _ _ _).writeVl _ _ _
  | vCeq v | vClt v | vCle v => simp only [actV, actVCeq, actVClt, actVCle, v.compare_frame]
  | mAnd v | mOr v | mXor v | mAndn v => simp only [actV, actMAnd, actMOr, actMXor, actMAndn, v.maskOp_frame]
  | vCvt v => exact v.convert_frame s
  | vCvtbs v => exact v.convertBs_frame s
  | vRedsum v | vRedmax v | vRedmin v => simp only [actV, actVRedsum, actVRedmax, actVRedmin, v.reduce_frame]
  | vSieve v => exact v.sieve_frame s
  | vSinit v =>
    unfold actV actVSinit
    exact .ite r (r.writeList _ _ _ _ _)
  | vSetvl v => exact (r.writeVl _ _ _).writeS _ _ _ _
  | vGetvl v => exact r.writeS _ _ _ _
  | vSt v => exact actVSt_frame v s
  | _ => exact r

end Sys2Proof

namespace Sys2Proof.Machine

/-! ### The matrix engine -/

namespace SlotFrame

variable {s t : State}

theorem see (h : SlotFrame s t) (n lim : Nat) (rs : List EngineRead) : SlotFrame s (t.see n lim rs) := h.modCore n _

theorem addWork (h : SlotFrame s t) (n c : Nat) (w : MWork) : SlotFrame s (t.addWork n c w) := h.modCore n _

theorem accWrite (h : SlotFrame s t) (n e : Nat) (p : List Int × Int) : SlotFrame s (t.accWrite n e p) :=
  ((h.readWeak n _).modP n).modCore n _

theorem accAdd (h : SlotFrame s t) (n e : Nat) (p : List Int × Int) : SlotFrame s (t.accAdd n e p) := by
  unfold State.accAdd
  have k : ∀ v x, SlotFrame s ((t.entryRead n e).modP n fun y => y.setEntry e v x) := fun v x => (h.readWeak n _).modP n
  exact .ite (k _ _) (((k _ _).modP n).modCore n _)

theorem accClear (h : SlotFrame s t) (n e : Nat) : SlotFrame s (t.accClear n e) :=
  (h.modP n).modCore n _

theorem outData (h : SlotFrame s t) (n e : Nat) (o : OutRow) (old : List Byte) : SlotFrame s (t.outData n e o old).1 :=
  (h.modCore n _).readWeak n _

theorem outRow (h : SlotFrame s t) (n lim e : Nat) (o : OutRow) : SlotFrame s (t.outRow n lim e o) := by
  unfold State.outRow
  have k := fun r old => (SlotFrame.ite (c := o.add) (h.see n lim [r]) h).outData n e o old
  exact .ite (k _ _) ((k _ _).pend n _)

theorem enginePass (h : SlotFrame s t) (n lim id c : Nat) (m : MSlot) (diag : Bool) (x w : Nat) :
    SlotFrame s (t.enginePass n lim id c m diag x w) := by
  unfold State.enginePass
  exact .addWork (.foldl (fun u _ => .ite ((refl u).accAdd _ _ _) ((refl u).accWrite _ _ _)) ((h.modCore n _).see n lim _) _) _ _ _

theorem engineDrain (h : SlotFrame s t) (n lim id c : Nat) (m : MSlot) (o : Nat) (ranges : List Nat) :
    SlotFrame s (t.engineDrain n lim id c m o ranges) := by
  unfold State.engineDrain
  refine .foldl (fun u j => ?_) (h.addWork n c _) _
  have k := fun row e at_ => ((refl u).outRow n lim e row).modCore n fun c => { c with mx := c.mx.touch e at_ }
  exact .ite ((k _ _ _).accClear n _) (k _ _ _)

theorem engineMon (h : SlotFrame s t) (n lim id c : Nat) (m : MSlot) (a : Nat) : SlotFrame s (t.engineMon n lim id c m a) := by
  unfold State.engineMon
  exact ((SlotFrame.ite h (h.pend n _)).modCore n _).addWork n c _

end SlotFrame

/-- The row of a tile's pass keeps the frame, whether it writes, adds or is repeated: R64, R75. -/
theorem Fold.row_frame (f : Fold) (n b m t : Nat) : SlotFrame f.s (f.row n b m t).s := by
  have r := SlotFrame.refl f.s
  unfold Fold.row
  dsimp only
  split
  · exact r
  · split
    · split
      · dsimp only
        exact (r.modP n).modCore n _
      · dsimp only
        exact r.modP n
    · dsimp only
      exact r.modP n

/-- A fold of folder steps that each keep the frame keeps it. -/
theorem Fold.foldl_frame {α : Type} {g : Fold → α → Fold} (hg : ∀ f x, SlotFrame f.s (g f x).s) (f : Fold) (l : List α) :
    SlotFrame f.s (l.foldl g f).s := by
  induction l generalizing f with
  | nil => exact .refl _
  | cons x l ih => exact (hg f x).trans (ih (g f x))

/-- A pass reads its operands, adds its rows to ACC and, with the last of a spill, puts outputs on their way: R65, R69, R70. -/
theorem Fold.pass_frame (f : Fold) (n id t0 : Nat) (t : TileDesc) (b : TileBase) (nc w j : Nat) :
    SlotFrame f.s (f.pass n id t0 t b nc w j).s := by
  unfold Fold.pass
  have rows : ∀ (g : Fold) (k : Nat → Nat) (c : Nat),
      SlotFrame f.s g.s → SlotFrame f.s ((List.range c).foldl (fun f i => f.row n (xBits t.xFmt) i (k i)) g).s :=
    fun g _ _ h => h.trans (Fold.foldl_frame (fun f i => f.row_frame n _ i _) g _)
  dsimp only
  split
  · refine .foldl (fun u i => ?_) ?_ _
    · exact ((SlotFrame.refl u).outRow n _ _ _).modCore n _
    · exact rows _ _ _ (((SlotFrame.refl f.s).modCore n _).see n _ _)
  · exact rows _ _ _ (((SlotFrame.refl f.s).modCore n _).see n _ _)

theorem Fold.block_frame (f : Fold) (n id t0 : Nat) (t : TileDesc) (b : TileBase) (nc w : Nat) :
    SlotFrame f.s (f.block n id t0 t b nc w).s :=
  Fold.foldl_frame (fun f j => f.pass_frame n id t0 t b nc w j) { f with since := [], spills := 0 } _

theorem Fold.tile_frame (f : Fold) (n id t0 : Nat) (t : TileDesc) (b : TileBase) : SlotFrame f.s (f.tile n id t0 t b).s :=
  Fold.foldl_frame (fun f nc => Fold.foldl_frame (fun f w => f.block_frame n id t0 t b nc w) f _) f _

namespace SlotFrame

variable {s t : State}

theorem engineTile (h : SlotFrame s t) (n lim id c : Nat) (d : List Byte) (b : TileBase) (ranges : List Nat) :
    SlotFrame s (t.engineTile n lim id c d b ranges) :=
  ((h.trans (Fold.tile_frame { s := t, lim := lim } n id c (parseTile d) b)).modCore n _).addWork n c _

theorem engineRescaled (h : SlotFrame s t) (n id : Nat) (entries : List Nat) : SlotFrame s (t.engineRescaled n id entries) := by
  unfold State.engineRescaled
  exact (h.modCore n _).modP n

theorem engineOutput (h : SlotFrame s t) (n id c : Nat) : SlotFrame s (t.engineOutput n id c) := by
  unfold State.engineOutput
  exact h.modCore n _

theorem engineOp (h : SlotFrame s t) (n lim : Nat) (op : EngineOp) : SlotFrame s (t.engineOp n lim op) := by
  cases op with
  | pass id c m diag x w => exact h.enginePass n lim id c m diag x w
  | drain id c m o ranges => exact h.engineDrain n lim id c m o ranges
  | mon id c m a => exact h.engineMon n lim id c m a
  | tile id c d x w o ranges => exact h.engineTile n lim id c d _ ranges
  | rescaled id entries => exact h.engineRescaled n id entries
  | output id c => exact h.engineOutput n id c

theorem engineEvent (h : SlotFrame s t) (n : Nat) (op : EngineOp) : SlotFrame s (t.engineEvent n op) := (h.engineOp n _ op).modCore n _

theorem engineIssue (h : SlotFrame s t) (n : Nat) (op : EngineOp) : SlotFrame s (t.engineIssue n op) := by
  unfold State.engineIssue
  exact (h.engineOp n _ op).modCore n _

end SlotFrame

end Sys2Proof.Machine
end

section
/-!
SUPPORT. What the action of each B and D slot leaves as it was.
-/

namespace Sys2Proof.Machine

theorem actRibPut_frame (b : BSlot) (s : State) : SlotFrame s (actRibPut b s) :=
  .foldl (fun u _ => (SlotFrame.refl u).pend _ _) (.refl s) _

theorem actBMove_frame (b : BSlot) (ranges : List Nat) {s t : State} (h : SlotFrame s t) : SlotFrame s (actBMove b ranges t) := by
  unfold actBMove
  exact .foldl (fun u _ => (SlotFrame.refl u).send _) ((h.readWeak _ _).fresh.modCore _ _) _

theorem SlotFrame.shortWrite {s t : State} (h : SlotFrame s t) (n kind addr loc : Nat) (data : List Byte) :
    SlotFrame s (t.shortWrite n kind addr loc data) := by
  unfold State.shortWrite
  exact (h.fresh.modCore _ _).launch _ _ _

theorem actSpPut_frame (b : BSlot) (s : State) : SlotFrame s (actSpPut b s) := ((SlotFrame.refl s).readWeak _ _).shortWrite _ _ _ _ _

theorem actSpWord_frame (b : BSlot) (s : State) : SlotFrame s (actSpWord b s) := (SlotFrame.refl s).shortWrite _ _ _ _ _

theorem actSpGet_frame (b : BSlot) (ranges : List Nat) {s t : State} (h : SlotFrame s t) : SlotFrame s (actSpGet b ranges t) := by
  unfold actSpGet
  exact (h.fresh.modCore _ _).sendRead _ _ _

theorem actSpSig_frame (b : BSlot) (s : State) : SlotFrame s (actSpSig b s) := by
  unfold actSpSig
  exact ((SlotFrame.refl s).fresh.modCore _ _).release _ _ _ _ _

theorem actFifoPush_frame (b : BSlot) {s t : State} (h : SlotFrame s t) : SlotFrame s (actFifoPush b t) := by
  unfold actFifoPush
  exact (h.pend _ _).stir _

/-- The credit of a pop goes back, and a word of bad parity is recorded and marks its task: R213, R215. -/
theorem actFifoPop_frame (b : BSlot) (parityOk : Bool) (s : State) : SlotFrame s (actFifoPop b parityOk s) := by
  have r := SlotFrame.refl s
  have popped : ∀ n v f, SlotFrame s ((s.writeS n b.dst 2 v).modCore n f) := fun _ _ _ => (r.writeS _ _ _ _).modCore _ _
  unfold actFifoPop
  dsimp only
  split
  · exact r.writeS _ _ _ _
  · split
    · split
      · exact ((popped _ _ _).pend _ _).stir _
      · exact popped _ _ _
    · refine .modTask (.emit ?_ _ _ _) _ _
      split
      · exact ((popped _ _ _).pend _ _).stir _
      · exact popped _ _ _

theorem SlotFrame.enqueue {s t : State} (h : SlotFrame s t) (d : DSlot) (isGet : Bool) (ranges : List Nat) :
    SlotFrame s (t.enqueue d isGet ranges) := by
  unfold State.enqueue
  exact h.fresh.modCore _ _

theorem actStrandSend_frame (d : DSlot) (s : State) : SlotFrame s (actStrandSend d s) := by
  unfold actStrandSend
  exact ((SlotFrame.refl s).fresh.modCore _ _).launch _ _ _

theorem actCableRun_frame (d : DSlot) (s : State) : SlotFrame s (actCableRun d s) := by
  have r := SlotFrame.refl s
  unfold actCableRun
  dsimp only
  split
  · exact r
  · exact r.fresh.modCore _ _

end Sys2Proof.Machine
end

section
/-!
SUPPORT. Every slot command as one shape: an action within `slotExec`, or within `shortExec` on the short path (R9, R22, R156).
-/

namespace Sys2Proof.Machine

/-- A command is a slot on `core` whose action is `act`: refused by name where its encoding is reserved, or, on the short path, the end of
its task (R9, R22). -/
inductive SlotShape (i : Instr) (core : CoreId) (act : State → State) : Prop where
  | slot (short : Claim.shortSlot i = none) (name : String) (exec_eq : ∀ s, exec i s = s.slotExec core i name act)
  | short (b : BSlot) (short : Claim.shortSlot i = some b) (core_eq : b.core = core) (exec_eq : ∀ s, exec i s = s.shortExec b i act)

/-- The control slots. -/
theorem slotShape_opC {i : Instr} {p : BitVec 8 × CSlot} (h : opC i = some p) :
    ∃ act, SlotShape i p.2.core act ∧ ∀ s, SlotFrame s (act s) := by
  have r := SlotFrame.refl
  cases i with
  | sAdd c | sSub c | sAnd c | sOr c | sXor c | sShl c | sShr c | sSra c | sSlt c | sSltu c | sSeq c | sMul c =>
    cases h
    exact ⟨_, .slot rfl _ fun _ => rfl, c.alu_frame _ _⟩
  | sLi c | sLui c | sLd c | sRdreg c =>
    cases h
    exact ⟨_, .slot rfl _ fun _ => rfl, fun s => (r s).writeS _ _ _ _⟩
  | sSt c =>
    cases h
    exact ⟨_, .slot rfl _ fun _ => rfl, fun s => (r s).store _ _ _ _⟩
  | br c | brZ c | brNz c | brNeg c =>
    cases h
    exact ⟨_, .slot rfl _ fun _ => rfl, c.branch_frame _⟩
  | loopI c | loopR c =>
    cases h
    exact ⟨_, .slot rfl _ fun _ => rfl, fun s => c.loop_frame _ s⟩
  | tallySig c =>
    cases h
    exact ⟨_, .slot rfl _ fun _ => rfl, fun s => (r s).release _ _ _ _ _⟩
  | tallyWait c | tallyTake c =>
    cases h
    exact ⟨_, .slot rfl _ fun _ => rfl, c.satisfied_frame _ _ _⟩
  | bankFlip c =>
    cases h
    exact ⟨_, .slot rfl _ fun _ => rfl, fun s => ((c.satisfied_frame _ _ _ s).modCore _ _).stir _⟩
  | sbDef c =>
    cases h
    refine ⟨_, .slot rfl _ fun _ => rfl, fun s => ?_⟩
    unfold actSbDef
    exact (r s).modCore _ _
  | brk c | taskEnd c =>
    cases h
    exact ⟨_, .slot rfl _ fun _ => rfl, fun s => (r s).modCore _ _⟩
  | _ => cases h

/-- The slots of the matrix engine. -/
theorem slotShape_opM {i : Instr} {p : BitVec 8 × MSlot} (h : opM i = some p) :
    ∃ act, SlotShape i p.2.core act ∧ ∀ s, SlotFrame s (act s) := by
  have r := SlotFrame.refl
  cases i with
  | mmPass m | mmDiag m =>
    cases h
    exact ⟨_, .slot rfl _ fun _ => rfl, fun s => (r s).fresh.engineIssue _ _⟩
  | mmTile m | mmDrain m =>
    cases h
    exact ⟨_, .slot rfl _ fun _ => rfl, fun s => ((r s).count _ _).fresh.engineIssue _ _⟩
  | mmMon m =>
    cases h
    exact ⟨_, .slot rfl _ fun _ => rfl, fun s => (r s).fresh.engineEvent _ _⟩
  | _ => cases h

/-- The vector slots. -/
theorem slotShape_opV {i : Instr} {p : BitVec 8 × VSlot} (h : opV i = some p) :
    ∃ act, SlotShape i p.2.core act ∧ ∀ s, SlotFrame s (act s) := by
  refine ⟨actV i, ?_, actV_frame i⟩
  cases i <;> cases h <;> exact .slot rfl _ fun _ => rfl

/-- The B slots: moves and word FIFOs, and the short path. -/
theorem slotShape_opB {i : Instr} {p : BitVec 8 × BSlot} (h : opB i = some p) :
    ∃ act, SlotShape i p.2.core act ∧ ∀ s, SlotFrame s (act s) := by
  have r := SlotFrame.refl
  cases i with
  | ribPut b =>
    cases h
    exact ⟨_, .slot rfl _ fun _ => rfl, actRibPut_frame b⟩
  | bMove b =>
    cases h
    exact ⟨_, .slot rfl _ fun _ => rfl, fun s => actBMove_frame b _ ((r s).count _ _)⟩
  | fifoPush b =>
    cases h
    exact ⟨_, .slot rfl _ fun _ => rfl, fun s => actFifoPush_frame b ((r s).modCore _ _)⟩
  | fifoPop b ok =>
    cases h
    exact ⟨_, .slot rfl _ fun _ => rfl, actFifoPop_frame b ok⟩
  | fifoStat b =>
    cases h
    exact ⟨_, .slot rfl _ fun _ => rfl, fun s => (r s).writeS _ _ _ _⟩
  | spPut b =>
    cases h
    exact ⟨_, .short b rfl rfl fun _ => rfl, actSpPut_frame b⟩
  | spGet b =>
    cases h
    exact ⟨_, .short b rfl rfl fun _ => rfl, fun s => actSpGet_frame b _ ((r s).count _ _)⟩
  | spSig b =>
    cases h
    exact ⟨_, .short b rfl rfl fun _ => rfl, actSpSig_frame b⟩
  | spWord b =>
    cases h
    exact ⟨_, .short b rfl rfl fun _ => rfl, actSpWord_frame b⟩
  | _ => cases h

/-- The D slots. -/
theorem slotShape_opD {i : Instr} {p : BitVec 8 × DSlot} (h : opD i = some p) :
    ∃ act, SlotShape i p.2.core act ∧ ∀ s, SlotFrame s (act s) := by
  have r := SlotFrame.refl
  cases i with
  | dmaGet d | dmaPut d =>
    cases h
    exact ⟨_, .slot rfl _ fun _ => rfl, fun s => ((r s).count _ _).enqueue d _ _⟩
  | strandSend d =>
    cases h
    exact ⟨_, .slot rfl _ fun _ => rfl, actStrandSend_frame d⟩
  | cableRun d =>
    cases h
    exact ⟨_, .slot rfl _ fun _ => rfl, actCableRun_frame d⟩
  | _ => cases h

/-- Every slot command is an action in one of the two shapes, and the action keeps the frame. -/
theorem slotShape_of_slotCore {i : Instr} {core : CoreId} (h : Claim.slotCore i = some core) :
    ∃ act, SlotShape i core act ∧ ∀ s, SlotFrame s (act s) := by
  unfold Claim.slotCore at h
  split at h
  · cases h
    exact slotShape_opC ‹_›
  · cases h
    exact slotShape_opM ‹_›
  · cases h
    exact slotShape_opV ‹_›
  · cases h
    exact slotShape_opB ‹_›
  · cases h
    exact slotShape_opD ‹_›
  · cases h

end Sys2Proof.Machine
end

section
/-!
PROOFS. Slots that issue complete, and reserved slots are refused or end their task.
-/

namespace Sys2Proof.Machine

/-- A slot that issues answers the state its action makes, its queue as it was. -/
theorem SlotShape.exec_issues {i : Instr} {core : CoreId} {act : State → State} (h : SlotShape i core act) {s : State}
    (hi : s.issuesNow core.toNat i = true) : exec i s = done s (act s) := by
  cases h with
  | slot _ _ exec_eq => rw [exec_eq, slotExec_issues hi]
  | short b _ core_eq exec_eq =>
    subst core_eq
    rw [exec_eq, shortExec_issues hi]

theorem slotsComplete : Claim.SlotsComplete := by
  intro s i core hcore hi
  obtain ⟨act, shape, frame⟩ := slotShape_of_slotCore hcore
  have f : SlotFrame s { act s with pending := s.pending } := (frame s).pending _
  exact ⟨_, shape.exec_issues hi, f.hbm, f.mem, f.patterns, f.sessions, f.config, f.clock, f.units⟩

/-! ### The end of a task -/

/-- A change that keeps a task's number is found under that number: R359. -/
theorem State.task_modTask (s : State) (n k : Nat) {f : Task → Task} (hf : ∀ t, (f t).num = t.num) :
    (s.modTask n f).task k = (s.task k).map (fun t => if t.num = n then f t else t) := by
  have hp : (fun t : Task => t.num == k) ∘ (fun t => if t.num = n then f t else t) = fun t => t.num == k := by
    funext t
    by_cases e : t.num = n <;> simp [e, hf]
  simp only [State.task, State.modTask, List.find?_map, hp]

theorem Task.endWith_num (k : Task) (status : Nat) : (k.endWith status).num = k.num := by
  unfold Task.endWith
  split <;> rfl

/-- The status with which a live task ends: CANCELLED where CANCEL has reached it (R362, R367). -/
def Task.lastStatus (k : Task) (status : Nat) : Nat := if k.cancelled then stCancelled else status

/-- A task that is live completes with its one status: R367. -/
theorem Task.endWith_live {k : Task} (h : k.live = true) (status : Nat) : k.endWith status = k.finish (k.lastStatus status) := by
  unfold Task.endWith
  split <;> simp_all [Task.live, Task.lastStatus]

/-- A task that has ended keeps its status: R367. -/
theorem Task.endWith_finish (k : Task) (a b : Nat) : (k.finish a).endWith b = k.finish a := rfl

theorem State.task_endWith (s : State) (n k status : Nat) :
    (s.modTask n (fun y => y.endWith status)).task k = (s.task k).map (fun t => if t.num = n then t.endWith status else t) :=
  s.task_modTask n k (fun t => t.endWith_num status)

/-- A task found under a number bears it. -/
theorem State.num_of_task {s : State} {k : Nat} {x : Task} (h : s.task k = some x) : x.num = k := by
  simpa using List.find?_some h

/-- A task that has ended stays as it is while others end: R367. -/
theorem State.task_foldl_ended {s : State} {k a status : Nat} {x : Task} (h : s.task k = some (x.finish a)) (ts : List Nat) :
    (ts.foldl (fun s t => s.modTask t (fun y => y.endWith status)) s).task k = some (x.finish a) := by
  induction ts generalizing s with
  | nil => exact h
  | cons n ts ih => exact ih (by simp [State.task_endWith, h, Task.endWith_finish])

/-- Of tasks that end one after the other, each live one completes with its one status: R367, R369. -/
theorem State.task_foldl_endWith {s : State} {k status : Nat} {x : Task} (hx : s.task k = some x) (hl : x.live = true)
    {ts : List Nat} (hk : k ∈ ts) :
    (ts.foldl (fun s t => s.modTask t (fun y => y.endWith status)) s).task k = some (x.finish (x.lastStatus status)) := by
  induction ts generalizing s with
  | nil => cases hk
  | cons n ts ih =>
    have step := s.task_endWith n k status
    rw [hx, Option.map_some, State.num_of_task hx] at step
    by_cases e : k = n
    · rw [if_pos e, Task.endWith_live hl] at step
      exact State.task_foldl_ended step ts
    · rw [if_neg e] at step
      exact ih step ((List.mem_cons.1 hk).resolve_left e)

/-- A live task of its own batch that is ended completes with its one status: R167, R367, R369. -/
theorem State.task_endTask {s : State} {k status : Nat} {x : Task} (hx : s.task k = some x) (hl : x.live = true)
    (hk : k ∈ s.batchOf k) : (s.endTask k status).task k = some (x.finish (x.lastStatus status)) :=
  State.task_foldl_endWith (s := (s.stopCores _).freeCores _) hx hl hk

@[simp] theorem State.endTask_phys (s : State) (k status : Nat) : (s.endTask k status).phys = s.phys :=
  List.foldlRecOn (motive := fun u : State => u.phys = s.phys) _ _ rfl (fun _ h _ _ => h)

@[simp] theorem State.programFault_phys (s : State) (n rule detail : Nat) : (s.programFault n rule detail).phys = s.phys := by
  unfold State.programFault
  split <;> simp [State.stopCores]

@[simp] theorem State.programFault_hbm (s : State) (n rule detail : Nat) : (s.programFault n rule detail).hbm = s.hbm :=
  ((SlotFrame.refl s).programFault n rule detail).hbm

/-- A breach by a core completes its live task with PROGRAM_FAULT, or with CANCELLED where CANCEL has reached it: R167, R362, R367. -/
theorem State.task_programFault {s : State} {n k rule detail : Nat} {x : Task} (hn : (s.core n).task = some k) (hx : s.task k = some x)
    (hl : x.live = true) (hk : k ∈ s.batchOf k) (ht : s.lostTwinAccess n detail = false) :
    (s.programFault n rule detail).task k = some (x.finish (x.lastStatus stProgramFault)) := by
  simp only [State.programFault, ht, hn, Option.getD_some, Bool.false_eq_true, if_false]
  exact State.task_endTask hx hl hk

/-! ### Reserved encodings -/

/-- A slot of no short-path row is refused by name where its encoding is reserved: R9, R22. -/
theorem SlotShape.exec_reserved {i : Instr} {core : CoreId} {act : State → State} (h : SlotShape i core act) (hw : i.wf = false)
    (hs : Claim.shortSlot i = none) (s : State) : ∃ name, exec i s = .refused (.reservedEncoding name) := by
  cases h with
  | slot _ name exec_eq => exact ⟨name, by rw [exec_eq, slotExec_reserved hw]⟩
  | short b short _ _ => cases hs.symm.trans short

/-- A short-path row with a reserved bit does nothing where its core issues no row, and is a breach of rule 9 elsewhere: R9. -/
theorem SlotShape.exec_short_reserved {i : Instr} {core : CoreId} {act : State → State} (h : SlotShape i core act) (hw : i.wf = false)
    {b : BSlot} (hb : Claim.shortSlot i = some b) (s : State) :
    exec i s = if (s.core core.toNat).frozen || s.stalled core.toNat then .next s
      else done s (s.programFault core.toNat 9 b.f.toNat) := by
  cases h with
  | slot short _ _ => cases short.symm.trans hb
  | short b' short core_eq exec_eq =>
    obtain rfl : b' = b := by simpa using short.symm.trans hb
    subst core_eq
    rw [exec_eq, State.shortExec, if_neg (by simp [hw])]
    rfl

/-- Settles O9: a slot is refused by name through `slotExec`, and a short-path row ends its task through the breach of rule 9. -/
theorem reservedSlotsAreRefused : Obligations.ReservedSlotsAreRefused := by
  intro s i core hcore hw
  obtain ⟨act, shape, -⟩ := slotShape_of_slotCore hcore
  refine ⟨fun hs => shape.exec_reserved hw hs s, fun b hb => ⟨fun hf => ?_, fun hf hg k x hn hx hl hk ht => ?_⟩⟩
  · rw [shape.exec_short_reserved hw hb, if_pos (by simpa using hf)]
  · refine ⟨{ s.programFault core.toNat 9 b.f.toNat with pending := s.pending }, x.finish (x.lastStatus stProgramFault), ?_,
      s.programFault_phys _ _ _, s.programFault_hbm _ _ _, State.task_programFault hn hx hl hk ht, rfl, rfl⟩
    rw [shape.exec_short_reserved hw hb, if_neg (by simp [hf, hg])]
    rfl

end Sys2Proof.Machine
end

section
/-!
PROOFS. Every event answers a next state, where the number it names is known (R29, R167): every branch of its meaning is `done`.
-/

namespace Sys2Proof.Machine

/-- A meaning answers a next state. -/
def Answers (o : Out) : Prop := ∃ t, o = .next t

namespace Answers

theorem done {s t : State} : Answers (Machine.done s t) := ⟨_, rfl⟩

theorem ite {c : Prop} [Decidable c] {a b : Out} (ha : Answers a) (hb : Answers b) : Answers (if c then a else b) := by
  split
  · exact ha
  · exact hb

end Answers

/-! ### Events that name a transaction or an operation -/

section Numbered

variable {s : State} {id : Nat}

theorem execReadReq_answers (h : (s.txn id).isSome = true) : Answers (execReadReq id s) := by
  obtain ⟨x, hx⟩ := Option.isSome_iff_exists.1 h
  simp only [execReadReq, hx]
  refine .ite .done ?_
  split
  · split
    · exact .done
    · exact .ite .done .done
  · exact .done
  · split
    · exact .done
    · exact .done

theorem execReadResp_answers (h : (s.txn id).isSome = true) : Answers (execReadResp id s) := by
  obtain ⟨x, hx⟩ := Option.isSome_iff_exists.1 h
  simp only [execReadResp, hx]
  exact .ite .done .done

theorem execWrite_answers (h : (s.txn id).isSome = true) : Answers (execWrite id s) := by
  obtain ⟨x, hx⟩ := Option.isSome_iff_exists.1 h
  simp only [execWrite, hx]
  refine .ite .done ?_
  split
  · split
    · exact .done
    · exact .done
  · exact .done
  · split
    · exact .done
    · split
      · exact .done
      · exact .done

theorem execWriteAck_answers (h : (s.txn id).isSome = true) : Answers (execWriteAck id s) := by
  obtain ⟨x, hx⟩ := Option.isSome_iff_exists.1 h
  simp only [execWriteAck, hx]
  refine .ite .done ?_
  split <;> exact .done

theorem execTallyAdd_answers (h : (s.txn id).isSome = true) : Answers (execTallyAdd id s) := by
  obtain ⟨x, hx⟩ := Option.isSome_iff_exists.1 h
  simp only [execTallyAdd, hx]
  refine .ite .done ?_
  split
  · exact .ite .done .done
  · refine .ite .done ?_
    split <;> exact .done

theorem execStrandReq_answers (h : (s.txn id).isSome = true) : Answers (execStrandReq id s) := by
  obtain ⟨x, hx⟩ := Option.isSome_iff_exists.1 h
  simp only [execStrandReq, hx]
  refine .ite .done ?_
  split <;> exact .done

theorem execStrandData_answers (h : (s.txn id).isSome = true) : Answers (execStrandData id s) := by
  obtain ⟨x, hx⟩ := Option.isSome_iff_exists.1 h
  simp only [execStrandData, hx]
  refine .ite .done ?_
  split
  · split <;> exact .done
  · exact .done

theorem execExternalBurstWrite_answers (h : (s.txn id).isSome = true) : Answers (execExternalBurstWrite id s) := by
  obtain ⟨x, hx⟩ := Option.isSome_iff_exists.1 h
  simp only [execExternalBurstWrite, hx]
  refine .ite .done ?_
  split
  · split <;> exact .done
  · exact .done
  · split
    · exact .done
    · exact .ite .done .done
  · exact .done

theorem execDeliveryLastBurst_answers {core : CoreId} (h : ((s.core core.toNat).short.find? (fun o => o.id == id)).isSome = true ∨
    (((s.core core.toNat).queues.flatMap (fun q => q.2)).find? (fun e => e.id == id)).isSome = true) :
    Answers (execDeliveryLastBurst core id s) := by
  unfold execDeliveryLastBurst
  dsimp only
  split
  · exact .ite .done .done
  · exact .ite .done .done
  · next hs hq => simp [hs, hq] at h

theorem execShortPathComplete_answers {core : CoreId} (h : ((s.core core.toNat).short.find? (fun o => o.id == id)).isSome = true) :
    Answers (execShortPathComplete core id s) := by
  obtain ⟨o, ho⟩ := Option.isSome_iff_exists.1 h
  simp only [execShortPathComplete, ho]
  exact .ite .done .done

end Numbered

/-! ### Events of cores and queues -/

section Cores

variable (core : CoreId) (s : State)

theorem execDmaBurstSend_answers (q : BitVec 2) : Answers (execDmaBurstSend core q s) := by
  refine .ite .done ?_
  split
  · exact .done
  · split
    · exact .done
    · exact .ite .done .done

theorem execDmaComplete_answers (q : BitVec 2) : Answers (execDmaComplete core q s) := by
  unfold execDmaComplete
  dsimp only
  split
  · exact .done
  · exact .ite .done (.ite .done .done)

theorem execTallyRelease_answers : Answers (execTallyRelease core s) := by
  unfold execTallyRelease
  dsimp only
  split
  · exact .ite .done .done
  · exact .done

theorem execAckedRelease_answers : Answers (execAckedRelease core s) := by
  unfold execAckedRelease
  dsimp only
  split <;> exact .done

theorem execStrandGrant_answers (skein : BitVec 4) : Answers (execStrandGrant core skein s) := by
  rw [execStrandGrant]
  split
  · exact .done
  · split
    · exact .done
    · refine .ite .done ?_
      split <;> exact .done

theorem execGrantComplete_answers (skein : BitVec 4) : Answers (execGrantComplete core skein s) := by
  unfold execGrantComplete
  dsimp only
  split
  · exact .done
  · exact .ite .done .done

theorem execStrandSendComplete_answers (ep : BitVec 4) : Answers (execStrandSendComplete core ep s) := by
  unfold execStrandSendComplete
  dsimp only
  split
  · exact .done
  · refine .ite .done ?_
    split <;> exact .done

theorem execRescale_answers : Answers (execRescale core s) := by
  unfold execRescale
  dsimp only
  split <;> exact .done

theorem execMmTileOutputDone_answers : Answers (execMmTileOutputDone core s) := by
  unfold execMmTileOutputDone
  dsimp only
  split <;> exact .done

theorem execCableStageUnit_answers (stage : BitVec 2) : Answers (execCableStageUnit core stage s) := by
  unfold execCableStageUnit
  dsimp only
  split
  · exact .done
  · exact .ite .done (.ite .done .done)

theorem execCableComplete_answers : Answers (execCableComplete core s) := by
  unfold execCableComplete
  dsimp only
  split
  · exact .done
  · exact .ite .done .done

theorem execStartTimeReached_answers : Answers (execStartTimeReached core s) := by
  unfold execStartTimeReached
  dsimp only
  split
  · exact .ite .done .done
  · exact .done

theorem execEccReread_answers (word : EccWord) (outcome : Reread) (time : RereadTime) :
    Answers (execEccReread core word outcome time s) := by
  refine .ite .done ?_
  cases outcome <;> exact .done

theorem execIbankLoad_answers (bank : BitVec 1) (segment : Nat) : Answers (execIbankLoad core bank segment s) := by
  unfold execIbankLoad
  dsimp only
  split
  · exact .ite .done (.ite .done .done)
  · exact .ite .done .done
  · exact .done

end Cores

/-! ### Events of the module -/

section Module

variable (s : State)

theorem execRegisterWrite_answers (addr value : Word) : Answers (execRegisterWrite addr value s) := by
  refine .ite .done (.ite .done (.ite .done ?_))
  split <;> exact .done

theorem execTaskCastOn_answers (task : CastOnFacts) : Answers (execTaskCastOn task s) := by
  unfold execTaskCastOn
  split
  · exact .ite .done .done
  · exact .done

theorem execTaskCastOff_answers (task : Nat) (peers : PeerReport) : Answers (execTaskCastOff task peers s) := by
  unfold execTaskCastOff
  split
  · exact .done
  · split
    · exact .done
    · refine .ite .done (.ite ?_ ?_)
      · split <;> exact .done
      · split
        exact .ite .done (.ite (.ite .done (.ite .done .done)) .done)

theorem execTaskReplay_answers (task : Nat) : Answers (execTaskReplay task s) := by
  unfold execTaskReplay
  split
  · exact .done
  · split
    · exact .done
    · exact .ite .done (.ite .done .done)

theorem execDualSecondRun_answers (task : Nat) : Answers (execDualSecondRun task s) := by
  unfold execDualSecondRun
  split
  · exact .done
  · split
    · exact .done
    · exact .ite .done (.ite .done .done)

theorem execMirrorVote_answers (task : Nat) (d q : Hash) (result : List Byte) : Answers (execMirrorVote task d q result s) := by
  unfold execMirrorVote
  split
  · exact .done
  · split
    · exact .ite .done .done
    · exact .ite .done .done
    all_goals exact .done

theorem execStalemate_answers (task : Nat) : Answers (execStalemate task s) := by
  unfold execStalemate
  split
  · exact .done
  · exact .ite .done .done

theorem execTaskForgotten_answers (task : Nat) : Answers (execTaskForgotten task s) := by
  unfold execTaskForgotten
  split
  · exact .done
  · exact .ite .done .done

theorem execCastonUnlockedTimeout_answers (task : Nat) : Answers (execCastonUnlockedTimeout task s) := by
  unfold execCastonUnlockedTimeout
  split
  · exact .ite .done .done
  · exact .done

theorem execPatternLoad_answers : Answers (execPatternLoad s) := by
  unfold execPatternLoad
  split
  · exact .done
  · refine .ite .done (.ite .done ?_)
    split
    · exact .done
    · split <;> exact .done

theorem execTrainAttempt_answers (port : PortId) (r : TrainResult) : Answers (execTrainAttempt port r s) := by
  refine .ite .done ?_
  cases r with
  | failed => exact .ite .done .done
  | up m side pp ok messages => exact .ite .done .done

theorem execFwMsg_answers (peer : Nat) (msg : List Byte) : Answers (execFwMsg peer msg s) := by
  unfold execFwMsg
  dsimp only
  split <;> exact .done

theorem execSensorRead_answers (sensor : Sensor) : Answers (execSensorRead sensor s) := .ite .done .done

theorem execEffecterSet_answers (effecter : Effecter) (value : Nat) : Answers (execEffecterSet effecter value s) := by
  refine .ite .done ?_
  cases effecter <;> exact .done

theorem execStandbyRequest_answers : Answers (execStandbyRequest s) := by
  refine .ite .done ?_
  split <;> exact .done

theorem execBeacon_answers (port : PortId) (t1 : Nat) (far : Nat × Nat) (t4 : Nat) : Answers (execBeacon port t1 far t4 s) := by
  refine .ite .done ?_
  split
  · exact .done
  · exact .ite .done .done

theorem execEyeCheck_answers (port : PortId) (openings corrected : List Nat) : Answers (execEyeCheck port openings corrected s) := by
  refine .ite .done (.ite .done ?_)
  extract_lets
  split
  · exact .done
  · exact .ite (.ite .done .done) (.ite .done (.ite .done .done))

theorem execSwapReq_answers (port : PortId) (lane slot : Nat) : Answers (execSwapReq port lane slot s) := .ite .done (.ite .done .done)

theorem execLaneSwap_answers (port : PortId) (tx : Bool) : Answers (execLaneSwap port tx s) := by
  unfold execLaneSwap
  dsimp only
  split
  · exact .done
  · exact .ite .done .done

theorem execSwapDone_answers (port : PortId) : Answers (execSwapDone port s) := by
  unfold execSwapDone
  dsimp only
  split
  · exact .done
  · exact .ite .done .done

theorem execSwapReqResend_answers (port : PortId) : Answers (execSwapReqResend port s) := by
  unfold execSwapReqResend
  dsimp only
  split
  · exact .done
  · exact .ite .done .done

theorem execExternalReread_answers (phys : PhysId) (word : EccWord) (outcome : Reread) :
    Answers (execExternalReread phys word outcome s) := by
  cases outcome <;> exact .done

theorem execScrubRead_answers (phys : PhysId) (word : EccWord) (result : EccResult) (outcome : Reread) :
    Answers (execScrubRead phys word result outcome s) := by
  refine .ite .done ?_
  cases result with
  | clean | corrected => exact .done
  | uncorrectable => cases outcome <;> exact .done

theorem execHandshake_answers (cid src : Nat) (cert : Hash) (chain : ClientChain) : Answers (execHandshake cid src cert chain s) := by
  refine .ite .done (.ite .done (.ite ?_ .done))
  split <;> exact .done

theorem execSessionExpired_answers (cid : Nat) : Answers (execSessionExpired cid s) := by
  unfold execSessionExpired
  split
  · exact .done
  · exact .ite .done .done

theorem execCommandTimeout_answers (cid : Nat) : Answers (execCommandTimeout cid s) := by
  unfold execCommandTimeout
  split <;> exact .done

theorem execSeqGap_answers (cid : Nat) : Answers (execSeqGap cid s) := by
  unfold execSeqGap
  split
  · exact .done
  · split
    · exact .done
    · exact .ite .done .done

end Module

theorem eventsComplete : Claim.EventsComplete := by
  intro s i hs hissue hheld hn
  show Answers (exec i s)
  cases i with
  | issueCycle core e ports => exact absurd rfl (hissue core e ports)
  | heldTurnEnd core k => exact absurd rfl (hheld core k)
  | readReq id => exact execReadReq_answers hn
  | readResp id => exact execReadResp_answers hn
  | write id => exact execWrite_answers hn
  | writeAck id => exact execWriteAck_answers hn
  | tallyAdd id => exact execTallyAdd_answers hn
  | strandReq id => exact execStrandReq_answers hn
  | strandData id => exact execStrandData_answers hn
  | externalBurstWrite id => exact execExternalBurstWrite_answers hn
  | deliveryLastBurst core id => exact execDeliveryLastBurst_answers hn
  | shortPathComplete core id => exact execShortPathComplete_answers hn
  | dmaBurstSend core q => exact execDmaBurstSend_answers core s q
  | dmaComplete core q => exact execDmaComplete_answers core s q
  | tallyRelease core => exact execTallyRelease_answers core s
  | ackedRelease core => exact execAckedRelease_answers core s
  | strandGrant core skein => exact execStrandGrant_answers core s skein
  | grantComplete core skein => exact execGrantComplete_answers core s skein
  | strandSendComplete core ep => exact execStrandSendComplete_answers core s ep
  | rescale core => exact execRescale_answers core s
  | mmTileOutputDone core => exact execMmTileOutputDone_answers core s
  | cableStageUnit core stage => exact execCableStageUnit_answers core s stage
  | cableComplete core => exact execCableComplete_answers core s
  | startTimeReached core => exact execStartTimeReached_answers core s
  | eccReread core word outcome time => exact execEccReread_answers core s word outcome time
  | ibankLoad core bank segment => exact execIbankLoad_answers core s bank segment
  | registerWrite addr value => exact execRegisterWrite_answers s addr value
  | taskCastOn task => exact execTaskCastOn_answers s task
  | taskCastOff task peers => exact execTaskCastOff_answers s task peers
  | taskReplay task => exact execTaskReplay_answers s task
  | dualSecondRun task => exact execDualSecondRun_answers s task
  | mirrorVote task d q result => exact execMirrorVote_answers s task d q result
  | stalemate task => exact execStalemate_answers s task
  | taskForgotten task => exact execTaskForgotten_answers s task
  | castonUnlockedTimeout task => exact execCastonUnlockedTimeout_answers s task
  | patternLoad => exact execPatternLoad_answers s
  | trainAttempt port r => exact execTrainAttempt_answers s port r
  | fwMsg peer msg => exact execFwMsg_answers s peer msg
  | sensorRead sensor => exact execSensorRead_answers s sensor
  | effecterSet effecter value => exact execEffecterSet_answers s effecter value
  | standbyRequest => exact execStandbyRequest_answers s
  | beacon port t1 far t4 => exact execBeacon_answers s port t1 far t4
  | eyeCheck port openings corrected => exact execEyeCheck_answers s port openings corrected
  | swapReq port lane slot => exact execSwapReq_answers s port lane slot
  | laneSwap port tx => exact execLaneSwap_answers s port tx
  | swapDone port => exact execSwapDone_answers s port
  | swapReqResend port => exact execSwapReqResend_answers s port
  | externalReread phys word outcome => exact execExternalReread_answers s phys word outcome
  | scrubRead phys word result outcome => exact execScrubRead_answers s phys word result outcome
  | handshake cid src cert chain => exact execHandshake_answers s cid src cert chain
  | sessionExpired cid => exact execSessionExpired_answers s cid
  | commandTimeout cid => exact execCommandTimeout_answers s cid
  | seqGap cid => exact execSeqGap_answers s cid
  | ping | getSeq | close | submit | queryStatus | fetchResult | cancel | loadPattern | unloadPattern | listPatterns | putObject | getObject
  | deleteObject | readScorebook | setPowerCap | getHealth | cartridgeInfo | cartridgeRetire | continuationBlock | badOpcode | arm
  | disarmAll | refereeLog | refereeStop | resume | step | readRefereeLog | readWindowBytes | getVersion | getCapabilities
  | negotiateAlgorithms | getDigests | getCertificate | challenge | getMeasurements => exact .done
  | bayFailure | readIndexWrite | gtLoRead | freqCtlWrite | calCtlWrite | batchingWindow | inputHash | droopRecovery | twinLost | dbgVref
  | closeNotify | clientKeyUpdate | rescaleClear => exact .done
  | prsntDebounce | perstRelease | resyncComplete | smartRead | dbgReq | dbgReqRelease | dbgReqTimeout | recordWrite
  | bankReadySignal | lend | coreCastOff | retrain | nak | retryTimeout | heartbeat | unitRequest | enrol | stagedSet | netCfg | sbRead
  | moduleReset | i3cBroadcastCcc | servicePortLink | sgmiiLink | drainEnd | voltageSettled | voutTelemetry | regulatorFault | droop
  | sustainedDroop | epochMark | timeUnlocked | recentre | swapAt | calSummary | napEntry | idleEntry | standbyEntry | mainRailLost
  | pwrEnAssert | pwrEnDeassert | thermalTrip | auxPowerLost | watchdog | keyUpdate => exact .ite .done .done
  | cartridgeInsert | cartridgeRemove | fifoDataWrite | regRead | pldmFirmwareUpdate | activateFirmware | setEndpointId
  | reclaimBatch | auxPowerOn | flitReceive => exact .ite .done (.ite .done .done)
  | retrainAttempt | configFormation | allBankRefresh | moduleLost => exact .ite .done (.ite .done (.ite .done .done))
  | windowEnd => exact .ite .done (.ite .done (.ite .done .done))
  | hbmUncorr => exact .ite .done (.ite .done .done)
  | _ => cases hs
end Sys2Proof.Machine
end

section
/-!
PROOFS. An event that names a number nobody has stops, and with that O28.
-/

namespace Sys2Proof.Machine

/-! Each meaning that looks up its transaction stops where there is none. -/

section Unknown

variable {s : State} {id : Nat} (h : s.txn id = none)
include h

theorem execReadReq_none : execReadReq id s = .fault .noSuchTransaction := by simp only [execReadReq, h]

theorem execReadResp_none : execReadResp id s = .fault .noSuchTransaction := by simp only [execReadResp, h]

theorem execWrite_none : execWrite id s = .fault .noSuchTransaction := by simp only [execWrite, h]

theorem execWriteAck_none : execWriteAck id s = .fault .noSuchTransaction := by simp only [execWriteAck, h]

theorem execTallyAdd_none : execTallyAdd id s = .fault .noSuchTransaction := by simp only [execTallyAdd, h]

theorem execStrandReq_none : execStrandReq id s = .fault .noSuchTransaction := by simp only [execStrandReq, h]

theorem execStrandData_none : execStrandData id s = .fault .noSuchTransaction := by simp only [execStrandData, h]

theorem execExternalBurstWrite_none : execExternalBurstWrite id s = .fault .noSuchTransaction := by simp only [execExternalBurstWrite, h]

end Unknown

theorem execDeliveryLastBurst_none {s : State} {core : CoreId} {id : Nat}
    (hs : (s.core core.toNat).short.find? (fun o => o.id == id) = none)
    (hq : ((s.core core.toNat).queues.flatMap (fun q => q.2)).find? (fun e => e.id == id) = none) :
    execDeliveryLastBurst core id s = .fault .noSuchTransaction := by
  simp only [execDeliveryLastBurst, hs, hq]

theorem execShortPathComplete_none {s : State} {core : CoreId} {id : Nat}
    (hs : (s.core core.toNat).short.find? (fun o => o.id == id) = none) :
    execShortPathComplete core id s = .fault .noSuchTransaction := by
  simp only [execShortPathComplete, hs]

theorem unknownTransactionsFault : Claim.UnknownTransactionsFault := by
  intro s id core ht hs hq i hi
  simp only [List.mem_cons, List.not_mem_nil, or_false] at hi
  rcases hi with rfl | rfl | rfl | rfl | rfl | rfl | rfl | rfl | rfl | rfl
  · exact execReadReq_none ht
  · exact execReadResp_none ht
  · exact execWrite_none ht
  · exact execWriteAck_none ht
  · exact execTallyAdd_none ht
  · exact execStrandReq_none ht
  · exact execStrandData_none ht
  · exact execExternalBurstWrite_none ht
  · exact execDeliveryLastBurst_none hs hq
  · exact execShortPathComplete_none hs

/-- Settles O28: slots by the shape of their meanings (`SlotShape`), events by the branches of theirs. -/
theorem commandsComplete : Obligations.CommandsComplete :=
  ⟨slotsComplete, eventsComplete, unknownTransactionsFault⟩

end Sys2Proof.Machine
end

section
/-!
PROOFS. Writes to module registers.
-/

namespace Sys2Proof.Machine

/-! ### Fields and indices -/

theorem field_low (v hi : Nat) : field v hi 0 = v % 2 ^ (hi + 1) := by simp [field]

theorem field_31_16 (v : Nat) : field v 31 16 = v / 2 ^ 16 % 2 ^ 16 := by simp [field, Nat.shiftRight_eq_div_pow]

/-- The register at index `p` of an array is found. -/
theorem regIndex_at {base stride count p : Nat} (hp : p < count) (hs : 0 < stride) :
    regIndex (base + stride * p) base stride count = some p := by
  have hlt : stride * p < stride * count := Nat.mul_lt_mul_of_pos_left hp hs
  have hc : base ≤ base + stride * p ∧ base + stride * p < base + stride * count ∧ (base + stride * p - base) % stride = 0 :=
    ⟨by omega, by omega, by simp⟩
  rw [regIndex, if_pos hc, Nat.add_sub_cancel_left, Nat.mul_div_cancel_left p hs]

/-- Outside the array, or between its registers, there is none. -/
theorem regIndex_eq_none {off base stride count : Nat}
    (h : off < base ∨ base + stride * count ≤ off ∨ (off - base) % stride ≠ 0) : regIndex off base stride count = none := by
  rw [regIndex, if_neg]
  rintro ⟨hge, hlt, hmod⟩
  omega

/-! ### What a write to each address does -/

variable (s : State) (v : Word)

theorem execRegisterWrite_calCtl : execRegisterWrite 0x20000002000 v s = done s (s.mgmtInterval (field v.toNat 11 0)) := rfl

theorem execRegisterWrite_modState : execRegisterWrite 0x20000003018 v s = done s (s.mgmtIdleMs (field v.toNat 31 16)) := rfl

/-- Past the two single registers, the address selects among the panels' `FREQ_CTL`. -/
theorem execRegisterWrite_freqCtl {a : Word} {o : Option Nat} (hcal : a.toNat ≠ modBase + 0x2000) (hmod : a.toNat ≠ modBase + 0x3018)
    (hbase : modBase ≤ a.toNat) (ho : regIndex (a.toNat - modBase) 0x1140 8 8 = o) :
    execRegisterWrite a v s = done s (o.elim s (fun p => s.mgmtCeiling p (field v.toNat 7 0))) := by
  subst ho
  simp only [execRegisterWrite, hcal, hmod, Nat.not_lt.2 hbase, if_false]
  cases regIndex (a.toNat - modBase) 0x1140 8 8 <;> rfl

/-- A write that meets no register with an RW field changes nothing. -/
theorem execRegisterWrite_elsewhere {a : Word} (hcal : a.toNat ≠ 0x20000002000) (hmod : a.toNat ≠ 0x20000003018)
    (ha : a.toNat < 0x20000001140 ∨ 0x20000001180 ≤ a.toNat ∨ a.toNat % 8 ≠ 0) : execRegisterWrite a v s = done s s := by
  by_cases hbase : modBase ≤ a.toNat
  · refine execRegisterWrite_freqCtl s v (o := none) hcal hmod hbase (regIndex_eq_none ?_)
    simp only [modBase] at hbase ⊢
    omega
  · simp only [modBase] at hbase
    simp [execRegisterWrite, modBase, hcal, hmod, Nat.lt_of_not_le hbase]

theorem execRegisterWrite_panel {p : Nat} (hp : p < 8) :
    execRegisterWrite (0x20000001140 + BitVec.ofNat 64 (8 * p)) v s = done s (s.mgmtCeiling p (field v.toNat 7 0)) := by
  have ha : (0x20000001140 + BitVec.ofNat 64 (8 * p) : Word).toNat = modBase + (0x1140 + 8 * p) := by
    rw [BitVec.toNat_add, BitVec.toNat_ofNat, modBase, show (0x20000001140 : Word).toNat = 0x20000001140 from rfl]
    omega
  refine execRegisterWrite_freqCtl s v (o := some p) ?_ ?_ ?_ ?_
  · omega
  · omega
  · omega
  · rw [ha, Nat.add_sub_cancel_left, regIndex_at hp (by decide)]

/-- Settles O37: the address selects the field, and the field's own setter clamps and records it. -/
theorem moduleRegisters : Obligations.ModuleRegisters := by
  intro s v lim ceiling interval
  have hceiling (p : Nat) : s.mgmtCeiling p (field v.toNat 7 0) = ceiling p := by rw [field_low]; rfl
  have hinterval : s.mgmtInterval (field v.toNat 11 0) = interval := by rw [field_low]; rfl
  refine ⟨?_, ?_, ?_, ?_, ?_, ?_, ?_⟩
  · rw [← hinterval]; rfl
  · rw [← hinterval]; rfl
  · rw [← field_31_16]; rfl
  · intro p
    rw [← hceiling]; rfl
  · intro p hp
    rw [← hceiling]
    exact execRegisterWrite_panel s v hp
  · intro a hcal hmod ha
    refine execRegisterWrite_elsewhere s v (fun h => hcal (BitVec.eq_of_toNat_eq h)) (fun h => hmod (BitVec.eq_of_toNat_eq h)) ?_
    exact ha
  · rfl

end Sys2Proof.Machine
end

section
/-!
SUPPORT. The canonical form of the memories (entry 3): what keeps it of one memory, and of the memories of a whole state.

A memory changes only where the model writes bytes into HBM or into a core's buffers, remaps its checkerboard regions, or loses it with
the rails. Each operation of the model has one lemma of its own name under `Claim.Canonical`: it keeps the canonical form. Its proof reads
as the operation's body does, from the last change inward, over the lemmas of the operations it calls; an operation that touches no memory
keeps the form as it stands. `KeepsCanonical` says the same of the answer of a command.
-/

namespace Sys2Proof.Machine

/-! ### One memory -/

/-- Cells that are left out leave the others as they were. -/
theorem Memory.wf_filter {m : Memory} (p : Host.Cell → Bool) (h : m.wf = true) : Memory.wf (m.filter p) = true := by
  simp only [Memory.wf, Bool.and_eq_true, decide_eq_true_eq, List.all_eq_true] at h ⊢
  obtain ⟨rising, nonzero⟩ := h
  exact ⟨rising.filter p, fun c hc => nonzero c (List.mem_filter.1 hc).1⟩

/-- Bytes written one after the other keep the canonical form. -/
theorem Memory.wf_foldl_write {α : Type} (addr : α → Nat) (byte : Memory → α → Byte) (l : List α) {m : Memory} (h : m.wf = true) :
    Memory.wf (l.foldl (fun m x => m.write (addr x) (byte m x)) m) = true :=
  List.foldlRecOn (motive := fun m : Memory => m.wf = true) l _ h (fun m hm _ _ => m.wf_write _ _ hm)

/-- The bits that change their place are written into what stays: R134. -/
theorem wf_remapRegions (old new : List CbRegion) {m : Memory} (h : m.wf = true) : Memory.wf (remapRegions old new m) = true := by
  unfold remapRegions
  split
  · exact h
  · exact Memory.wf_foldl_write (fun c : Host.Cell => c.1) (fun m c => Memory.read m c.1 ||| c.2) _ (Memory.wf_filter _ h)

/-! ### Lists by number -/

/-- What holds of every value and of the new one holds after a change. -/
theorem forall_mem_mset {α : Type} {P : α → Prop} {m : List (Nat × α)} {v : α} (k : Nat) (hv : P v) (h : ∀ p ∈ m, P p.2) :
    ∀ p ∈ mset m k v, P p.2 := by
  induction m with
  | nil => simpa [mset] using hv
  | cons c m ih =>
    obtain ⟨hc, hm⟩ := List.forall_mem_cons.1 h
    simp only [mset]
    split
    · exact List.forall_mem_cons.2 ⟨hv, hm⟩
    · split
      · exact List.forall_mem_cons.2 ⟨hv, h⟩
      · exact List.forall_mem_cons.2 ⟨hc, ih hm⟩

/-- What holds of every value and of the default holds of what is read. -/
theorem of_mget {α : Type} {P : α → Prop} {m : List (Nat × α)} {d : α} (k : Nat) (hd : P d) (h : ∀ p ∈ m, P p.2) : P (mget d m k) := by
  induction m with
  | nil => exact hd
  | cons c m ih =>
    obtain ⟨hc, hm⟩ := List.forall_mem_cons.1 h
    simp only [mget]
    split
    · exact hc
    · exact ih hm

end Sys2Proof.Machine

namespace Sys2Proof.Claim

open Machine

/-! ### The memories of a state -/

namespace Canonical

variable {s t : State}

theorem hbm (h : Canonical s) : Memory.wf s.hbm = true := h.1

theorem ph (h : Canonical s) (p : Nat) : Memory.wf (s.ph p).mem = true :=
  of_mget (P := fun x : Phys => Memory.wf x.mem = true) p Memory.wf_nil h.2

theorem withHbm (h : Canonical s) {m : Memory} (hm : m.wf = true) : Canonical { s with hbm := m } := ⟨hm, h.2⟩

/-- HBM keeps its form where bytes are written into it. -/
theorem hbmWrite (h : Canonical s) {a : Nat} {bs : List Byte} : Canonical { s with hbm := Memory.writeN s.hbm a bs } :=
  h.withHbm (Memory.wf_writeN _ _ _ h.hbm)

theorem setPh {p : Nat} {x : Phys} (h : Canonical s) (hx : Memory.wf x.mem = true) : Canonical (s.setPh p x) :=
  ⟨h.1, forall_mem_mset (P := fun x : Phys => Memory.wf x.mem = true) p hx h.2⟩

theorem modPh {p : Nat} {f : Phys → Phys} (h : Canonical s)
    (hf : ∀ x, Memory.wf x.mem = true → Memory.wf (f x).mem = true := by exact fun _ h => h) :
    Canonical (s.modPh p f) :=
  h.setPh (hf _ (h.ph p))

theorem modP {n : Nat} {f : Phys → Phys} (h : Canonical s)
    (hf : ∀ x, Memory.wf x.mem = true → Memory.wf (f x).mem = true := by exact fun _ h => h) :
    Canonical (s.modP n f) :=
  h.modPh hf

/-! ### Branches and folds -/

theorem ite {c : Prop} [Decidable c] (ht : Canonical t) (hs : Canonical s) : Canonical (if c then t else s) := by
  split
  · exact ht
  · exact hs

/-- A step that is taken only where a condition holds. -/
theorem when {c : Prop} [Decidable c] (hf : Canonical s → Canonical t) (h : Canonical s) : Canonical (if c then t else s) :=
  .ite (hf h) h

/-- A step that is taken only where a condition does not hold. -/
theorem whenNot {c : Prop} [Decidable c] (hf : Canonical s → Canonical t) (h : Canonical s) : Canonical (if c then s else t) :=
  .ite h (hf h)

theorem iteFst {α : Type} {c : Prop} [Decidable c] {a b : State × α} (ha : Canonical a.1) (hb : Canonical b.1) :
    Canonical (if c then a else b).1 := by
  split
  · exact ha
  · exact hb

theorem foldl {α : Type} {f : State → α → State} {l : List α} (hf : ∀ u x, Canonical u → Canonical (f u x)) (h : Canonical s) :
    Canonical (l.foldl f s) :=
  List.foldlRecOn l f h (fun u hu x _ => hf u x hu)

/-- A fold that counts or flags something beside the state. -/
theorem foldlFst {α β : Type} {f : State × β → α → State × β} {l : List α} {a : State × β}
    (hf : ∀ b x, Canonical b.1 → Canonical (f b x).1) (h : Canonical a.1) : Canonical (l.foldl f a).1 :=
  List.foldlRecOn l f h (fun b hb x _ => hf b x hb)

end Canonical

/-! ### Answers of a command -/

/-- Where a command answers a next state, that state is in its canonical form. -/
def KeepsCanonical (o : Out) : Prop := ∀ t, o = .next t → Canonical t

namespace KeepsCanonical

variable {s t : State}

theorem done (h : Canonical t) : KeepsCanonical (Machine.done s t) := by
  rintro _ ⟨⟩
  exact h

theorem fault {r : Fault} : KeepsCanonical (.fault r) := by
  intro t ht
  cases ht

theorem refused {r : Refusal} : KeepsCanonical (.refused r) := by
  intro t ht
  cases ht

theorem ite {c : Prop} [Decidable c] {a b : Out} (ha : KeepsCanonical a) (hb : KeepsCanonical b) : KeepsCanonical (if c then a else b) := by
  split
  · exact ha
  · exact hb

end KeepsCanonical

end Sys2Proof.Claim
end

section
/-!
SUPPORT. The shared operations of cores, links, homes, faults and bays keep the canonical form of the memories.
-/

namespace Sys2Proof.Claim

open Machine

namespace Canonical

variable {s : State}

theorem modCore {n : Nat} {f : Core → Core} (h : Canonical s) : Canonical (s.modCore n f) := h

theorem modPanel {p : Nat} {f : Panel → Panel} (h : Canonical s) : Canonical (s.modPanel p f) := h

theorem modPort {p : Nat} {f : Port → Port} (h : Canonical s) : Canonical (s.modPort p f) := h

theorem modChannel {c : Nat} {f : Channel → Channel} (h : Canonical s) : Canonical (s.modChannel c f) := h

theorem modBay {b : Nat} {f : Bay → Bay} (h : Canonical s) : Canonical (s.modBay b f) := h

theorem modUnit {u : Nat} {f : UnitE → UnitE} (h : Canonical s) : Canonical (s.modUnit u f) := h

theorem modTask {n : Nat} {f : Task → Task} (h : Canonical s) : Canonical (s.modTask n f) := h

theorem modPattern {hd : Nat} {f : Pattern → Pattern} (h : Canonical s) : Canonical (s.modPattern hd f) := h

theorem modSession {c : Nat} {f : Session → Session} (h : Canonical s) : Canonical (s.modSession c f) := by
  unfold State.modSession
  split <;> exact h

theorem modClock {f : Clock → Clock} (h : Canonical s) : Canonical (s.modClock f) := h

theorem modPower {f : Power → Power} (h : Canonical s) : Canonical (s.modPower f) := h

theorem modBoot {f : Boot → Boot} (h : Canonical s) : Canonical (s.modBoot f) := h

theorem modConf {f : Conf → Conf} (h : Canonical s) : Canonical (s.modConf f) := h

theorem emit {code source : Nat} {data : List Byte} (h : Canonical s) : Canonical (s.emit code source data) := h

theorem pend {n : Nat} {ps : List Pend} (h : Canonical s) : Canonical (s.pend n ps) := h

theorem writeS {n : Nat} {r : BitVec 5} {lat : Nat} {v : BitVec 64} (h : Canonical s) : Canonical (s.writeS n r lat v) :=
  .ite h h

theorem readWeak {n : Nat} {spans : List (Nat × Nat)} (h : Canonical s) : Canonical (s.readWeak n spans) :=
  .ite h (.modP h fun _ hx => List.foldlRecOn (motive := fun y : Phys => Memory.wf y.mem = true) _ _ hx fun _ hy _ _ => hy)

theorem appear {ports : List PortFact} (h : Canonical s) : Canonical (s.appear ports) :=
  .foldl (fun _ _ k => .foldl (fun _ _ k => .modP k) k) h

theorem bufWrite {n off : Nat} {bs : List Byte} (h : Canonical s) : Canonical (s.bufWrite n off bs) :=
  .modP h fun _ hx => Memory.wf_writeN _ _ _ hx

theorem stir {n : Nat} (h : Canonical s) : Canonical (s.stir n) := by
  unfold State.stir
  split <;> exact h

theorem freeCores {cs : List Nat} (h : Canonical s) : Canonical (s.freeCores cs) := h

theorem endTask {t status : Nat} (h : Canonical s) : Canonical (s.endTask t status) :=
  .foldl (fun _ _ k => k) h

theorem programFault {n rule detail : Nat} (h : Canonical s) : Canonical (s.programFault n rule detail) :=
  .ite (.endTask h) (.endTask h)

theorem sendIdle {p : Nat} {nak : Bool} (h : Canonical s) : Canonical (s.sendIdle p nak) := h

theorem sendOne {p : Nat} (h : Canonical s) : Canonical (s.sendOne p) := by
  unfold State.sendOne
  refine .ite h ?_
  split
  · exact h
  · dsimp only
    split <;> exact h

theorem drainPort {p : Nat} (h : Canonical s) : Canonical (s.drainPort p) :=
  .when (fun k => .sendIdle k) (.foldl (fun _ _ k => .sendOne k) h)

theorem portWait {p : Nat} {w : Waiting} (h : Canonical s) : Canonical (s.portWait p w) :=
  .drainPort h

theorem portSend {p : Nat} {m : LinkMsg} (h : Canonical s) : Canonical (s.portSend p m) :=
  .portWait h

theorem noteRelays (h : Canonical s) : Canonical s.noteRelays :=
  .foldl (fun _ _ k => k) h

theorem fwSend {a code task : Nat} {data : List Byte} (h : Canonical s) : Canonical (s.fwSend a code task data) := by
  unfold State.fwSend
  split
  · exact h
  · exact .foldl (fun _ _ k => .portSend k) h

theorem fwTell {code task : Nat} {data : List Byte} (h : Canonical s) : Canonical (s.fwTell code task data) :=
  .foldl (fun _ _ k => .fwSend k) h

theorem placeRead {p : Place} {len : Nat} (h : Canonical s) : Canonical (s.placeRead p len) := by
  unfold State.placeRead
  split
  · exact .readWeak h
  · exact h

theorem noteWrite {c off len : Nat} {byOther : Bool} (h : Canonical s) : Canonical (s.noteWrite c off len byOther) :=
  .ite h h

theorem homeWrite {p : Place} {writer : Nat} {bs : List Byte} (h : Canonical s) : Canonical (s.homeWrite p writer bs) := by
  unfold State.homeWrite
  split
  · refine .hbmWrite ?_
    exact .ite h h
  · exact .ite h (.ite (.noteWrite (.bufWrite h)) h)
  · exact h

theorem acquire {n scope : Nat} (h : Canonical s) : Canonical (s.acquire n scope) := h

theorem answer {owner : Nat} {r : TallyReq} (h : Canonical s) : Canonical (s.answer owner r) :=
  .ite h (.stir h)

theorem serviceTally {owner t : Nat} (h : Canonical s) : Canonical (s.serviceTally owner t) :=
  .foldl (fun _ _ k => .ite (.answer k) k) (.foldl (fun _ _ k => .answer k) h)

theorem addTally {owner t : Nat} {v : BitVec 32} (h : Canonical s) : Canonical (s.addTally owner t v) :=
  .serviceTally h

theorem request {owner : Nat} {r : TallyReq} (h : Canonical s) : Canonical (s.request owner r) :=
  .serviceTally h

theorem send {x : Txn} (h : Canonical s) : Canonical (s.send x) := by
  unfold State.send
  dsimp only
  split
  · exact .stir h
  · exact h

theorem modTxn {id : Nat} {f : Txn → Txn} (h : Canonical s) : Canonical (s.modTxn id f) := h

theorem dropTxn {id : Nat} (h : Canonical s) : Canonical (s.dropTxn id) := h

theorem launch {n : Nat} {x : Txn} {yellow : Bool} (h : Canonical s) : Canonical (s.launch n x yellow) := by
  unfold State.launch
  split
  · split
    · exact .programFault h
    · dsimp only
      split
      · exact .send h
      · exact .whenNot (fun k => .portWait k) (.send h)
  · exact .send h

theorem sendHeld {n : Nat} (h : Canonical s) : Canonical (s.sendHeld n) :=
  .foldl (fun _ _ k => by
    refine .ite k ?_
    dsimp only
    split
    · exact k
    · exact .portWait k) h

theorem sendAdd {n a : Nat} {v : BitVec 32} {origin : Origin} (h : Canonical s) : Canonical (s.sendAdd n a v origin) := by
  unfold State.sendAdd
  dsimp only
  split
  · exact .ite (.addTally h) (.launch h)
  · exact .launch h

theorem release {n a : Nat} {v : BitVec 32} {waits : List Nat} {origin : Origin} (h : Canonical s) :
    Canonical (s.release n a v waits origin) :=
  .ite (.sendAdd h) h

theorem changeUnit {u : Nat} {st : UState} {cause : Nat} {mgmt : Bool} (h : Canonical s) : Canonical (s.changeUnit u st cause mgmt) := h

theorem setUnit {u : Nat} {st : UState} {cause : Nat} {mgmt : Bool} (h : Canonical s) : Canonical (s.setUnit u st cause mgmt) := h

theorem detected {t cause unit : Nat} (h : Canonical s) : Canonical (s.detected t cause unit) := by
  unfold State.detected
  split
  · exact h
  · exact .ite h (.ite (.endTask h) (.fwTell (.emit (.foldl (fun _ _ k => k) h))))

theorem startDrain {u : Nat} {target : UState} {cause : Nat} (h : Canonical s) : Canonical (s.startDrain u target cause) :=
  .when (fun k => .noteRelays k) (.setUnit (.modUnit (.ite (.foldl (fun _ _ k => k) h) (.ite h h))))

theorem retire {p cause : Nat} (h : Canonical s) : Canonical (s.retire p cause) := by
  unfold State.retire
  split
  iterate 2 exact h
  all_goals exact .startDrain h

theorem blame {p : Nat} (h : Canonical s) : Canonical (s.blame p) :=
  .when (fun k => .retire k) (.modPh h)

theorem coreError {p cause : Nat} (h : Canonical s) : Canonical (s.coreError p cause) := by
  unfold State.coreError
  split
  · exact .whenNot (fun k => .blame k) (.detected h)
  · exact h

theorem remap {m : List (Nat × Nat)} (h : Canonical s) : Canonical (s.remap m) :=
  .ite h (.foldl (fun _ _ k => k) (.foldl (fun _ _ k => k) h))

theorem noteWritten {b : Nat} (h : Canonical s) : Canonical (s.noteWritten b) := by
  unfold State.noteWritten
  split <;> exact h

theorem wear {b : Nat} (h : Canonical s) : Canonical (s.wear b) := by
  unfold State.wear
  split
  · exact h
  · exact .ite h (.when (fun k => .emit (.modBay k)) (.ite h h))

theorem cartWrite {b bytes : Nat} {f : Cartridge → Cartridge} (h : Canonical s) : Canonical (s.cartWrite b bytes f) := by
  unfold State.cartWrite
  split
  · exact h
  · exact .wear (.ite (.noteWritten h) h)

theorem mirrorWrite {bytes : Nat} {f : Cartridge → Cartridge} (h : Canonical s) : Canonical (s.mirrorWrite bytes f) :=
  .foldl (fun _ _ k => .ite (.cartWrite k) k) h

theorem storeObject {hd : Hash} {data : List Byte} (h : Canonical s) : Canonical (s.storeObject hd data) :=
  .mirrorWrite h

theorem removeObject {hd : Hash} (h : Canonical s) : Canonical (s.removeObject hd) :=
  .mirrorWrite h

theorem makeTarget {b bytes : Nat} (h : Canonical s) : Canonical (s.makeTarget b bytes) := h

theorem mounted {b : Nat} {c : Cartridge} (h : Canonical s) : Canonical (s.mounted b c) :=
  .wear (.noteWritten (.ite h h))

theorem mount {b : Nat} (h : Canonical s) : Canonical (s.mount b) := by
  unfold State.mount
  split
  · exact h
  · refine .ite h (.ite h (.ite h ?_))
    split
    · exact .ite (.makeTarget (.mounted h)) (.ite h (.ite (.makeTarget (.mounted h)) (.ite (.makeTarget (.mounted h)) (.mounted h))))
    · exact .ite (.mounted h) (.mounted h)

theorem mountAll (h : Canonical s) : Canonical s.mountAll :=
  .ite (.mount (.mount h)) (.mount (.mount h))

theorem bayFails {b : Nat} (h : Canonical s) : Canonical (s.bayFails b) :=
  .ite h h

theorem resynced {b : Nat} (h : Canonical s) : Canonical (s.resynced b) := by
  unfold State.resynced
  split
  · exact h
  · exact .changeUnit (.modBay (.cartWrite h))

theorem mgmtChange {kind path : Nat} {value : List Byte} (h : Canonical s) : Canonical (s.mgmtChange kind path value) := h

end Canonical

end Sys2Proof.Claim
end

section
/-!
SUPPORT. The matrix engine, held turns, deliveries, strands and cables keep the canonical form of the memories.
-/

namespace Sys2Proof.Claim

open Machine

namespace Canonical

variable {s : State}

theorem tagRead {n e : Nat} (h : Canonical s) : Canonical (s.tagRead n e) :=
  .readWeak h

theorem entryRead {n e : Nat} (h : Canonical s) : Canonical (s.entryRead n e) :=
  .readWeak h

theorem accWrite {n e : Nat} {p : List Int × Int} (h : Canonical s) : Canonical (s.accWrite n e p) :=
  .modCore (.modP (.tagRead h))

theorem accAdd {n e : Nat} {p : List Int × Int} (h : Canonical s) : Canonical (s.accAdd n e p) := by
  unfold State.accAdd
  exact .whenNot (fun k => .modCore (.modP k)) (.modP (.entryRead h))

theorem accClear {n e : Nat} (h : Canonical s) : Canonical (s.accClear n e) :=
  .modCore (.modP h)

theorem outData {n e : Nat} {o : OutRow} {old : List Byte} (h : Canonical s) : Canonical (s.outData n e o old).1 :=
  .entryRead h

theorem outRow {n lim e : Nat} {o : OutRow} (h : Canonical s) : Canonical (s.outRow n lim e o) :=
  .whenNot (fun k => .pend k) (.entryRead (.modCore (.ite h h)))

theorem foldlFold {α : Type} {g : Fold → α → Fold} {f : Fold} {l : List α} (hg : ∀ f x, Canonical f.s → Canonical (g f x).s)
    (h : Canonical f.s) :
    Canonical (l.foldl g f).s :=
  List.foldlRecOn (motive := fun f : Fold => Canonical f.s) l g h (fun f hf x _ => hg f x hf)

theorem row {f : Fold} {n b m t : Nat} (h : Canonical f.s) : Canonical (f.row n b m t).s := by
  unfold Fold.row
  dsimp only
  split
  · exact h
  · split
    · split
      · exact .modCore (.modP h)
      · exact .modP h
    · exact .modP h

theorem rows {f : Fold} {n b c : Nat} {time : Nat → Nat} (h : Canonical f.s) :
    Canonical ((List.range c).foldl (fun f i => f.row n b i (time i)) f).s :=
  .foldlFold (fun _ _ k => .row k) h

theorem pass {f : Fold} {n id t0 nc w j : Nat} {t : TileDesc} {b : TileBase} (h : Canonical f.s) :
    Canonical (f.pass n id t0 t b nc w j).s := by
  unfold Fold.pass
  dsimp only
  split
  · exact .foldl (fun _ _ k => .modCore (.outRow k)) (.rows h)
  · exact .rows h

theorem block {f : Fold} {n id t0 nc w : Nat} {t : TileDesc} {b : TileBase} (h : Canonical f.s) :
    Canonical (f.block n id t0 t b nc w).s :=
  .foldlFold (f := { f with since := [], spills := 0 }) (fun _ _ k => .pass k) h

theorem tile {f : Fold} {n id t0 : Nat} {t : TileDesc} {b : TileBase} (h : Canonical f.s) : Canonical (f.tile n id t0 t b).s :=
  .foldlFold (fun _ _ k => .foldlFold (fun _ _ k => .block k) k) h

theorem addWork {n t : Nat} {w : MWork} (h : Canonical s) : Canonical (s.addWork n t w) := h

theorem enginePass {n lim id t : Nat} {m : MSlot} {diag : Bool} {x w : Nat} (h : Canonical s) :
    Canonical (s.enginePass n lim id t m diag x w) :=
  .addWork (.foldl (fun _ _ k => .ite (.accAdd k) (.accWrite k)) h)

theorem engineDrain {n lim id t : Nat} {m : MSlot} {o : Nat} {ranges : List Nat} (h : Canonical s) :
    Canonical (s.engineDrain n lim id t m o ranges) :=
  .foldl (fun _ _ k => .when (fun k => .accClear k) (.modCore (.outRow k))) h

theorem engineMon {n lim id t : Nat} {m : MSlot} {a : Nat} (h : Canonical s) : Canonical (s.engineMon n lim id t m a) :=
  .addWork (.modCore (.ite h h))

theorem engineTile {n lim id t : Nat} {d : List Byte} {b : TileBase} {ranges : List Nat} (h : Canonical s) :
    Canonical (s.engineTile n lim id t d b ranges) :=
  .tile (f := { s := s, lim := lim }) h

theorem engineRescaled {n id : Nat} {entries : List Nat} (h : Canonical s) : Canonical (s.engineRescaled n id entries) :=
  .modP h

theorem engineOp {n lim : Nat} {op : EngineOp} (h : Canonical s) : Canonical (s.engineOp n lim op) := by
  cases op with
  | pass => exact .enginePass h
  | drain => exact .engineDrain h
  | mon => exact .engineMon h
  | tile => exact .engineTile h
  | rescaled => exact .engineRescaled h
  | output => exact h

theorem engineEvent {n : Nat} {op : EngineOp} (h : Canonical s) : Canonical (s.engineEvent n op) :=
  .modCore (.engineOp h)

theorem engineIssue {n : Nat} {op : EngineOp} (h : Canonical s) : Canonical (s.engineIssue n op) :=
  .modCore (.engineOp h)

theorem settleAnew {n lim : Nat} {b : EngineBase} (h : Canonical s) : Canonical (s.settleAnew n lim b) :=
  .modP h

theorem resettle {n t : Nat} (h : Canonical s) : Canonical (s.resettle n t) := by
  unfold State.resettle
  dsimp only
  split
  · exact h
  · exact .modCore (.ite h (.settleAnew h))

theorem portWrite {n off : Nat} {bs : List Byte} (h : Canonical s) : Canonical (s.portWrite n off bs) :=
  .bufWrite h

theorem land {n : Nat} {d : Dest} (h : Canonical s) : Canonical (s.land n d) := by
  cases d with
  | bytes | mout => exact .portWrite h
  | _ => exact h

theorem landDue {n t : Nat} {p : Pend → Bool} (h : Canonical s) : Canonical (s.landDue n t p) :=
  .foldl (fun _ _ k => .land k) h

theorem disarm {n : Nat} {x : Issue} (h : Canonical s) : Canonical (s.disarm n x) := by
  unfold State.disarm
  split
  · exact .ite h h
  · exact h

theorem askTallies {rows : List (Nat × Issue)} (h : Canonical s) : Canonical (s.askTallies rows) :=
  .foldl (fun _ _ k => .serviceTally k) (.foldl (fun _ _ k => k) (.foldl (fun _ _ k => .request k) (.foldl (fun _ _ k => k) h)))

theorem beginHold {rows : List (Nat × Issue)} (h : Canonical s) : Canonical (s.beginHold rows) :=
  .askTallies (.foldl (fun _ _ k => .disarm k) h)

theorem landTo {n t f : Nat} (h : Canonical s) : Canonical (s.landTo n t f) := by
  induction f generalizing s with
  | zero => exact h
  | succ f ih =>
    unfold State.landTo
    split
    · exact h
    · exact .ite (ih (.landDue h)) h

theorem countDrained {m cycles : Nat} (h : Canonical s) : Canonical (s.countDrained m cycles) := h

theorem drainCycle {m : Nat} (h : Canonical s) : Canonical (s.drainCycle m) :=
  .landTo (.countDrained (.resettle h))

theorem drainPass {m cycles : Nat} (h : Canonical s) : Canonical (s.drainPass m cycles) :=
  .countDrained (.foldl (fun _ _ k => .drainCycle k) h)

theorem advance {n : Nat} {ms : List Nat} (h : Canonical s) : Canonical (s.advance n ms) := by
  refine .foldl (fun _ _ k => .landDue k) (.foldl (fun _ _ k => .landDue k) (.foldl (fun _ _ k => k) ?_))
  exact .foldl (fun _ _ k => .modCore (.modP k)) (.foldl (fun _ _ k => .resettle k) h)

theorem networkPass {n : Nat} (h : Canonical s) : Canonical (s.networkPass n) :=
  .modCore (.landDue h)

theorem countHeld {m : Nat} (h : Canonical s) : Canonical (s.countHeld m) :=
  .modCore (.modP h)

theorem heldStep {n : Nat} (h : Canonical s) : Canonical (s.heldStep n) :=
  .foldl (fun _ _ k => .networkPass (.countHeld k)) h

theorem lateStep {n : Nat} (h : Canonical s) : Canonical (s.lateStep n) :=
  .foldl (fun _ _ k => k) h

theorem closeTurn {n : Nat} (h : Canonical s) : Canonical (s.closeTurn n) :=
  .foldl (fun _ _ k => k) h

theorem lateHold {n : Nat} {l : Late} (h : Canonical s) : Canonical (s.lateHold n l) :=
  .ite h h

theorem sequenceCycles {n c : Nat} (h : Canonical s) : Canonical (s.sequenceCycles n c) := by
  induction c generalizing s with
  | zero => exact h
  | succ c ih => exact .ite (ih (.lateStep (.heldStep h))) h

theorem issueSlot {n : Nat} {i : Instr} {act : State → State} (ha : ∀ u, Canonical u → Canonical (act u)) (h : Canonical s) :
    Canonical (s.issueSlot n i act) := by
  refine .ite h (.ite ?_ (.beginHold h))
  split
  · exact .programFault h
  · exact ha _ (.readWeak h)

theorem actRibPut {b : BSlot} (h : Canonical s) : Canonical (actRibPut b s) :=
  .foldl (fun _ _ k => k) h

theorem actBMove {b : BSlot} {ranges : List Nat} (h : Canonical s) : Canonical (actBMove b ranges s) :=
  .foldl (fun _ _ k => .send k) (.modCore (.readWeak h))

theorem shortWrite {n kind addr loc : Nat} {data : List Byte} (h : Canonical s) : Canonical (s.shortWrite n kind addr loc data) :=
  .launch h

theorem actSpPut {b : BSlot} (h : Canonical s) : Canonical (actSpPut b s) :=
  .shortWrite (.readWeak h)

theorem launchBurst {n : Nat} {x : Txn} (h : Canonical s) : Canonical (s.launchBurst n x) :=
  .launch h

theorem sendRead {n : Nat} {x : Txn} {line : Bool} (h : Canonical s) : Canonical (s.sendRead n x line) := by
  unfold State.sendRead
  dsimp only
  split
  · exact .send (.ite h h)
  · exact .ite (.launch (.ite h h)) (.launchBurst (.ite h h))

theorem sendBurst {n k : Nat} {e : DEntry} {u : Burst} (h : Canonical s) : Canonical (s.sendBurst n k e u) :=
  .ite (.sendRead h) (.launchBurst (.readWeak h))

theorem modCable {n : Nat} {f : Cable → Cable} (h : Canonical s) : Canonical (s.modCable n f) := h

theorem sendLoad {n : Nat} {k : Cable} {b : CBurst} (h : Canonical s) : Canonical (s.sendLoad n k b) :=
  .launchBurst h

theorem sendStore {n : Nat} {k : Cable} {b : CBurst} (h : Canonical s) : Canonical (s.sendStore n k b) :=
  .launchBurst (.modCable (.readWeak h))

theorem sendCable {n q : Nat} (h : Canonical s) : Canonical (s.sendCable n q) := by
  unfold State.sendCable
  split
  · exact h
  · split
    · exact .sendLoad h
    · exact .sendStore h
    · exact h

theorem orderedSignals {n q : Nat} (h : Canonical s) : Canonical (s.orderedSignals n q) :=
  .foldl (fun _ _ k => by
    refine .ite ?_ k
    dsimp only
    split
    · exact .addTally k
    · exact k) h

theorem extWrite {n : Nat} {ws : List (Nat × List Byte)} (h : Canonical s) : Canonical (s.extWrite n ws) :=
  .foldl (fun _ _ k => .bufWrite k) h

theorem getLands {x : Txn} {n q : Nat} {e : DEntry} {u : Burst} (h : Canonical s) : Canonical (s.getLands x n q e u) :=
  .orderedSignals (.modCore (.ite (.extWrite h) h))

theorem loadLands {x : Txn} {n : Nat} {k : Cable} (h : Canonical s) : Canonical (s.loadLands x n k) := by
  unfold State.loadLands
  dsimp only
  split
  · exact .modCable (.ite (.extWrite h) h)
  · refine .ite (.ite (.addTally ?_) (.release ?_)) ?_
    iterate 2 exact .modCable (.modCable (.ite (.extWrite h) (.extWrite h)))
    exact .modCable (.ite (.extWrite h) (.extWrite h))

theorem countRanges {rs : List Nat} {up : Bool} (h : Canonical s) : Canonical (s.countRanges rs up) :=
  .foldl (fun _ _ k => k) h

theorem putPerformed {n q : Nat} {e : DEntry} (h : Canonical s) : Canonical (s.putPerformed n q e) := by
  unfold State.putPerformed
  refine .orderedSignals ?_
  split
  · exact .when (fun k => .modCore (.countRanges (.modCore k))) (.modCore (.ite (.countRanges h) h))
  · exact .modCore (.ite (.countRanges h) h)

theorem sendBursts {n ep id addr : Nat} {data : List Byte} (h : Canonical s) : Canonical (s.sendBursts n ep id addr data) :=
  .foldl (fun _ _ k => .launch k) h

theorem granted {n ep window : Nat} {wrapAt : Option Nat} {pos : Nat} (h : Canonical s) : Canonical (s.granted n ep window wrapAt pos) := by
  unfold State.granted
  split
  · exact h
  · refine .sendBursts ?_
    refine .readWeak ?_
    split
    · exact .sendBursts h
    · exact h

theorem strandWrite {c off : Nat} {data : List Byte} {writer : Nat} (h : Canonical s) : Canonical (s.strandWrite c off data writer) := by
  unfold State.strandWrite
  refine .ite h ?_
  split
  · exact .noteWrite (.bufWrite h)
  · dsimp only
    split
    · exact .noteWrite (.bufWrite h)
    · exact .modCore (.when (fun k => .modCore k) (.when (fun k => .modCore k) (.noteWrite (.bufWrite h))))

theorem readIndexWrite {n i : Nat} {value : Word} (h : Canonical s) : Canonical (s.readIndexWrite n i value) :=
  .ite (.programFault h) h

theorem storePerformed {n : Nat} (h : Canonical s) : Canonical (s.storePerformed n) := by
  unfold State.storePerformed
  dsimp only
  split
  · exact h
  · refine .ite ?_ h
    split
    · exact .addTally h
    · exact h

theorem performed {x : Txn} (h : Canonical s) : Canonical (s.performed x) := by
  unfold State.performed
  split
  · exact .putPerformed h
  · exact .storePerformed h
  · exact h

theorem storeAcked {n : Nat} (h : Canonical s) : Canonical (s.storeAcked n) := by
  unfold State.storeAcked
  dsimp only
  split
  · exact h
  · exact .ite (.release h) h

theorem runPass {m : MSlot} {diag : Bool} (h : Canonical s) : Canonical (s.runPass m diag) :=
  .engineIssue h

theorem reduce {v : VSlot} {fl : Nat → Nat → FRes} {int : Int → Int → Int} {emptyF : Nat} {emptyI : Int} (h : Canonical s) :
    Canonical (v.reduce fl int emptyF emptyI s) :=
  .ite h h

theorem actVRedsum {v : VSlot} (h : Canonical s) : Canonical (actVRedsum v s) := .reduce h

theorem actVRedmax {v : VSlot} (h : Canonical s) : Canonical (actVRedmax v s) := .reduce h

theorem actVRedmin {v : VSlot} (h : Canonical s) : Canonical (actVRedmin v s) := .reduce h

theorem sieve {v : VSlot} (h : Canonical s) : Canonical (v.sieve s) :=
  .ite h (.ite h h)

theorem actVSinit {v : VSlot} (h : Canonical s) : Canonical (actVSinit v s) :=
  .ite h h

theorem actVSt {v : VSlot} (h : Canonical s) : Canonical (actVSt v s) :=
  .foldl (fun _ _ k => k) h

theorem actV {i : Instr} (h : Canonical s) : Canonical (actV i s) := by
  cases i with
  | vRedsum => exact .actVRedsum h
  | vRedmax => exact .actVRedmax h
  | vRedmin => exact .actVRedmin h
  | vSieve => exact .sieve h
  | vSinit => exact .actVSinit h
  | vSetvl | vGetvl => exact .writeS h
  | vSt => exact .actVSt h
  | _ => exact h

theorem actCableRun {d : DSlot} (h : Canonical s) : Canonical (actCableRun d s) := by
  unfold Machine.actCableRun
  dsimp only
  split <;> exact h

theorem cableLoad {n : Nat} {k : Cable} (h : Canonical s) : Canonical (s.cableLoad n k) := h

theorem cableStore {n : Nat} {k : Cable} (h : Canonical s) : Canonical (s.cableStore n k) := h

theorem landEpi {n : Nat} {ps : List Pend} (h : Canonical s) : Canonical (s.landEpi n ps) :=
  .foldl (fun _ _ k => .foldl (fun _ _ k => .land k) k) h

theorem settleEpi {n : Nat} (h : Canonical s) : Canonical (s.settleEpi n) :=
  .modCable (.landEpi h)

theorem cablePass {n : Nat} {k : Cable} (h : Canonical s) : Canonical (s.cablePass n k) := by
  unfold State.cablePass
  refine .modCable (.when (fun k => .foldl (fun _ _ k => .bufWrite (.outData k)) k) (.modCore (.modP ?_)))
  exact .rows (.readWeak h)

theorem epiRun {n : Nat} {prog : List Instr} (h : Canonical s) : Canonical (s.epiRun n prog) :=
  .foldl (fun _ _ k => .modCore (.actV (.readWeak (.landDue k)))) h

theorem cableChunk {n : Nat} {k : Cable} (h : Canonical s) : Canonical (s.cableChunk n k) :=
  .modCable (.modCore (.foldl (fun _ _ k => .land k) (.epiRun h)))

theorem lendPips {n : Nat} (h : Canonical s) : Canonical (s.lendPips n) := h

theorem actFifoPop {b : BSlot} {parityOk : Bool} (h : Canonical s) : Canonical (actFifoPop b parityOk s) := by
  unfold Machine.actFifoPop
  dsimp only
  split
  · exact .writeS h
  · refine .ite ?_ (.modTask (.emit ?_))
    all_goals
      split
      · exact .stir (.pend (.modCore (.writeS h)))
      · exact .modCore (.writeS h)

end Canonical

end Sys2Proof.Claim
end

section
/-!
SUPPORT. Rails, settings, cast-on and the end of a task keep the canonical form of the memories.
-/

namespace Sys2Proof.Claim

open Machine

namespace Canonical

variable {s : State}

theorem enter {st : MState} {cause : Nat} (h : Canonical s) : Canonical (s.enter st cause) :=
  .ite h h

theorem resolveMark {gt : Nat} {old : Nat → Nat} (h : Canonical s) : Canonical (s.resolveMark gt old) := h

theorem startPanels (h : Canonical s) : Canonical s.startPanels :=
  .foldl (fun _ _ k => k) h

theorem wake (h : Canonical s) : Canonical s.wake := by
  unfold State.wake
  split
  · exact .enter h
  · exact .enter (.startPanels h)
  · exact h
  · exact h

/-- What a loss of the rails leaves of a physical core is no byte of its buffers: R139, R385. -/
theorem wf_keptPhys (ps : List (Nat × Phys)) : ∀ p ∈ keptPhys ps, Memory.wf p.2.mem = true := by
  intro p hp
  obtain ⟨q, -, rfl⟩ := List.mem_map.1 hp
  rfl

theorem survivors : Canonical s.survivors := ⟨Memory.wf_nil, wf_keptPhys s.phys⟩

theorem powerDown {cause : Nat} : Canonical (s.powerDown cause) :=
  .enter .survivors

theorem dead : Canonical s.dead := ⟨Memory.wf_nil, wf_keptPhys s.phys⟩

theorem verifyImage (h : Canonical s) : Canonical s.verifyImage :=
  .ite h (.ite h h)

theorem stageLoads (h : Canonical s) : Canonical s.stageLoads := by
  unfold State.stageLoads
  refine .ite h ?_
  split
  · exact h
  · exact .foldl (fun _ _ k => by
        refine .ite k ?_
        split <;> exact k) h

theorem raiseMinSvn (h : Canonical s) : Canonical s.raiseMinSvn :=
  .ite h h

theorem bootNote {step : Nat} (h : Canonical s) : Canonical (s.bootNote step) := h

theorem suspectChannels {cs : List Nat} (h : Canonical s) : Canonical (s.suspectChannels cs) :=
  .ite h (.bootNote (.foldl (fun _ _ k => k) h))

theorem bootServe {cause : Nat} {f : BootFacts} (h : Canonical s) : Canonical (s.bootServe cause f) := by
  refine .ite h (.whenNot (fun k => ?_) (.modBoot (.suspectChannels h)))
  exact .raiseMinSvn (.stageLoads (.modPower (.when (fun k => .bootNote k) (.mountAll (.enter k)))))

theorem moduleReset : Canonical s.moduleReset :=
  .ite (.enter (.verifyImage (.modBoot .survivors))) (.when (fun k => .bootServe k) (.verifyImage (.modBoot .survivors)))

theorem cancelTask {t : Nat} (h : Canonical s) : Canonical (s.cancelTask t) := by
  unfold State.cancelTask
  split
  · exact h
  · split
    · exact h
    · exact .ite h (.ite h (.foldl (fun _ _ k => k) h))
    · exact .ite h (.ite h (.foldl (fun _ _ k => k) h))
    · exact h
    · exact h

theorem endSession {cid : Nat} (h : Canonical s) : Canonical (s.endSession cid) :=
  .foldl (fun _ _ k => .cancelTask k) h

theorem respond {b : List Byte} (h : Canonical s) : Canonical (s.respond b) := h

theorem placeUnit {u : Nat} {st : UState} {cause : Nat} {mgmt : Bool} (h : Canonical s) : Canonical (s.placeUnit u st cause mgmt) :=
  .when (fun k => .noteRelays k) (.setUnit (.modUnit (.ite (.foldl (fun _ _ k => .ite k k) h) (.ite h h))))

theorem applyPending {u : Nat} (h : Canonical s) : Canonical (s.applyPending u) := by
  unfold State.applyPending
  split
  · exact .placeUnit h
  · exact h

theorem requestUnit {u code : Nat} {now : Bool} {generation : Nat} (h : Canonical s) : Canonical (s.requestUnit u code now generation) := by
  unfold State.requestUnit
  dsimp only
  split
  · exact h
  · exact .ite h (.respond (.ite (.ite h (.startDrain h)) (.ite (.placeUnit h) h)))

theorem enrolCert {r : EnrolReq} (h : Canonical s) : Canonical (s.enrolCert r) :=
  .ite h (.respond (.ite (.foldl (fun _ _ k => .endSession k) h) h))

theorem setStaged {es : List (List Byte)} (h : Canonical s) : Canonical (s.setStaged es) :=
  .respond (.mgmtChange (.mirrorWrite h))

theorem setCap {v path : Nat} (h : Canonical s) : Canonical (s.setCap v path).1 :=
  .iteFst h (.iteFst h h)

theorem setEffecter {e : Effecter} {v : Nat} (h : Canonical s) : Canonical (s.setEffecter e v) := by
  cases e with
  | cap => exact .setCap h
  | _ => exact h

theorem resetRequest {c : BitVec 32} (h : Canonical s) : Canonical (s.resetRequest c) :=
  .ite .moduleReset h

theorem readModReg {a : Nat} (h : Canonical s) : Canonical (s.readModReg a) :=
  .respond (.ite h h)

theorem applyRequest {i : Instr} (h : Canonical s) : Canonical (s.applyRequest i) := by
  unfold State.applyRequest
  split
  · exact .requestUnit h
  · exact .enrolCert h
  · exact .setStaged h
  · exact h
  · exact .setEffecter h
  · exact .resetRequest h
  · exact .readModReg h
  · exact h

theorem settle (h : Canonical s) : Canonical s.settle :=
  .ite h (.foldl (fun _ _ k => .applyRequest k) h)

theorem queueRequest {i : Instr} (h : Canonical s) : Canonical (s.queueRequest i) :=
  .ite h (.settle h)

theorem boundary {m : Manifest} (h : Canonical s) : Canonical (s.boundary m) :=
  .settle (.foldl (fun _ _ k => k) (.foldl (fun _ _ k => k) (.foldl (fun _ _ k => .applyPending k) h)))

theorem copyResidents {img : List Byte} {r : CoreRec} (h : Canonical s) : Canonical (s.copyResidents img r) :=
  .foldl (fun _ _ k => .bufWrite k) h

theorem installCore {p : Pattern} {r : CoreRec} {task : Nat} {job : BitVec 64} {residents : Bool} (h : Canonical s) :
    Canonical (s.installCore p r task job residents) :=
  .when (fun k => .copyResidents k) (.modP h fun _ hx => wf_remapRegions _ _ hx)

theorem fwWrite {a : Nat} {data : List Byte} (h : Canonical s) : Canonical (s.fwWrite a data) := by
  unfold State.fwWrite
  split
  · exact h
  · exact .foldl (fun _ _ k => .portWait (.send k)) h

theorem passToTwin {p : Pattern} {t : Task} (h : Canonical s) : Canonical (s.passToTwin p t) :=
  .ite (.fwSend h) h

theorem copyCarried {p : Pattern} (h : Canonical s) : Canonical (s.copyCarried p) :=
  .foldl (fun _ _ k => .fwWrite k) h

theorem placeInput {m : Manifest} {slot : Nat} {t : Task} (h : Canonical s) : Canonical (s.placeInput m slot t) := by
  unfold State.placeInput
  split
  · exact h
  · exact .ite (.hbmWrite h) (.fwWrite h)

theorem formatDefaults {m : Manifest} {first : Task} (h : Canonical s) : Canonical (s.formatDefaults m first) :=
  .ite (.hbmWrite (.hbmWrite h)) h

theorem tagBreaks {p : Pattern} {members : List Task} (h : Canonical s) : Canonical (s.tagBreaks p members) :=
  .ite (.foldl (fun _ _ k => k) h) h

theorem unmapped {p : Pattern} {nums : List Nat} (h : Canonical s) : Canonical (s.unmapped p nums) :=
  .foldl (fun _ _ k => k) h

theorem castOn {p : Pattern} {members : List Task} {replay : Bool} (h : Canonical s) : Canonical (s.castOn p members replay) := by
  unfold State.castOn
  split
  · exact h
  · refine .ite (.unmapped h) (.when (fun k => .foldl (fun _ _ k => k) (.tagBreaks k)) (.foldl (fun _ _ k => k) ?_))
    refine .formatDefaults (.foldl (fun _ _ k => .placeInput k) (.whenNot (fun k => .foldl (fun _ _ k => .passToTwin k) k) ?_))
    exact .modPattern (.foldl (fun _ _ k => .installCore k) h)

theorem castOnMapped {p : Pattern} {members : List Task} {replay : Bool} {shift : Nat} (h : Canonical s) :
    Canonical (s.castOnMapped p members replay shift) :=
  .ite (.castOn (.remap (.boundary h))) (.ite (.castOn (.boundary h)) h)

theorem formatRule {m : Manifest} {numBad : Bool} (h : Canonical s) : Canonical (s.formatRule m numBad) :=
  .ite h (.hbmWrite h)

theorem castOnOldest {hd : Nat} {byWindow : Bool} {twinQueued : Option Nat} (h : Canonical s) :
    Canonical (s.castOnOldest hd byWindow twinQueued) := by
  unfold State.castOnOldest
  split
  · exact .ite h (.ite h (.ite h (.ite (.modTask (.passToTwin h)) (.ite h (.castOnMapped h)))))
  · exact h

theorem landAll {n : Nat} (h : Canonical s) : Canonical (s.landAll n) :=
  .landTo h

theorem restoreTallies {t n : Nat} (h : Canonical s) : Canonical (s.restoreTallies t n).1 :=
  .foldl (fun _ _ k => k) h

theorem residues {t n : Nat} (h : Canonical s) : Canonical (s.residues t n).1 :=
  .foldl (fun _ _ k => k) (.foldl (fun _ _ k => k) h)

theorem deliver {t : Nat} {mirrored : Bool} (h : Canonical s) : Canonical (s.deliver t mirrored) := by
  unfold State.deliver
  split
  · exact h
  · split
    · exact h
    · exact .modTask (.ite h (.foldl (fun _ _ k => k) (.formatRule h)))

theorem endRun {p : Pattern} {t status flags gt : Nat} {remote : Option (List Byte)} (h : Canonical s) :
    Canonical (s.endRun p t status flags gt remote) := by
  unfold State.endRun
  split
  · exact h
  · refine .ite h ?_
    split <;> exact h

theorem markCores {ps : List Nat} (h : Canonical s) : Canonical (s.markCores ps) :=
  .foldl (fun _ _ k => k) h

theorem dualDecide {ts : List Nat} (h : Canonical s) : Canonical (s.dualDecide ts) := by
  unfold State.dualDecide
  dsimp only
  split
  · exact h
  · exact .foldl (fun _ _ k => k) h
  · exact .ite (.foldl (fun _ _ k => .deliver k) h) (.foldl (fun _ _ k => k) (.foldl (fun _ _ k => .foldl (fun _ _ k => k) k) h))
  · refine .foldl (fun _ _ k => ?_) h
    split
    · exact .ite (.markCores (.deliver k)) (.ite (.markCores (.deliver k)) (.foldl (fun _ _ k => k) k))
    · exact .foldl (fun _ _ k => k) k

theorem chargeSide {side : Bool} (h : Canonical s) : Canonical (s.chargeSide side) :=
  .ite h h

theorem loseState {hd : Nat} (h : Canonical s) : Canonical (s.loseState hd) := by
  unfold State.loseState
  split <;> exact h

theorem mirrorDecide {t : Nat} {result : List Byte} (h : Canonical s) : Canonical (s.mirrorDecide t result) := by
  unfold State.mirrorDecide
  split
  · exact h
  · split
    · refine .ite ?_ (.ite (.chargeSide (.markCores (.deliver (.ite h h)))) (.chargeSide (.chargeSide (.loseState h))))
      dsimp only
      split
      · exact .copyCarried (.chargeSide (.deliver h))
      · exact .chargeSide (.deliver h)
    · exact h

theorem sendVote {t : Nat} (h : Canonical s) : Canonical (s.sendVote t) := by
  unfold State.sendVote
  split
  · exact .fwSend h
  · exact h

theorem recast {p : Pattern} {t : Task} (h : Canonical s) : Canonical (s.recast p t) := by
  unfold State.recast
  refine .ite ?_ (.ite ?_ (.castOnMapped h))
  all_goals exact .ite (.unmapped (.boundary h)) (.ite (.castOn (.remap (.boundary h))) h)

theorem recordStalemate {task : Nat} {cs : List Nat} (h : Canonical s) : Canonical (s.recordStalemate task cs) :=
  .foldl (fun _ _ k => k) h

end Canonical

end Sys2Proof.Claim
end

section
/-!
SUPPORT. Links, time, packets and the commands of clients keep the canonical form of the memories.
-/

namespace Sys2Proof.Claim

open Machine

namespace Canonical

variable {s : State}

theorem judgeLead (h : Canonical s) : Canonical s.judgeLead :=
  .ite h h

theorem selfLost (h : Canonical s) : Canonical s.selfLost := h

theorem replayLost {t : Nat} (h : Canonical s) : Canonical (s.replayLost t) := by
  unfold State.replayLost
  split
  · exact h
  · exact .ite (.detected h) h

theorem takeBack {t : Nat} (h : Canonical s) : Canonical (s.takeBack t) := by
  unfold State.takeBack
  split <;> exact h

theorem loseTwin (h : Canonical s) : Canonical s.loseTwin :=
  .ite h (.foldl (fun _ _ k => .takeBack k) (.foldl (fun _ _ k => .deliver k) (.judgeLead h)))

theorem moveWaiting {w : Waiting} (h : Canonical s) : Canonical (s.moveWaiting w) := by
  unfold State.moveWaiting
  split
  · exact .portWait h
  · exact h
  · exact h

theorem dropLink {p cause unit : Nat} (h : Canonical s) : Canonical (s.dropLink p cause unit) :=
  .foldl (fun _ _ k => .detected k) h

theorem failPort {p : Nat} (h : Canonical s) : Canonical (s.failPort p) := by
  refine .when (fun k => .selfLost k) (.when (fun k => .loseTwin k) (.foldl (fun _ _ k => .moveWaiting k) ?_))
  exact .when (fun k => .fwTell k) (.noteRelays (.dropLink (.ite h h)))

theorem formationBegins (h : Canonical s) : Canonical s.formationBegins := by
  unfold State.formationBegins
  refine .modConf (.foldl ?_ (.foldl ?_ h))
  · exact fun _ _ k => .modPort k
  · exact fun _ _ k => .dropLink k

theorem stepGt {top : Nat} (h : Canonical s) : Canonical (s.stepGt top) :=
  .ite h h

theorem portRoles {n : Nat} {twin : Bool} (h : Canonical s) : Canonical (s.portRoles n twin) :=
  .foldl (fun _ _ k => by
    refine .ite ?_ (.ite k k)
    split
    · exact k
    · exact .ite k k) h

theorem answered {k : TxKind} {core tag : Nat} {data : List Byte} (h : Canonical s) : Canonical (s.answered k core tag data) := by
  unfold State.answered
  split
  · exact h
  · exact .ite (.ite h h) (.ite h (.performed h))

theorem farGrant {core ep : Nat} {wrapped : Bool} {dst : Nat} (h : Canonical s) : Canonical (s.farGrant core ep wrapped dst) := by
  unfold State.farGrant
  refine .ite (.send h) ?_
  dsimp only
  split
  · split
    · exact h
    · exact .sendBursts (.sendBursts h)
  · exact .granted h

theorem forward {p : Nat} {m : LinkMsg} {a : Nat} (h : Canonical s) : Canonical (s.forward p m a) := by
  unfold State.forward
  split
  · exact h
  · exact .portWait h

theorem arrive {p : Nat} {hd data : List Byte} (h : Canonical s) : Canonical (s.arrive p hd data) := by
  unfold State.arrive
  split
  · exact h
  · exact .ite (.ite (.ite (.farGrant h) (.answered h)) (.forward h)) (.ite (.send h) (.forward h))

theorem takeChunks {p f : Nat} {bs : List Byte} (h : Canonical s) : Canonical (s.takeChunks p f bs).1 := by
  induction f generalizing s bs with
  | zero => exact h
  | succ f ih =>
    unfold State.takeChunks
    exact .iteFst h (.iteFst h (.iteFst h (ih (.arrive h))))

theorem replayPort {p : Nat} (h : Canonical s) : Canonical (s.replayPort p) := h

theorem toRetrain {p c : Nat} (h : Canonical s) : Canonical (s.toRetrain p c) := h

theorem goBack {p : Nat} (h : Canonical s) : Canonical (s.goBack p) := by
  unfold State.goBack
  split
  · exact h
  · dsimp only
    split
    · exact .toRetrain (.replayPort (.modPort h))
    · exact .replayPort (.modPort h)

theorem releaseSwap {p : Nat} (h : Canonical s) : Canonical (s.releaseSwap p) := by
  unfold State.releaseSwap
  split
  · exact .ite h h
  · exact h

theorem sendObject {peer : Nat} {hd : Hash} (h : Canonical s) : Canonical (s.sendObject peer hd) := by
  unfold State.sendObject
  split
  · exact h
  · exact .foldl (fun _ _ k => .fwSend k) h

theorem heed {peer : Nat} {msg : List Byte} (h : Canonical s) : Canonical (s.heed peer msg) :=
  .ite (.detected h) (.ite (.noteRelays h) (.ite h (.ite h (.ite (.sendObject h) h))))

theorem loseModule {m : Nat} (h : Canonical s) : Canonical (s.loseModule m) :=
  .whenNot (fun k => .modConf k) (.foldl (fun _ _ k => .ite (.replayLost k) (.endTask k)) (.judgeLead h))

theorem cpRequest {i : Instr} (h : Canonical s) : Canonical (s.cpRequest i) :=
  .ite (.applyRequest h) h

theorem senseStates (h : Canonical s) : Canonical s.senseStates :=
  .ite h h

theorem noteOpen (h : Canonical s) : Canonical s.noteOpen :=
  .ite h h

theorem passUnits {units : Nat} (h : Canonical s) : Canonical (s.passUnits units) :=
  .ite h h

theorem tick (h : Canonical s) : Canonical s.tick :=
  .ite h (.senseStates (.noteOpen (.passUnits h)))

theorem panelFault {p : Nat} (h : Canonical s) : Canonical (s.panelFault p) :=
  .ite (.startDrain h) h

theorem markPanel {r : EpochReadings} {p : Nat} (h : Canonical s) : Canonical (s.markPanel r p) := by
  unfold State.markPanel
  extract_lets
  split
  extract_lets
  split
  extract_lets
  exact .when (fun k => .panelFault k) (.when (fun k => .emit k) (.when (fun k => .emit k) (.modPanel (.modPower h))))

theorem transmit {cid : Nat} {p : Packet} (h : Canonical s) : Canonical (s.transmit cid p) :=
  .modSession h

theorem reply {cid opcode : Nat} {tag : BitVec 32} {cmdSeq : Option (BitVec 32)} {status : Nat} {params : List Byte} (h : Canonical s) :
    Canonical (s.reply cid opcode tag cmdSeq status params) := by
  unfold State.reply
  split
  · exact h
  · exact .transmit (.modSession h)

theorem replyOob {cid opcode : Nat} {tag : BitVec 32} {status : Nat} {params : List Byte} (h : Canonical s) :
    Canonical (s.replyOob cid opcode tag status params) := by
  unfold State.replyOob
  split
  · exact h
  · exact .transmit h

theorem resend {cid : Nat} {p : Packet} (h : Canonical s) : Canonical (s.resend cid p) :=
  .transmit h

theorem seqGap {cid opcode : Nat} {tag : BitVec 32} (h : Canonical s) : Canonical (s.seqGap cid opcode tag) := by
  unfold State.seqGap
  split
  · exact h
  · exact .replyOob h

theorem takeAck {cid : Nat} {ack : BitVec 32} (h : Canonical s) : Canonical (s.takeAck cid ack) :=
  .modSession h

theorem submit {cid : Nat} {tag : BitVec 32} {lead input : List Byte} (h : Canonical s) : Canonical (s.submit cid tag lead input).1 := by
  unfold State.submit
  split
  · exact h
  · exact .modPower (.wake h)

theorem fetchResult {cid : Nat} {b : List Byte} (h : Canonical s) : Canonical (s.fetchResult cid b).1 := by
  unfold State.fetchResult
  refine .iteFst h ?_
  dsimp only
  split
  · exact h
  · refine .iteFst h ?_
    refine .iteFst h ?_
    refine .iteFst h ?_
    refine .ite ?_ h
    split <;> exact h

theorem cancel {cid : Nat} {b : List Byte} (h : Canonical s) : Canonical (s.cancel cid b).1 := by
  unfold State.cancel
  refine .iteFst h ?_
  split
  · exact h
  · split
    · exact .cancelTask h
    · exact .cancelTask h
    · exact .cancelTask h
    · exact h
    · exact h

theorem loadPattern {cid : Nat} {tag : BitVec 32} {lead data : List Byte} (h : Canonical s) :
    Canonical (s.loadPattern cid tag lead data).1 := by
  unfold State.loadPattern
  refine .iteFst h ?_
  split
  · exact h
  · exact .iteFst h (.iteFst h (.iteFst h (.wake h)))

theorem unloadPattern {b : List Byte} (h : Canonical s) : Canonical (s.unloadPattern b).1 := by
  unfold State.unloadPattern
  refine .iteFst h ?_
  dsimp only
  split
  · exact h
  · exact .iteFst h h

end Canonical

end Sys2Proof.Claim
end

section
/-!
SUPPORT. The check stage and the issue of rows, held cycles and loads keep the canonical form of the memories.
-/

namespace Sys2Proof.Claim

open Machine

namespace Canonical

variable {s : State}

theorem branch {c : CSlot} {taken : BitVec 64 → Bool} (h : Canonical s) : Canonical (c.branch taken s) :=
  .ite h h

theorem satisfied {c : CSlot} {tally scope : Nat} {take : Bool} (h : Canonical s) : Canonical (c.satisfied tally scope take s) := by
  unfold CSlot.satisfied
  dsimp only
  split
  · exact h
  · exact .acquire (.ite h h)

theorem actBankFlip {c : CSlot} (h : Canonical s) : Canonical (actBankFlip c s) :=
  .stir (.modCore (.satisfied h))

theorem lineFailed {p : Nat} {w : EccWord} {cause : Nat} (h : Canonical s) : Canonical (s.lineFailed p w cause) :=
  .ite (.retire (.coreError h)) (.modPh (.coreError h))

theorem sramUncorr {p : Nat} (h : Canonical s) : Canonical (s.sramUncorr p) := h

theorem rereadHold {n : Nat} {word : EccWord} {time : RereadTime} (h : Canonical s) : Canonical (s.rereadHold n word time) :=
  .ite h (.ite h (.lateHold h))

theorem lostTurn {n cycles : Nat} (h : Canonical s) : Canonical (s.lostTurn n cycles) :=
  .ite (.foldl (fun _ _ k => .modP k) h) h

theorem alu {c : CSlot} {lat : Nat} {f : BitVec 64 → BitVec 64 → BitVec 64} (h : Canonical s) : Canonical (c.alu lat f s) :=
  .writeS h

theorem watch {n : Nat} {x : Issue} (h : Canonical s) : Canonical (s.watch n x) := by
  unfold State.watch
  split
  · exact h
  · exact .ite h (.ite h h)

theorem passSlot {i : Instr} (h : Canonical s) : Canonical (s.passSlot i) := by
  cases i with
  | br | brZ | brNz | brNeg => exact .branch h
  | tallyWait | tallyTake => exact .satisfied h
  | bankFlip => exact .actBankFlip h
  | _ => exact h

theorem passRow {m : Nat} {x : Issue} {hd : Option (Nat × Nat)} (h : Canonical s) : Canonical (s.passRow m x hd) :=
  .modCore (.foldl (fun _ _ k => .passSlot k) (.modCore (.readWeak h)))

theorem stayOn {rows : List (Nat × Issue)} (h : Canonical s) : Canonical (s.stayOn rows) :=
  .foldl (fun _ _ k => k) (.beginHold (.foldl (fun _ _ k => k) h))

theorem noteFetch {fetch : List FetchFact} {m : Nat} (h : Canonical s) : Canonical (s.noteFetch fetch m) :=
  .ite (.modP h) h

theorem imemFailed {n : Nat} (h : Canonical s) : Canonical (s.imemFailed n) :=
  .lineFailed (.emit (.modPh h))

theorem askPips {n : Nat} {hs : List (Nat × Nat)} (h : Canonical s) : Canonical (s.askPips n hs) :=
  .ite h h

theorem checkStage {n now : Nat} {fetch : List FetchFact} {t : State} (h : Canonical s) (ht : s.checkStage n now fetch = some t) :
    Canonical t := by
  unfold State.checkStage at ht
  dsimp only at ht
  split at ht
  · cases ht
    exact .imemFailed h
  · split at ht
    · cases ht
    · split at ht <;> cases ht
      · exact .stayOn (.foldl (fun _ _ k => .askPips k) (.foldl (fun _ _ k => .noteFetch k) h))
      · exact .foldl (fun _ _ k => .passRow k) (.foldl (fun _ _ k => .askPips k) (.foldl (fun _ _ k => .noteFetch k) h))

theorem fillSkid {n k : Nat} {fetch : List FetchFact} {t : State} (h : Canonical s) (ht : s.fillSkid n fetch k = some t) : Canonical t := by
  induction k generalizing s with
  | zero => cases ht; exact h
  | succ k ih =>
    unfold State.fillSkid at ht
    split at ht
    · obtain ⟨u, hu, htu⟩ := Option.bind_eq_some_iff.1 ht
      exact ih (.checkStage h hu) htu
    · cases ht; exact h

theorem actC {i : Instr} (h : Canonical s) : Canonical (actC i s) := by
  cases i with
  | sAdd | sSub | sAnd | sOr | sXor | sShl | sShr | sSra | sSlt | sSltu | sSeq | sMul => exact .alu h
  | sLi | sLui | sLd | sRdreg => exact .writeS h
  | tallySig => exact .release h
  | _ => exact h

theorem actMBD {i : Instr} {ranges : List Nat} (h : Canonical s) : Canonical (actMBD i ranges s) := by
  cases i with
  | mmPass | mmDiag => exact .runPass h
  | mmTile | mmDrain => exact .engineIssue h
  | mmMon => exact .engineEvent h
  | ribPut => exact .actRibPut h
  | bMove => exact .actBMove h
  | spPut => exact .actSpPut h
  | spGet => exact .sendRead h
  | spSig => exact .release h
  | spWord => exact .shortWrite h
  | fifoPush => exact .stir h
  | fifoPop => exact .actFifoPop h
  | fifoStat => exact .writeS h
  | strandSend => exact .launch h
  | cableRun => exact .actCableRun h
  | _ => exact h

theorem actSlot {x : Instr × List Nat} (h : Canonical s) : Canonical (actSlot s x) :=
  .ite (.actC h) (.ite (.actV h) (.actMBD h))

theorem issueRows {rows : List (Nat × Checked)} (h : Canonical s) : Canonical (s.issueRows rows).1 := by
  unfold State.issueRows
  dsimp only
  split
  · exact .programFault h
  · refine .foldl (fun _ _ k => k) (.foldl (fun _ _ k => .foldl (fun _ _ k => .actSlot k) k) ?_)
    exact .foldl (fun _ _ k => .watch k) (.foldl (fun _ _ k => k) h)

theorem portReads {n : Nat} (h : Canonical s) : Canonical (s.portReads n) :=
  .foldl (fun _ _ k => .readWeak k) h

theorem slotCycle {n : Nat} (h : Canonical s) : Canonical (s.slotCycle n) := by
  unfold State.slotCycle
  refine .ite (.foldl (fun _ _ k => k) (.foldl (fun _ _ k => .askPips k) h)) ?_
  split
  · exact .programFault (.foldl (fun _ _ k => .askPips k) h)
  · refine .foldl (fun _ _ k => k) (.foldl (fun _ _ k => .foldl (fun _ _ k => .actSlot k) k) (.foldl (fun _ _ k => .readWeak k) ?_))
    exact .foldl (fun _ _ k => k) (.foldl (fun _ _ k => .foldl (fun _ _ k => .passSlot k) k) (.foldl (fun _ _ k => .askPips k) h))

theorem heldCycle {n : Nat} {fetch : List FetchFact} {t : State} (h : Canonical s) (ht : s.heldCycle n fetch = some t) : Canonical t := by
  unfold State.heldCycle at ht
  dsimp only at ht
  split at ht
  · cases ht
    exact .lateStep (.heldStep h)
  · split at ht
    · cases ht
      exact .slotCycle (.heldStep h)
    · obtain ⟨u, hu, rfl⟩ := Option.map_eq_some_iff.1 ht
      have kept : Canonical u := .checkStage (s := List.foldl _ _ _) (.foldl (fun _ _ k => .modCore k) (.heldStep h)) hu
      exact .foldl (fun _ _ k => .modCore k) kept

theorem heldCycles {n c : Nat} {fetch : List FetchFact} {t : State} (h : Canonical s) (ht : s.heldCycles n fetch c = some t) :
    Canonical t := by
  induction c generalizing s with
  | zero => cases ht; exact h
  | succ c ih =>
    unfold State.heldCycles at ht
    split at ht
    · obtain ⟨u, hu, htu⟩ := Option.bind_eq_some_iff.1 ht
      exact ih (.heldCycle h hu) htu
    · cases ht; exact h

theorem idlePass {n cycles : Nat} (h : Canonical s) : Canonical (s.idlePass n cycles) :=
  .ite (.drainPass h) h

theorem placeWeights {b : List Byte} (h : Canonical s) : Canonical (s.placeWeights b) :=
  .foldl (fun _ _ k => .hbmWrite k) h

theorem commit {l : Load} {warnings : List Byte} (h : Canonical s) : Canonical (s.commit l warnings) :=
  .when (fun k => .emit k) (.placeWeights h)

theorem answerLoad {l : Load} {status : Nat} {params : List Byte} (h : Canonical s) : Canonical (s.answerLoad l status params) := by
  unfold State.answerLoad
  split
  · exact .reply h
  · split
    · exact .ite h h
    · exact h

theorem askPeers {l : Load} {rest : List Load} (h : Canonical s) : Canonical (s.askPeers l rest) :=
  .foldl (fun _ _ k => .fwTell k) h

theorem bankRefused {n bank : Nat} (h : Canonical s) : Canonical (s.bankRefused n bank) :=
  .emit (.modCore (.modP h))

theorem napAll (h : Canonical s) : Canonical s.napAll :=
  .foldl (fun _ _ k => .modPh k) h

end Canonical

end Sys2Proof.Claim
end

section
/-!
SUPPORT. Debugging, objects, SPDM and the command protocol keep the canonical form of the memories.
-/

namespace Sys2Proof.Claim

open Machine

namespace Canonical

variable {s : State}

theorem putDebug {d : Debug} (h : Canonical s) : Canonical (s.putDebug d) := h

theorem pinDebug {hd : Nat} (h : Canonical s) : Canonical (s.pinDebug hd) :=
  .foldl (fun _ _ k => k) h

theorem setDebug {hd t : Nat} {f : Debug → Debug} (h : Canonical s) : Canonical (s.setDebug hd t f) :=
  .putDebug (.ite (.pinDebug h) h)

theorem releaseBreaks {cs : List Nat} {n : Option Nat} (h : Canonical s) : Canonical (s.releaseBreaks cs n) :=
  .foldl (fun _ _ k => k) h

theorem armBreaks {b : List Byte} (h : Canonical s) : Canonical (s.armBreaks b).1 :=
  .iteFst h (.setDebug h)

theorem disarmBreaks {b : List Byte} (h : Canonical s) : Canonical (s.disarmBreaks b).1 :=
  .setDebug h

theorem refereeMode {b : List Byte} {stop : Bool} (h : Canonical s) : Canonical (s.refereeMode b stop).1 :=
  .setDebug h

theorem resumeCores {b : List Byte} (h : Canonical s) : Canonical (s.resumeCores b).1 :=
  .releaseBreaks h

theorem stepCores {b : List Byte} (h : Canonical s) : Canonical (s.stepCores b).1 :=
  .iteFst h (.releaseBreaks h)

theorem debugArm {cid : Nat} {b : List Byte} (h : Canonical s) : Canonical (s.debugArm cid b).1 := by
  unfold State.debugArm
  split
  · exact h
  · split
    · exact .armBreaks h
    · exact .disarmBreaks h
    · exact .refereeMode h
    · exact .refereeMode h
    · exact .resumeCores h
    · exact .stepCores h

theorem putObject {lead data : List Byte} (h : Canonical s) : Canonical (s.putObject lead data).1 := by
  unfold State.putObject
  split
  · exact h
  · exact .iteFst h (.iteFst h (.storeObject h))

theorem deleteObject {b : List Byte} (h : Canonical s) : Canonical (s.deleteObject b).1 := by
  unfold State.deleteObject
  refine .iteFst h ?_
  dsimp only
  split
  · exact h
  · exact .iteFst h (.removeObject h)

theorem powerCap {b : List Byte} (h : Canonical s) : Canonical (s.powerCap b).1 := by
  unfold State.powerCap
  exact .iteFst h (.iteFst h (.iteFst h (.setCap h)))

theorem retireBay {b : Nat} (h : Canonical s) : Canonical (s.retireBay b) :=
  .placeUnit h

theorem cartRetire {b : List Byte} (h : Canonical s) : Canonical (s.cartRetire b).1 := by
  unfold State.cartRetire
  split
  · exact h
  · dsimp only
    split
    · exact .retireBay h
    · exact .iteFst h (.retireBay h)

theorem spdmVersion {cid : Nat} {req : List Byte} (h : Canonical s) : Canonical (s.spdmVersion cid req).1 :=
  .iteFst h (.modSession h)

theorem spdmCapabilities {cid : Nat} {x : Session} {req : List Byte} (h : Canonical s) : Canonical (s.spdmCapabilities cid x req).1 :=
  .iteFst h (.iteFst h (.modSession h))

theorem spdmAlgorithms {cid : Nat} {x : Session} {req : List Byte} (h : Canonical s) : Canonical (s.spdmAlgorithms cid x req).1 :=
  .iteFst h (.iteFst h (.modSession h))

theorem spdmDigests {cid : Nat} {x : Session} {req : List Byte} (h : Canonical s) : Canonical (s.spdmDigests cid x req).1 :=
  .iteFst h (.iteFst h (.modSession h))

theorem spdmCertificate {cid : Nat} {x : Session} {req : List Byte} (h : Canonical s) : Canonical (s.spdmCertificate cid x req).1 :=
  .iteFst h (.iteFst h (.modSession h))

theorem spdmChallenge {cid : Nat} {x : Session} {req : List Byte} (h : Canonical s) : Canonical (s.spdmChallenge cid x req).1 :=
  .iteFst h (.iteFst h (.modSession h))

theorem spdmMeasurements {cid : Nat} {x : Session} {req : List Byte} (h : Canonical s) : Canonical (s.spdmMeasurements cid x req).1 :=
  .iteFst h (.iteFst h (.iteFst (.modSession h) (.modSession h)))

theorem spdm {cid : Nat} {req : List Byte} (h : Canonical s) : Canonical (s.spdm cid req).1 := by
  unfold State.spdm
  split
  · exact h
  · refine .iteFst h (.iteFst (.spdmVersion h) (.iteFst h (.iteFst (.spdmCapabilities h) (.iteFst (.spdmAlgorithms h) ?_))))
    exact .iteFst (.spdmDigests h) (.iteFst (.spdmCertificate h) (.iteFst (.spdmChallenge h) (.iteFst (.spdmMeasurements h) h)))

theorem evidence {cid : Nat} {b : List Byte} (h : Canonical s) : Canonical (s.evidence cid b).1 :=
  .spdm h

theorem alertTo {addr : Nat} {a : Alert} (h : Canonical s) : Canonical (s.alertTo addr a) := h

theorem answerOne {cid op : Nat} {b : List Byte} (h : Canonical s) : Canonical (s.answerOne cid op b).1 := by
  unfold State.answerOne
  split
  case h_3 => exact .fetchResult h
  case h_4 => exact .cancel h
  case h_5 => exact .unloadPattern h
  case h_8 => exact .deleteObject h
  case h_9 => exact .evidence h
  case h_11 => exact .powerCap h
  case h_14 => exact .cartRetire h
  case h_15 => exact .debugArm h
  all_goals exact h

theorem answer1 {p : Packet} {a : Answer} (h : Canonical s) : Canonical (s.answer1 p a) :=
  .reply h

theorem failPacket {p : Packet} {status : Nat} (h : Canonical s) : Canonical (s.failPacket p status) :=
  .modSession (.answer1 h)

theorem wholeCommand {p : Packet} {lead data : List Byte} (h : Canonical s) : Canonical (s.wholeCommand p lead data) := by
  unfold State.wholeCommand
  dsimp only
  split
  · exact .answer1 (.submit (.modSession h))
  · split
    · exact .answer1 (.loadPattern (.modSession h))
    · exact .modSession (.loadPattern (.modSession h))
  · exact .answer1 (.putObject (.modSession h))

theorem takeData {p : Packet} {m : Multi} {chunk : List Byte} (h : Canonical s) : Canonical (s.takeData p m chunk) :=
  .ite (.failPacket h) (.ite (.modSession h) (.wholeCommand h))

theorem firstPacket {p : Packet} {n : Nat} (h : Canonical s) : Canonical (s.firstPacket p n) := by
  unfold State.firstPacket
  refine .ite (.failPacket h) ?_
  split
  · exact .failPacket h
  · exact .takeData h

theorem laterPacket {p : Packet} {m : Multi} (h : Canonical s) : Canonical (s.laterPacket p m) :=
  .ite (.failPacket h) (.takeData h)

theorem processPacket {p : Packet} (h : Canonical s) : Canonical (s.processPacket p) := by
  unfold State.processPacket
  dsimp only
  split
  · exact h
  · split
    · exact .ite (.ite h (.modSession h)) (.ite (.failPacket h) (.ite (.failPacket h) (.laterPacket h)))
    · refine .ite (.failPacket h) (.ite (.failPacket h) (.ite (.failPacket h) (.ite (.failPacket h) ?_)))
      split
      · exact .firstPacket h
      · refine .ite (.failPacket h) (.ite (.ite ?_ (.answer1 h)) (.answer1 (.answerOne h)))
        exact .endSession (.alertTo (.answer1 h))

theorem inOrder {p : Packet} {f : Nat} (h : Canonical s) : Canonical (s.inOrder p f) := by
  induction f generalizing s p with
  | zero => exact h
  | succ f ih =>
    have k : Canonical ((s.modSession p.cid fun x => { x with expected := x.expected + 1 }).processPacket p) := .processPacket (.modSession h)
    unfold State.inOrder
    dsimp only
    split
    · exact k
    · split
      · exact k
      · exact ih (.modSession k)

theorem sequenced {p : Packet} {x : Session} (h : Canonical s) : Canonical (s.sequenced p x) := by
  unfold State.sequenced
  refine .ite (.inOrder h) ?_
  refine .ite (.reply h) ?_
  refine .ite (.ite h (.modSession h)) ?_
  refine .ite (.seqGap h) ?_
  refine .ite h ?_
  split
  · exact .resend h
  · exact .seqGap h

theorem outOfBand {p : Packet} {x : Session} (h : Canonical s) : Canonical (s.outOfBand p x) :=
  .ite (.ite (.foldl (fun _ _ k => by
    split
    · exact .resend k
    · exact k) (.replyOob h)) (.reply h)) (.reply h)

theorem packetIn {p : Packet} (h : Canonical s) : Canonical (s.packetIn p) := by
  unfold State.packetIn
  split
  · exact h
  · refine .ite (.modSession (.modSession h)) ?_
    refine .ite (.replyOob (.modSession h)) ?_
    dsimp only
    split
    · exact .takeAck (.modSession h)
    · exact .ite (.outOfBand (.takeAck (.modSession h))) (.sequenced (.takeAck (.modSession h)))

end Canonical

end Sys2Proof.Claim
end

section
/-!
SUPPORT. Every command that is no slot and no packet keeps the canonical form of the memories.
-/

namespace Sys2Proof.Claim

open Machine

namespace Canonical

variable {s : State}

theorem modBook {f : Scorebook → Scorebook} (h : Canonical s) : Canonical (s.modBook f) := h

theorem bootFail {step source : Nat} (h : Canonical s) : Canonical (s.bootFail step source) := h

theorem withChannels {c : List (Nat × Channel)} (h : Canonical s) : Canonical { s with channels := c } := h

theorem modCal {f : Calib → Calib} (h : Canonical s) : Canonical (s.modCal f) := h

theorem askSwap {p lane : Nat} (h : Canonical s) : Canonical (s.askSwap p lane) := h

theorem grantPips {n : Nat} (h : Canonical s) : Canonical (s.grantPips n) := h

theorem summarise (h : Canonical s) : Canonical s.summarise := h

theorem uncorrectable {p : Nat} {w : EccWord} {o : Reread} (h : Canonical s) :
    Canonical (s.modPh p (fun x => x.uncorrectable w o)) :=
  .modPh h fun x hx => by
    unfold Phys.uncorrectable
    split <;> exact hx

end Canonical

namespace KeepsCanonical

variable {s : State}

theorem execDeliveryLastBurst {core : CoreId} {id : Nat} (h : Canonical s) : KeepsCanonical (execDeliveryLastBurst core id s) := by
  unfold Machine.execDeliveryLastBurst
  dsimp only
  split
  · exact .ite (.done h) (.done h)
  · exact .ite (.done h) (.done h)
  · exact .fault

theorem execShortPathComplete {core : CoreId} {id : Nat} (h : Canonical s) : KeepsCanonical (execShortPathComplete core id s) := by
  unfold Machine.execShortPathComplete
  dsimp only
  split
  · exact .fault
  · exact .ite (.done h) (.done h)

theorem execDmaBurstSend {core : CoreId} {q : BitVec 2} (h : Canonical s) : KeepsCanonical (execDmaBurstSend core q s) := by
  unfold Machine.execDmaBurstSend
  refine .ite (.done h) ?_
  split
  · exact .done (.sendCable h)
  · split
    · exact .done h
    · exact .ite (.done h) (.done (.sendBurst h))

theorem execReadReq {id : Nat} (h : Canonical s) : KeepsCanonical (execReadReq id s) := by
  unfold Machine.execReadReq
  split
  · exact .fault
  · refine .ite (.done h) ?_
    split
    · split
      · exact .done (.programFault h)
      · exact .ite (.done (.portSend (.dropTxn (.placeRead h)))) (.done h)
    · exact .done h
    · split
      · exact .done (.programFault h)
      · exact .done (.placeRead h)

theorem execReadResp {id : Nat} (h : Canonical s) : KeepsCanonical (execReadResp id s) := by
  unfold Machine.execReadResp
  split
  · exact .fault
  · exact .ite (.done h) (.done h)

theorem execExternalBurstWrite {id : Nat} (h : Canonical s) : KeepsCanonical (execExternalBurstWrite id s) := by
  unfold Machine.execExternalBurstWrite
  split
  · exact .fault
  · refine .ite (.done h) ?_
    dsimp only
    split
    · split
      · exact .done h
      · exact .done (.getLands h)
    · exact .done (.modCore (.dropTxn (.bufWrite h)))
    · split
      · exact .done h
      · exact .ite (.done h) (.done (.loadLands h))
    · exact .done h

theorem execStrandReq {id : Nat} (h : Canonical s) : KeepsCanonical (execStrandReq id s) := by
  unfold Machine.execStrandReq
  split
  · exact .fault
  · refine .ite (.done h) ?_
    dsimp only
    split
    · exact .done (.modCore (.dropTxn h))
    · exact .done (.dropTxn h)

theorem execStrandGrant {core : CoreId} {skein : BitVec 4} (h : Canonical s) : KeepsCanonical (execStrandGrant core skein s) := by
  rw [Machine.execStrandGrant]
  split
  · exact .done h
  · split
    · exact .done h
    · refine .ite (.done (.granted (.modCore h))) ?_
      split
      · exact .done (.modCore h)
      · refine .done (.portWait ?_)
        split
        · exact .portWait (.modCore h)
        · exact .modCore h

theorem execStrandData {id : Nat} (h : Canonical s) : KeepsCanonical (execStrandData id s) := by
  unfold Machine.execStrandData
  split
  · exact .fault
  · refine .ite (.done h) ?_
    split
    · dsimp only
      split
      · exact .done (.portSend (.dropTxn (.strandWrite h)))
      · exact .done (.modTxn (.strandWrite h))
    · exact .done h

theorem execGrantComplete {core : CoreId} {skein : BitVec 4} (h : Canonical s) : KeepsCanonical (execGrantComplete core skein s) := by
  unfold Machine.execGrantComplete
  dsimp only
  split
  · exact .done h
  · exact .ite (.done h) (.done (.ite (.addTally h) h))

theorem execStrandSendComplete {core : CoreId} {ep : BitVec 4} (h : Canonical s) :
    KeepsCanonical (execStrandSendComplete core ep s) := by
  unfold Machine.execStrandSendComplete
  dsimp only
  split
  · exact .done h
  · refine .ite (.done h) ?_
    split
    · exact .done (.release h)
    · exact .done h

theorem execWrite {id : Nat} (h : Canonical s) : KeepsCanonical (execWrite id s) := by
  unfold Machine.execWrite
  split
  · exact .fault
  · refine .ite (.done h) ?_
    split
    · split
      · exact .done (.programFault h)
      · exact .done (.portSend (.dropTxn (.homeWrite h)))
    · exact .done h
    · split
      · exact .done (.modTxn (.readIndexWrite h))
      · split
        · exact .done (.programFault h)
        · exact .done (.performed (.modTxn (.homeWrite h)))

theorem execWriteAck {id : Nat} (h : Canonical s) : KeepsCanonical (execWriteAck id s) := by
  unfold Machine.execWriteAck
  split
  · exact .fault
  · refine .ite (.done h) ?_
    dsimp only
    split
    · exact .done (.ite h h)
    · exact .done h
    · exact .done (.storeAcked h)
    · exact .done h
    · exact .done h

theorem execTallyAdd {id : Nat} (h : Canonical s) : KeepsCanonical (execTallyAdd id s) := by
  unfold Machine.execTallyAdd
  split
  · exact .fault
  · refine .ite (.done h) ?_
    dsimp only
    split
    · exact .ite (.done h) (.done (.programFault h))
    · refine .ite (.done (.programFault h)) ?_
      split
      · exact .done (.portSend (.dropTxn (.ite h (.addTally h))))
      · exact .done (.modTxn (.ite h (.addTally h)))
      · exact .done (.dropTxn (.ite h (.addTally h)))

theorem execTallyRelease {core : CoreId} (h : Canonical s) : KeepsCanonical (execTallyRelease core s) := by
  unfold Machine.execTallyRelease
  dsimp only
  split
  · exact .ite (.done h) (.done h)
  · exact .done h

theorem execAckedRelease {core : CoreId} (h : Canonical s) : KeepsCanonical (execAckedRelease core s) := by
  unfold Machine.execAckedRelease
  dsimp only
  split
  · exact .done h
  · exact .done (.sendHeld (.sendAdd h))

theorem execDmaComplete {core : CoreId} {q : BitVec 2} (h : Canonical s) : KeepsCanonical (execDmaComplete core q s) := by
  unfold Machine.execDmaComplete
  dsimp only
  split
  · exact .done h
  · exact .ite (.done h) (.ite (.done (.release h)) (.done h))

theorem execRescale {core : CoreId} (h : Canonical s) : KeepsCanonical (execRescale core s) := by
  unfold Machine.execRescale
  dsimp only
  split
  · exact .done h
  · exact .done (.lateHold (.engineEvent h))

theorem execMmTileOutputDone {core : CoreId} (h : Canonical s) : KeepsCanonical (execMmTileOutputDone core s) := by
  unfold Machine.execMmTileOutputDone
  dsimp only
  split
  · exact .done h
  · exact .done (.modCore (.engineEvent (.landDue h)))

theorem execCableStageUnit {core : CoreId} {stage : BitVec 2} (h : Canonical s) : KeepsCanonical (execCableStageUnit core stage s) := by
  unfold Machine.execCableStageUnit
  dsimp only
  split
  · exact .done h
  · refine .ite (.done h) ?_
    refine .ite (.done (.modCable (.ite (.settleEpi h) h))) ?_
    refine .done ?_
    split
    · exact .cableLoad (.stir h)
    · exact .cablePass (.stir h)
    · exact .cableChunk (.stir h)
    · exact .cableStore (.stir h)

theorem execCableComplete {core : CoreId} (h : Canonical s) : KeepsCanonical (execCableComplete core s) := by
  unfold Machine.execCableComplete
  dsimp only
  split
  · exact .done h
  · exact .ite (.done h) (.done (.release (.when (fun k => .lendPips k) (.modCore (.settleEpi h)))))

theorem execTaskCastOn {task : CastOnFacts} (h : Canonical s) : KeepsCanonical (execTaskCastOn task s) := by
  unfold Machine.execTaskCastOn
  split
  · exact .ite (.done (.castOnOldest h)) (.done h)
  · exact .done h

theorem execStartTimeReached {core : CoreId} (h : Canonical s) : KeepsCanonical (execStartTimeReached core s) := by
  unfold Machine.execStartTimeReached
  dsimp only
  split
  · exact .ite (.done (.foldl (fun _ _ k => k) h)) (.done h)
  · exact .done h

theorem execTaskCastOff {task : Nat} {peers : PeerReport} (h : Canonical s) : KeepsCanonical (execTaskCastOff task peers s) := by
  unfold Machine.execTaskCastOff
  split
  · exact .done h
  · split
    · exact .done h
    · extract_lets _ _ _ landed
      have landedKept : Canonical landed := .foldl (fun _ _ k => .landAll k) h
      refine .ite (.done h) (.ite ?_ ?_)
      · split
        · exact .done (.ite (.coreError landedKept) (.detected landedKept))
        · exact .done (.detected landedKept)
      · split
        next s1 _ hfold =>
          have restored : Canonical s1 := by
            rw [← show _ = s1 from congrArg Prod.fst hfold]
            exact .foldlFst (fun _ _ k => .residues (.restoreTallies k)) landedKept
          extract_lets _ ended voters voted
          have endedKept : Canonical ended := .boundary (.freeCores (.foldl (fun _ _ k => .endRun k) restored))
          have votedKept : Canonical voted := .when (fun k => .foldl (fun _ _ k => .sendVote k) k) endedKept
          have delivered : Canonical (voters.foldl (fun s m => s.deliver m false) ended) := .foldl (fun _ _ k => .deliver k) endedKept
          refine .ite (.done (.dualDecide endedKept)) (.ite (.ite ?_ (.ite ?_ (.done delivered))) (.done delivered))
          · exact .done (.foldl (fun _ _ k => .mirrorDecide k) votedKept)
          · exact .done (.foldl (fun _ _ k => .modTask k) votedKept)

theorem execTaskReplay {task : Nat} (h : Canonical s) : KeepsCanonical (execTaskReplay task s) := by
  unfold Machine.execTaskReplay
  split
  · exact .done h
  · split
    · exact .done h
    · exact .ite (.done h) (.ite (.done h) (.done (.recast h)))

theorem execDualSecondRun {task : Nat} (h : Canonical s) : KeepsCanonical (execDualSecondRun task s) := by
  unfold Machine.execDualSecondRun
  split
  · exact .done h
  · split
    · exact .done h
    · exact .ite (.done h) (.ite (.done h) (.done (.recast h)))

theorem execMirrorVote {task : Nat} {d q : Hash} {result : List Byte} (h : Canonical s) :
    KeepsCanonical (execMirrorVote task d q result s) := by
  unfold Machine.execMirrorVote
  split
  · exact .done h
  · split
    · exact .ite (.done (.deliver h)) (.done h)
    · exact .ite (.done (.mirrorDecide h)) (.done h)
    · exact .done (.deliver h)
    · exact .done h
    · exact .done h

theorem execStalemate {task : Nat} (h : Canonical s) : KeepsCanonical (execStalemate task s) := by
  unfold Machine.execStalemate
  split
  · exact .done h
  · exact .ite (.done h) (.done (.endTask (.recordStalemate h)))

theorem execTrainAttempt {port : PortId} {r : TrainResult} (h : Canonical s) : KeepsCanonical (execTrainAttempt port r s) := by
  unfold Machine.execTrainAttempt
  refine .ite (.done h) ?_
  split
  · exact .ite (.done (.failPort h)) (.done h)
  · exact .ite (.done (.noteRelays h)) (.done h)

theorem execFwMsg {peer : Nat} {msg : List Byte} (h : Canonical s) : KeepsCanonical (execFwMsg peer msg s) := by
  unfold Machine.execFwMsg
  dsimp only
  split <;> exact .done (.heed h)

theorem execEffecterSet {effecter : Effecter} {value : Nat} (h : Canonical s) : KeepsCanonical (execEffecterSet effecter value s) := by
  unfold Machine.execEffecterSet
  refine .ite (.done h) ?_
  split
  · exact .done (.cpRequest h)
  · exact .done (.cpRequest h)
  · exact .done (.queueRequest h)
  · exact .done (.queueRequest h)

theorem execBeacon {port : PortId} {t1 : Nat} {far : Nat × Nat} {t4 : Nat} (h : Canonical s) :
    KeepsCanonical (execBeacon port t1 far t4 s) := by
  unfold Machine.execBeacon
  refine .ite (.done h) ?_
  dsimp only
  split
  · exact .done h
  · exact .ite (.done h) (.done (.ite h h))

theorem execCastonUnlockedTimeout {task : Nat} (h : Canonical s) : KeepsCanonical (execCastonUnlockedTimeout task s) := by
  unfold Machine.execCastonUnlockedTimeout
  split
  · exact .ite (.done h) (.done h)
  · exact .done h

theorem execEyeCheck {port : PortId} {openings corrected : List Nat} (h : Canonical s) :
    KeepsCanonical (execEyeCheck port openings corrected s) := by
  unfold Machine.execEyeCheck
  refine .ite (.done h) (.ite (.done (.modCal h)) ?_)
  extract_lets _ _ _ checked
  have k : Canonical checked := .modCal (.modPort h)
  split
  · exact .done k
  · exact .ite (.ite (.done k) (.done (.emit (.modPort k)))) (.ite (.done k) (.ite (.done (.modPort k)) (.done (.askSwap k))))

theorem execLaneSwap {port : PortId} {tx : Bool} (h : Canonical s) : KeepsCanonical (execLaneSwap port tx s) := by
  unfold Machine.execLaneSwap
  dsimp only
  split
  · exact .done h
  · exact .ite (.done h) (.done h)

theorem execSwapDone {port : PortId} (h : Canonical s) : KeepsCanonical (execSwapDone port s) := by
  unfold Machine.execSwapDone
  dsimp only
  split
  · exact .done h
  · exact .ite (.done h) (.done h)

theorem execSwapReqResend {port : PortId} (h : Canonical s) : KeepsCanonical (execSwapReqResend port s) := by
  unfold Machine.execSwapReqResend
  dsimp only
  split
  · exact .done h
  · exact .ite (.done h) (.done h)

theorem execTaskForgotten {task : Nat} (h : Canonical s) : KeepsCanonical (execTaskForgotten task s) := by
  unfold Machine.execTaskForgotten
  split
  · exact .done h
  · exact .ite (.done h) (.done h)

theorem execEccReread {core : CoreId} {word : EccWord} {outcome : Reread} {time : RereadTime} (h : Canonical s) :
    KeepsCanonical (execEccReread core word outcome time s) := by
  unfold Machine.execEccReread
  refine .ite (.done h) ?_
  dsimp only
  split
  · exact .done (.rereadHold (.uncorrectable h))
  · exact .done (.lineFailed (.sramUncorr (.whenNot (fun k => .lostTurn k) (.uncorrectable h))))

theorem execExternalReread {phys : PhysId} {word : EccWord} {outcome : Reread} (h : Canonical s) :
    KeepsCanonical (execExternalReread phys word outcome s) := by
  unfold Machine.execExternalReread
  dsimp only
  split
  · exact .done (.uncorrectable h)
  · exact .done (.lineFailed (.sramUncorr (.uncorrectable h)))

theorem execScrubRead {phys : PhysId} {word : EccWord} {result : EccResult} {outcome : Reread} (h : Canonical s) :
    KeepsCanonical (execScrubRead phys word result outcome s) := by
  unfold Machine.execScrubRead
  refine .ite (.done h) ?_
  dsimp only
  split
  · exact .done (.modPh h)
  · exact .done (.modPh (.modPh h))
  · split
    · exact .done (.modPh (.uncorrectable (.modPh h)))
    · exact .done (.lineFailed (.sramUncorr (.uncorrectable (.modPh h))))

theorem execPatternLoad (h : Canonical s) : KeepsCanonical (execPatternLoad s) := by
  unfold Machine.execPatternLoad
  split
  · exact .done h
  · refine .ite (.done h) ?_
    refine .ite (.done (.askPeers h)) ?_
    split
    · exact .done (.answerLoad h)
    · split
      · exact .done (.answerLoad h)
      · exact .done (.answerLoad h)
      · exact .done (.answerLoad (.commit h))

theorem execIbankLoad {core : CoreId} {bank : BitVec 1} {segment : Nat} (h : Canonical s) :
    KeepsCanonical (execIbankLoad core bank segment s) := by
  unfold Machine.execIbankLoad
  dsimp only
  split
  · exact .ite (.done (.bankRefused h)) (.ite (.done h) (.done (.modCore (.modP h))))
  · exact .ite (.done (.bankRefused h)) (.done h)
  · exact .done h

theorem execStandbyRequest (h : Canonical s) : KeepsCanonical (execStandbyRequest s) := by
  unfold Machine.execStandbyRequest
  refine .ite (.done h) ?_
  split <;> exact .done h

theorem execHandshake {cid src : Nat} {cert : Hash} {chain : ClientChain} (h : Canonical s) :
    KeepsCanonical (execHandshake cid src cert chain s) := by
  unfold Machine.execHandshake
  refine .ite (.done h) ?_
  refine .ite (.done h) ?_
  refine .ite ?_ (.done h)
  split <;> exact .done h

theorem execSessionExpired {cid : Nat} (h : Canonical s) : KeepsCanonical (execSessionExpired cid s) := by
  unfold Machine.execSessionExpired
  split
  · exact .done h
  · exact .ite (.done (.emit (.endSession h))) (.done h)

theorem execCommandTimeout {cid : Nat} (h : Canonical s) : KeepsCanonical (execCommandTimeout cid s) := by
  unfold Machine.execCommandTimeout
  split
  · exact .done h
  · exact .done (.foldl (fun _ _ k => .reply k) (.modSession h))

theorem execSeqGap {cid : Nat} (h : Canonical s) : KeepsCanonical (execSeqGap cid s) := by
  unfold Machine.execSeqGap
  split
  · exact .done h
  · split
    · exact .done h
    · exact .ite (.done (.seqGap (.modSession h))) (.done h)

theorem execIssueCycle {core : CoreId} {fetch : List FetchFact} {ports : List PortFact} (h : Canonical s) :
    KeepsCanonical (execIssueCycle core fetch ports s) := by
  unfold Machine.execIssueCycle
  have appeared : Canonical (s.appear ports) := .appear h
  refine .ite (.done appeared) ?_
  split
  · exact .refused
  next filled hfill =>
    have kept : Canonical filled := .fillSkid appeared hfill
    refine .ite (.done kept) ?_
    dsimp only
    refine .ite (.done (.issueRows (.portReads kept))) ?_
    split
    · exact .refused
    next u hcheck =>
      exact .done (.advance (.checkStage (s := List.foldl _ _ _) (.foldl (fun _ _ k => .modCore k) (.issueRows (.portReads kept))) hcheck))

theorem execHeldTurnEnd {core : CoreId} {held : HeldFacts} (h : Canonical s) : KeepsCanonical (execHeldTurnEnd core held s) := by
  unfold Machine.execHeldTurnEnd
  refine .ite (.done (.idlePass h)) ?_
  split
  · exact .refused
  next t hcycles =>
    have kept : Canonical t := .heldCycles h hcycles
    exact .done (.ite kept (.closeTurn kept))

theorem execHbmUncorr {addr : Nat} {sparesLeft readFirst : Bool} (h : Canonical s) :
    KeepsCanonical (execHbmUncorr addr sparesLeft readFirst s) := by
  unfold Machine.execHbmUncorr
  extract_lets _ _ noted _ _ _ freed struck failed _
  have k : Canonical freed := .ite (.hbmWrite h) h
  have struckKept : Canonical struck :=
    .foldl (fun _ _ k => .ite (.loseState (.foldl (fun _ _ k => .endTask k) k)) (.foldl (fun _ _ k => .detected k) k)) k
  have failedKept : Canonical failed := .when (fun k => .foldl (fun _ _ k => .detected k) k) struckKept
  exact .ite (.done (.modChannel failedKept)) (.ite (.done failedKept) (.done (.setUnit failedKept)))

theorem execRegisterWrite {addr value : Word} (h : Canonical s) : KeepsCanonical (execRegisterWrite addr value s) := by
  unfold Machine.execRegisterWrite
  refine .ite (.done h) (.ite (.done h) (.ite (.done h) ?_))
  split
  · exact .done h
  · exact .done h

theorem execFlitReceive {port : PortId} {flit : List Byte} {fec : FecFact} (h : Canonical s) :
    KeepsCanonical (execFlitReceive port flit fec s) := by
  unfold Machine.execFlitReceive
  extract_lets _ _ _ _ _ _ rejected _ _ accepted _ released _ _ taken drained
  refine .ite (.done h) ?_
  have rejectedKept : Canonical rejected := .modPort h
  have acceptedKept : Canonical accepted := .modPort h
  have releasedKept : Canonical released := .releaseSwap (.when (fun k => .goBack k) acceptedKept)
  have takenKept : Canonical taken := by
    refine .when (fun k => ?_) releasedKept
    split
    next t _ htake =>
      have chunks : Canonical t := by
        rw [← show _ = t from congrArg Prod.fst htake]
        exact .takeChunks k
      exact .modPort chunks
  have drainedKept : Canonical drained := .drainPort takenKept
  exact .ite (.done (.ite rejectedKept (.sendIdle rejectedKept))) (.done (.when (fun k => .sendIdle k) drainedKept))

theorem execConfigFormation {begins : Bool} {peers : List PeerId} (h : Canonical s) :
    KeepsCanonical (execConfigFormation begins peers s) := by
  unfold Machine.execConfigFormation
  extract_lets unformed noted _ _ roles formed led unmarked copied
  have notedKept : Canonical noted := .when (fun k => .emit k) (.modConf h)
  have formedKept : Canonical formed := .modConf (.portRoles (.stepGt h))
  have ledKept : Canonical led := .judgeLead (.modClock formedKept)
  have copiedKept : Canonical copied := .ite (.foldl (fun _ _ k => .copyCarried k) ledKept) ledKept
  refine .ite (.done h) (.ite (.done (.formationBegins h)) (.ite (.done (.foldl (fun _ _ k => ?_) notedKept)) ?_))
  · split <;> exact k
  · exact .done (.emit (.noteRelays copiedKept))

theorem execEpochMark {r : EpochReadings} (h : Canonical s) : KeepsCanonical (execEpochMark r s) := by
  unfold Machine.execEpochMark
  refine .ite (.done h) ?_
  extract_lets summed next passed swapped powered marked
  have k : Canonical powered := .modPower (.noteOpen (.modClock (.passUnits (.when (fun k => .summarise k) h))))
  exact .done (.resolveMark (.ite (.foldl (fun _ _ k => .markPanel k) k) (.when (fun k => .foldl (fun _ _ k => .modPanel k) k) k)))

theorem execReclaimBatch {panel : PanelId} (h : Canonical s) : KeepsCanonical (execReclaimBatch panel s) := by
  unfold Machine.execReclaimBatch
  extract_lets _ _ asked granted counted
  have k : Canonical counted := .modPanel (.foldl (fun _ _ k => .grantPips k) (.foldl (fun _ _ k => .modCore k) h))
  exact .ite (.done h) (.ite (.done (.modPanel k)) (.done k))

theorem execStandbyEntry (h : Canonical s) : KeepsCanonical (execStandbyEntry s) := by
  unfold Machine.execStandbyEntry
  extract_lets _ stopped
  have k : Canonical stopped := .foldl (fun _ _ k => .modPanel k) (.modPower (.napAll h))
  exact .ite (.done h) (.done (.enter (.withChannels (s := stopped) k)))

theorem execAuxPowerOn {strap : BitVec 6} {step1Ok : Bool} (h : Canonical s) : KeepsCanonical (execAuxPowerOn strap step1Ok s) := by
  unfold Machine.execAuxPowerOn
  extract_lets _ _ booked
  have k : Canonical booked := .modBook (.modConf (.modBoot h))
  exact .ite (.done h) (.ite (.done (.verifyImage k)) (.done (.bootFail k)))

theorem execWindowEnd {chan : ChanId} {eye : Nat} (h : Canonical s) : KeepsCanonical (execWindowEnd chan eye s) := by
  unfold Machine.execWindowEnd
  extract_lets _ _ _ _ _ closed
  have k : Canonical closed := .modCal (.modChannel h)
  exact .ite (.done h) (.ite (.done k) (.ite (.done (.setUnit (.emit k))) (.done (.emit k))))

end KeepsCanonical

end Sys2Proof.Claim
end

section
/-!
SUPPORT. Every slot command keeps the canonical form of the memories, because its action does.
-/

namespace Sys2Proof.Claim

open Machine

namespace KeepsCanonical

variable {s : State}

theorem slotExec {core : CoreId} {i : Instr} {name : String} {act : State → State} (ha : ∀ u, Canonical u → Canonical (act u))
    (h : Canonical s) : KeepsCanonical (s.slotExec core i name act) :=
  .ite (.done (.issueSlot ha h)) .refused

theorem shortExec {b : BSlot} {i : Instr} {act : State → State} (ha : ∀ u, Canonical u → Canonical (act u)) (h : Canonical s) :
    KeepsCanonical (s.shortExec b i act) :=
  .ite (.done (.issueSlot ha h)) (.ite (.done h) (.done (.programFault h)))

theorem controlSlot {i : Instr} {p : BitVec 8 × CSlot} (hi : opC i = some p) (h : Canonical s) : KeepsCanonical (exec i s) := by
  cases i with
  | sAdd c | sSub c | sAnd c | sOr c | sXor c | sShl c | sShr c | sSra c | sSlt c | sSltu c | sSeq c | sMul c =>
    exact .slotExec (fun _ k => .alu k) h
  | sLi c | sLui c | sLd c | sRdreg c => exact .slotExec (fun _ k => .writeS k) h
  | br c | brZ c | brNz c | brNeg c => exact .slotExec (fun _ k => .branch k) h
  | tallySig c => exact .slotExec (fun _ k => .release k) h
  | tallyWait c | tallyTake c => exact .slotExec (fun _ k => .satisfied k) h
  | bankFlip c => exact .slotExec (fun _ k => .actBankFlip k) h
  | sSt c | loopI c | loopR c | sbDef c | brk c | taskEnd c => exact .slotExec (fun _ k => k) h
  | _ => cases hi

theorem matrixSlot {i : Instr} {p : BitVec 8 × MSlot} (hi : opM i = some p) (h : Canonical s) : KeepsCanonical (exec i s) := by
  cases i with
  | mmPass m | mmDiag m => exact .slotExec (fun _ k => .runPass k) h
  | mmTile m | mmDrain m => exact .slotExec (fun _ k => .engineIssue k) h
  | mmMon m => exact .slotExec (fun _ k => .engineEvent k) h
  | _ => cases hi

/-- The action of a vector slot is `actV`. -/
theorem vectorSlot {i : Instr} {p : BitVec 8 × VSlot} (hi : opV i = some p) (h : Canonical s) : KeepsCanonical (exec i s) := by
  obtain ⟨name, exec_eq⟩ : ∃ name, exec i s = s.slotExec p.2.core i name (actV i) := by
    cases i <;> cases hi <;> exact ⟨_, rfl⟩
  rw [exec_eq]
  exact .slotExec (fun _ k => .actV k) h

theorem bufferSlot {i : Instr} {p : BitVec 8 × BSlot} (hi : opB i = some p) (h : Canonical s) : KeepsCanonical (exec i s) := by
  cases i with
  | ribPut b => exact .slotExec (fun _ k => .actRibPut k) h
  | bMove b => exact .slotExec (fun _ k => .actBMove k) h
  | fifoPush b => exact .slotExec (fun _ k => .stir k) h
  | fifoPop b ok => exact .slotExec (fun _ k => .actFifoPop k) h
  | fifoStat b => exact .slotExec (fun _ k => .writeS k) h
  | spPut b => exact .shortExec (fun _ k => .actSpPut k) h
  | spGet b => exact .shortExec (fun _ k => .sendRead k) h
  | spSig b => exact .shortExec (fun _ k => .release k) h
  | spWord b => exact .shortExec (fun _ k => .shortWrite k) h
  | _ => cases hi

theorem moverSlot {i : Instr} {p : BitVec 8 × DSlot} (hi : opD i = some p) (h : Canonical s) : KeepsCanonical (exec i s) := by
  cases i with
  | dmaGet d | dmaPut d => exact .slotExec (fun _ k => k) h
  | strandSend d => exact .slotExec (fun _ k => .launch k) h
  | cableRun d => exact .slotExec (fun _ k => .actCableRun k) h
  | _ => cases hi

end KeepsCanonical

end Sys2Proof.Claim
end

section
/-!
PROOFS. Every command, and so every step, keeps the canonical form of the memories.
-/

namespace Sys2Proof.Claim

open Machine

namespace KeepsCanonical

variable {s : State}

theorem packetAs {p : Packet} {mine : Bool} (h : Canonical s) : KeepsCanonical (s.packetAs p mine) :=
  .done (.ite (.packetIn h) h)

/-- Slots by the action they take at issue, packets by the protocol they enter, and every other command by its own meaning. -/
theorem exec {i : Instr} (h : Canonical s) : KeepsCanonical (exec i s) := by
  cases i with
  | sAdd | sSub | sAnd | sOr | sXor | sShl | sShr | sSra | sSlt | sSltu | sSeq | sMul | sLi | sLui | sLd | sSt | sRdreg | sbDef | br | brZ
  | brNz | brNeg | loopI | loopR | tallySig | tallyWait | tallyTake | bankFlip | brk | taskEnd => exact .controlSlot rfl h
  | mmPass | mmTile | mmDiag | mmDrain | mmMon => exact .matrixSlot rfl h
  | ribPut | bMove | spPut | spGet | spSig | spWord | fifoPush | fifoPop | fifoStat => exact .bufferSlot rfl h
  | dmaGet | dmaPut | strandSend | cableRun => exact .moverSlot rfl h
  | ping | getSeq | close | submit | queryStatus | fetchResult | cancel | loadPattern | unloadPattern | listPatterns | putObject | getObject
  | deleteObject | readScorebook | setPowerCap | getHealth | cartridgeInfo | cartridgeRetire | continuationBlock | badOpcode | arm
  | disarmAll | refereeLog | refereeStop | resume | step | readRefereeLog | readWindowBytes | getVersion | getCapabilities
  | negotiateAlgorithms | getDigests | getCertificate | challenge | getMeasurements => exact .packetAs h
  | gtLoRead | freqCtlWrite | calCtlWrite | droopRecovery | inputHash | dbgVref => exact .done h
  | deliveryLastBurst => exact .execDeliveryLastBurst h
  | shortPathComplete => exact .execShortPathComplete h
  | dmaBurstSend => exact .execDmaBurstSend h
  | readReq => exact .execReadReq h
  | readResp => exact .execReadResp h
  | externalBurstWrite => exact .execExternalBurstWrite h
  | strandReq => exact .execStrandReq h
  | strandGrant => exact .execStrandGrant h
  | strandData => exact .execStrandData h
  | grantComplete => exact .execGrantComplete h
  | strandSendComplete => exact .execStrandSendComplete h
  | write => exact .execWrite h
  | writeAck => exact .execWriteAck h
  | tallyAdd => exact .execTallyAdd h
  | tallyRelease => exact .execTallyRelease h
  | ackedRelease => exact .execAckedRelease h
  | dmaComplete => exact .execDmaComplete h
  | rescale => exact .execRescale h
  | mmTileOutputDone => exact .execMmTileOutputDone h
  | cableStageUnit => exact .execCableStageUnit h
  | cableComplete => exact .execCableComplete h
  | taskCastOn => exact .execTaskCastOn h
  | startTimeReached => exact .execStartTimeReached h
  | taskCastOff => exact .execTaskCastOff h
  | taskReplay => exact .execTaskReplay h
  | dualSecondRun => exact .execDualSecondRun h
  | mirrorVote => exact .execMirrorVote h
  | stalemate => exact .execStalemate h
  | trainAttempt => exact .execTrainAttempt h
  | fwMsg => exact .execFwMsg h
  | effecterSet => exact .execEffecterSet h
  | beacon => exact .execBeacon h
  | castonUnlockedTimeout => exact .execCastonUnlockedTimeout h
  | eyeCheck => exact .execEyeCheck h
  | laneSwap => exact .execLaneSwap h
  | swapDone => exact .execSwapDone h
  | swapReqResend => exact .execSwapReqResend h
  | taskForgotten => exact .execTaskForgotten h
  | eccReread => exact .execEccReread h
  | externalReread => exact .execExternalReread h
  | scrubRead => exact .execScrubRead h
  | patternLoad => exact .execPatternLoad h
  | ibankLoad => exact .execIbankLoad h
  | standbyRequest => exact .execStandbyRequest h
  | handshake => exact .execHandshake h
  | sessionExpired => exact .execSessionExpired h
  | commandTimeout => exact .execCommandTimeout h
  | seqGap => exact .execSeqGap h
  | issueCycle => exact .execIssueCycle h
  | heldTurnEnd => exact .execHeldTurnEnd h
  | hbmUncorr => exact .execHbmUncorr h
  | registerWrite => exact .execRegisterWrite h
  | flitReceive => exact .execFlitReceive h
  | configFormation => exact .execConfigFormation h
  | epochMark => exact .execEpochMark h
  | reclaimBatch => exact .execReclaimBatch h
  | standbyEntry => exact .execStandbyEntry h
  | auxPowerOn => exact .execAuxPowerOn h
  | windowEnd => exact .execWindowEnd h
  | cartridgeInsert => exact .ite (.done h) (.ite (.done (.mount h)) (.done h))
  | prsntDebounce | recordWrite | dbgReq | dbgReqRelease | dbgReqTimeout | retrain | sbRead | i3cBroadcastCcc | servicePortLink
  | sgmiiLink | voltageSettled | droop | sustainedDroop | timeUnlocked | recentre | swapAt | calSummary | lend => exact .ite (.done h) (.done h)
  | perstRelease => exact .ite (.done (.mount h)) (.done h)
  | resyncComplete => exact .ite (.done (.resynced h)) (.done h)
  | bayFailure => exact .done (.bayFails h)
  | smartRead => exact .ite (.done (.wear h)) (.done h)
  | cartridgeRemove | pldmFirmwareUpdate | activateFirmware | setEndpointId | swapReq => exact .ite (.done h) (.ite (.done h) (.done h))
  | readIndexWrite => exact .done (.readIndexWrite h)
  | rescaleClear => exact .done (.modCore (.sequenceCycles h))
  | fifoDataWrite => exact .ite (.done (.programFault h)) (.ite (.done h) (.done h))
  | batchingWindow => exact .done (.castOnOldest h)
  | coreCastOff => exact .ite (.done h) (.done (.modCore (.drainPass h)))
  | retrainAttempt => exact .ite (.done h) (.ite (.done (.drainPort h)) (.ite (.done (.failPort h)) (.done h)))
  | nak => exact .ite (.done h) (.done (.drainPort (.goBack h)))
  | retryTimeout => exact .ite (.done h) (.done (.goBack h))
  | heartbeat => exact .ite (.done h) (.done (.foldl (fun _ _ k => .fwSend k) h))
  | moduleLost => exact .ite (.done h) (.ite (.done h) (.ite (.done (.loseModule h)) (.done h)))
  | twinLost => exact .done (.loseTwin h)
  | unitRequest | moduleReset => exact .ite (.done h) (.done (.cpRequest h))
  | enrol | stagedSet | netCfg => exact .ite (.done h) (.done (.queueRequest h))
  | regRead => exact .ite (.done h) (.ite (.done (.readModReg h)) (.done h))
  | sensorRead => exact .ite (.done h) (.done (.ite h h))
  | drainEnd =>
    exact .ite (.done h) (.done (.when (fun k => .emit k) (.placeUnit (.when (fun k => .failPort k) (.foldl (fun _ _ k => .detected k) h)))))
  | voutTelemetry => exact .ite (.done h) (.done (.foldl (fun _ _ k => .ite k k) h))
  | regulatorFault => exact .ite (.done h) (.done (.panelFault h))
  | allBankRefresh => exact .ite (.done h) (.ite (.done h) (.ite (.done h) (.done h)))
  | bankReadySignal => exact .ite (.done (.addTally h)) (.done h)
  | napEntry => exact .ite (.done (.modPh h)) (.done h)
  | idleEntry => exact .ite (.done h) (.done (.enter (.napAll h)))
  | mainRailLost => exact .ite (.done h) (.done (.modBoot .powerDown))
  | pwrEnDeassert => exact .ite (.done h) (.done (.modPower (.modBoot .powerDown)))
  | pwrEnAssert => exact .ite (.done h) (.done (.settle (.bootServe h)))
  | thermalTrip => exact .ite (.done h) (.done .powerDown)
  | auxPowerLost => exact .ite (.done h) (.done .dead)
  | watchdog => exact .ite (.done h) (.done .moduleReset)
  | keyUpdate => exact .ite (.done (.modSession h)) (.done h)
  | clientKeyUpdate => exact .done (.modSession h)
  | closeNotify => exact .done (.endSession h)
  | _ => exact .vectorSlot rfl h

end KeepsCanonical

end Sys2Proof.Claim

namespace Sys2Proof.Machine

open Claim

/-- Settles O59: every command keeps the canonical form, operation by operation, and so does a tick. -/
theorem memoryStaysCanonical : Obligations.MemoryStaysCanonical := by
  intro s t h ht
  unfold step at ht
  split at ht
  next c rest _ => exact KeepsCanonical.exec (s := { s with pending := rest }) h t ht
  · cases ht
    exact .tick h

end Sys2Proof.Machine
end

section
/-!
PROOFS. Rows and their 512 bits determine each other (R20 to R24): the codec of each slot, and the row that is made of six of them.
-/

namespace Sys2Proof.Machine

open Claim

/-! ### Opcodes -/

/-- An opcode as its number. -/
theorem opcode_eq {op : BitVec 8} {k : Nat} (h : op.toNat = k) : op = BitVec.ofNat 8 k := by
  rw [← h, BitVec.ofNat_toNat, BitVec.setWidth_eq]

theorem opC_of_ofC {op : BitVec 8} {c : CSlot} {i : Instr} (h : ofC op.toNat c = some i) : opC i = some (op, c) := by
  unfold ofC at h
  split at h
  case h_31 => cases h
  all_goals
    next e =>
      cases h
      rw [opcode_eq e]
      rfl

theorem ofC_of_opC {op : BitVec 8} {c : CSlot} {i : Instr} (h : opC i = some (op, c)) : ofC op.toNat c = some i := by
  unfold opC at h
  split at h <;> cases h <;> rfl

theorem opM_of_ofM {op : BitVec 8} {m : MSlot} {i : Instr} (h : ofM op.toNat m = some i) : opM i = some (op, m) := by
  unfold ofM at h
  split at h
  case h_6 => cases h
  all_goals
    next e =>
      cases h
      rw [opcode_eq e]
      rfl

theorem ofM_of_opM {op : BitVec 8} {m : MSlot} {i : Instr} (h : opM i = some (op, m)) : ofM op.toNat m = some i := by
  unfold opM at h
  split at h <;> cases h <;> rfl

theorem opV_of_ofV {op : BitVec 8} {v : VSlot} {i : Instr} (h : ofV op.toNat v = some i) : opV i = some (op, v) := by
  unfold ofV at h
  split at h
  case h_46 => cases h
  all_goals
    next e =>
      cases h
      rw [opcode_eq e]
      rfl

theorem ofV_of_opV {op : BitVec 8} {v : VSlot} {i : Instr} (h : opV i = some (op, v)) : ofV op.toNat v = some i := by
  unfold opV at h
  split at h <;> cases h <;> rfl

theorem opB_of_ofB {op : BitVec 8} {b : BSlot} {i : Instr} (h : ofB op.toNat b = some i) :
    opB i = some (op, b) ∧ ∀ x, i ≠ .fifoPop x false := by
  unfold ofB at h
  split at h
  case h_10 => cases h
  all_goals
    next e =>
      cases h
      rw [opcode_eq e]
      exact ⟨rfl, by simp⟩

theorem ofB_of_opB {op : BitVec 8} {b : BSlot} {i : Instr} (hi : ∀ x, i ≠ .fifoPop x false) (h : opB i = some (op, b)) :
    ofB op.toNat b = some i := by
  unfold opB at h
  split at h
  case h_8 ok =>
    cases h
    cases ok
    · exact absurd rfl (hi b)
    · rfl
  all_goals cases h <;> rfl

theorem opD_of_ofD {op : BitVec 8} {d : DSlot} {i : Instr} (h : ofD op.toNat d = some i) : opD i = some (op, d) := by
  unfold ofD at h
  split at h
  case h_5 => cases h
  all_goals
    next e =>
      cases h
      rw [opcode_eq e]
      rfl

theorem ofD_of_opD {op : BitVec 8} {d : DSlot} {i : Instr} (h : opD i = some (op, d)) : ofD op.toNat d = some i := by
  unfold opD at h
  split at h <;> cases h <;> rfl

theorem checkWf_eq_some {o : Option Instr} {i : Instr} : checkWf o = some i ↔ o = some i ∧ i.wf = true := by
  cases o with
  | none => simp [checkWf]
  | some j =>
    simp only [checkWf, Option.some.injEq]
    constructor
    · intro h
      split at h <;> cases h
      exact ⟨rfl, ‹_›⟩
    · rintro ⟨rfl, hw⟩
      rw [if_pos hw]

/-! ### Fields of a slot -/

section Fields

variable {core : CoreId} {pipe : Bool}

theorem rawC_encC {op : BitVec 8} {c : CSlot} (hc : c.core = core) :
    rawC core (encC op c) = ofC op.toNat c ∧ (encC op c).extractLsb' 29 3 = 0 := by
  subst hc
  simp (disch := omega) only [rawC, encC, BitVec.extractLsb'_append_eq_of_le, BitVec.extractLsb'_append_eq_of_add_le,
    BitVec.extractLsb'_eq_self, Nat.reduceSub, and_self]

theorem rawM_encM {op : BitVec 8} {m : MSlot} (hm : m.core = core) :
    rawM core (encM op m) = ofM op.toNat m ∧ (encM op m).extractLsb' 28 4 = 0 := by
  subst hm
  simp (disch := omega) only [rawM, encM, BitVec.extractLsb'_append_eq_of_le, BitVec.extractLsb'_append_eq_of_add_le,
    BitVec.extractLsb'_eq_self, Nat.reduceSub, and_self]

theorem rawV_encV {op : BitVec 8} {v : VSlot} (hv : v.core = core) (hp : v.pipe = pipe) :
    rawV core pipe (encV op v) = ofV op.toNat v := by
  subst hv hp
  have maskEn : (encV op v).getLsbD 31 = v.maskEn := by
    simp only [encV, BitVec.getLsbD_append]
    simp
  rw [rawV, maskEn]
  simp (disch := omega) only [encV, BitVec.extractLsb'_append_eq_of_le, BitVec.extractLsb'_append_eq_of_add_le,
    BitVec.extractLsb'_eq_self, Nat.reduceSub]

theorem rawB_encB {op : BitVec 8} {b : BSlot} (hb : b.core = core) :
    rawB core (encB op b) = ofB op.toNat b ∧ (encB op b).extractLsb' 23 9 = 0 := by
  subst hb
  simp (disch := omega) only [rawB, encB, BitVec.extractLsb'_append_eq_of_le, BitVec.extractLsb'_append_eq_of_add_le,
    BitVec.extractLsb'_eq_self, Nat.reduceSub, and_self]

theorem rawD_encD {op : BitVec 8} {d : DSlot} (hd : d.core = core) :
    rawD core (encD op d) = ofD op.toNat d ∧ (encD op d).extractLsb' 25 7 = 0 := by
  subst hd
  simp (disch := omega) only [rawD, encD, BitVec.extractLsb'_append_eq_of_le, BitVec.extractLsb'_append_eq_of_add_le,
    BitVec.extractLsb'_eq_self, Nat.reduceSub, and_self]

/-- One bit as a field of width 1. -/
theorem ofBool_getLsbD {n : Nat} (w : BitVec n) (i : Nat) : BitVec.ofBool (w.getLsbD i) = w.extractLsb' i 1 := by
  apply BitVec.eq_of_getLsbD_eq
  intro j hj
  obtain rfl : j = 0 := by omega
  simp

theorem ofBool_beq_one (b : Bool) : (BitVec.ofBool b == 1#1) = b := by
  cases b <;> rfl

theorem opC_of_rawC {w : BitVec 64} {i : Instr} (hw : w.extractLsb' 29 3 = 0) (h : rawC core w = some i) :
    ∃ op c, opC i = some (op, c) ∧ c.core = core ∧ encC op c = w := by
  refine ⟨_, _, opC_of_ofC h, rfl, ?_⟩
  simp (disch := omega) only [encC, ← hw, BitVec.extractLsb'_append_extractLsb'_eq_extractLsb']
  exact BitVec.extractLsb'_eq_self

theorem opM_of_rawM {w : BitVec 96} {i : Instr} (hw : w.extractLsb' 28 4 = 0) (h : rawM core w = some i) :
    ∃ op m, opM i = some (op, m) ∧ m.core = core ∧ encM op m = w := by
  refine ⟨_, _, opM_of_ofM h, rfl, ?_⟩
  simp (disch := omega) only [encM, ← hw, BitVec.extractLsb'_append_extractLsb'_eq_extractLsb']
  exact BitVec.extractLsb'_eq_self

theorem opV_of_rawV {w : BitVec 80} {i : Instr} (h : rawV core pipe w = some i) :
    ∃ op v, opV i = some (op, v) ∧ v.core = core ∧ v.pipe = pipe ∧ encV op v = w := by
  refine ⟨_, _, opV_of_ofV h, rfl, rfl, ?_⟩
  simp (disch := omega) only [encV, ofBool_getLsbD, BitVec.extractLsb'_append_extractLsb'_eq_extractLsb']
  exact BitVec.extractLsb'_eq_self

theorem opB_of_rawB {w : BitVec 64} {i : Instr} (hw : w.extractLsb' 23 9 = 0) (h : rawB core w = some i) :
    (∀ x, i ≠ .fifoPop x false) ∧ ∃ op b, opB i = some (op, b) ∧ b.core = core ∧ encB op b = w := by
  refine ⟨(opB_of_ofB h).2, _, _, (opB_of_ofB h).1, rfl, ?_⟩
  simp (disch := omega) only [encB, ← hw, BitVec.extractLsb'_append_extractLsb'_eq_extractLsb']
  exact BitVec.extractLsb'_eq_self

theorem opD_of_rawD {w : BitVec 96} {i : Instr} (hw : w.extractLsb' 25 7 = 0) (h : rawD core w = some i) :
    ∃ op d, opD i = some (op, d) ∧ d.core = core ∧ encD op d = w := by
  refine ⟨_, _, opD_of_ofD h, rfl, ?_⟩
  simp (disch := omega) only [encD, ← hw, BitVec.extractLsb'_append_extractLsb'_eq_extractLsb']
  exact BitVec.extractLsb'_eq_self

end Fields

/-! ### Codecs -/

/-- A slot's decoder and encoder undo each other on the commands that may stand in it: R22, R23. -/
def SlotCodec {α : Type} {w : Nat} (ok : Instr → Prop) (dec : BitVec w → Option Instr) (op : Instr → Option (BitVec 8 × α))
    (enc : BitVec 8 → α → BitVec w) : Prop :=
  (∀ i, ok i → ∃ p, op i = some p ∧ dec (enc p.1 p.2) = some i) ∧
  ∀ b i, dec b = some i → ok i ∧ ∃ p, op i = some p ∧ enc p.1 p.2 = b

theorem slotCodecC (core : CoreId) :
    SlotCodec (fun i => i.wf = true ∧ ∃ op x, opC i = some (op, x) ∧ x.core = core) (decodeC core) opC encC := by
  constructor
  · rintro i ⟨hwf, op, c, hop, hc⟩
    obtain ⟨raw, frame⟩ := rawC_encC (op := op) hc
    refine ⟨(op, c), hop, ?_⟩
    rw [decodeC, frame, raw, ofC_of_opC hop]
    simp [checkWf, hwf]
  · intro w i h
    unfold decodeC at h
    split at h
    next frame =>
      obtain ⟨raw, hwf⟩ := checkWf_eq_some.1 h
      obtain ⟨op, c, hop, hc, henc⟩ := opC_of_rawC (by simpa using frame) raw
      exact ⟨⟨hwf, op, c, hop, hc⟩, (op, c), hop, henc⟩
    · cases h

theorem slotCodecM (core : CoreId) :
    SlotCodec (fun i => i.wf = true ∧ ∃ op x, opM i = some (op, x) ∧ x.core = core) (decodeM core) opM encM := by
  constructor
  · rintro i ⟨hwf, op, m, hop, hm⟩
    obtain ⟨raw, frame⟩ := rawM_encM (op := op) hm
    refine ⟨(op, m), hop, ?_⟩
    rw [decodeM, frame, raw, ofM_of_opM hop]
    simp [checkWf, hwf]
  · intro w i h
    unfold decodeM at h
    split at h
    next frame =>
      obtain ⟨raw, hwf⟩ := checkWf_eq_some.1 h
      obtain ⟨op, m, hop, hm, henc⟩ := opM_of_rawM (by simpa using frame) raw
      exact ⟨⟨hwf, op, m, hop, hm⟩, (op, m), hop, henc⟩
    · cases h

theorem slotCodecV (core : CoreId) (pipe : Bool) :
    SlotCodec (fun i => i.wf = true ∧ ∃ op x, opV i = some (op, x) ∧ x.core = core ∧ x.pipe = pipe) (decodeV core pipe) opV encV := by
  constructor
  · rintro i ⟨hwf, op, v, hop, hv, hp⟩
    refine ⟨(op, v), hop, ?_⟩
    rw [decodeV, rawV_encV hv hp, ofV_of_opV hop]
    simp [checkWf, hwf]
  · intro w i h
    obtain ⟨raw, hwf⟩ := checkWf_eq_some.1 h
    obtain ⟨op, v, hop, hv, hp, henc⟩ := opV_of_rawV raw
    exact ⟨⟨hwf, op, v, hop, hv, hp⟩, (op, v), hop, henc⟩

theorem slotCodecB (core : CoreId) :
    SlotCodec (fun i => i.wf = true ∧ (∀ x, i ≠ .fifoPop x false) ∧ ∃ op x, opB i = some (op, x) ∧ x.core = core)
      (decodeB core) opB encB := by
  constructor
  · rintro i ⟨hwf, hpop, op, b, hop, hb⟩
    obtain ⟨raw, frame⟩ := rawB_encB (op := op) hb
    refine ⟨(op, b), hop, ?_⟩
    rw [decodeB, frame, raw, ofB_of_opB hpop hop]
    simp [checkWf, hwf]
  · intro w i h
    unfold decodeB at h
    split at h
    next frame =>
      obtain ⟨raw, hwf⟩ := checkWf_eq_some.1 h
      obtain ⟨hpop, op, b, hop, hb, henc⟩ := opB_of_rawB (by simpa using frame) raw
      exact ⟨⟨hwf, hpop, op, b, hop, hb⟩, (op, b), hop, henc⟩
    · cases h

theorem slotCodecD (core : CoreId) :
    SlotCodec (fun i => i.wf = true ∧ ∃ op x, opD i = some (op, x) ∧ x.core = core) (decodeD core) opD encD := by
  constructor
  · rintro i ⟨hwf, op, d, hop, hd⟩
    obtain ⟨raw, frame⟩ := rawD_encD (op := op) hd
    refine ⟨(op, d), hop, ?_⟩
    rw [decodeD, frame, raw, ofD_of_opD hop]
    simp [checkWf, hwf]
  · intro w i h
    unfold decodeD at h
    split at h
    next frame =>
      obtain ⟨raw, hwf⟩ := checkWf_eq_some.1 h
      obtain ⟨op, d, hop, hd, henc⟩ := opD_of_rawD (by simpa using frame) raw
      exact ⟨⟨hwf, op, d, hop, hd⟩, (op, d), hop, henc⟩
    · cases h

namespace SlotCodec

variable {α : Type} {w : Nat} {ok : Instr → Prop} {dec : BitVec w → Option Instr} {op : Instr → Option (BitVec 8 × α)}
  {enc : BitVec 8 → α → BitVec w}

/-- A slot of the row is read back from its bits, an empty one from zeros: R22. -/
theorem slotOf_slotBits (h : SlotCodec ok dec op enc) {o : Option Instr} (ho : ∀ i, o = some i → ok i) :
    slotOf o.isSome (slotBits w enc (o.bind op) == 0) (dec (slotBits w enc (o.bind op))) = some o := by
  cases o with
  | none => simp [slotOf, slotBits]
  | some i =>
    obtain ⟨p, hp, hd⟩ := h.1 i (ho i rfl)
    simp [slotOf, slotBits, hp, hd]

/-- A slot that is read under its valid bit gives the bit and its bits back: R22. -/
theorem slotBits_of_slotOf (h : SlotCodec ok dec op enc) {valid : Bool} {b : BitVec w} {o : Option Instr}
    (hs : slotOf valid (b == 0) (dec b) = some o) :
    o.isSome = valid ∧ slotBits w enc (o.bind op) = b ∧ ∀ i, o = some i → ok i := by
  cases valid with
  | false =>
    simp only [slotOf, Bool.false_eq_true, if_false] at hs
    split at hs
    next e =>
      cases hs
      exact ⟨rfl, (beq_iff_eq.1 e).symm, by simp⟩
    · cases hs
  | true =>
    simp only [slotOf, if_true, Option.map_eq_some_iff] at hs
    obtain ⟨i, hi, rfl⟩ := hs
    obtain ⟨hok, p, hp, he⟩ := h.2 b i hi
    exact ⟨rfl, by simp [slotBits, hp, he], fun j hj => by cases hj; exact hok⟩

end SlotCodec

/-! ### Rows -/

/-- The fields of a row's 512 bits: R20 to R22. -/
theorem encodeRow_fields (r : Row) :
    (encodeRow r).extractLsb' 0 8 = r.pips ∧ (encodeRow r).extractLsb' 8 8 = r.tag ∧
    (encodeRow r).getLsbD 16 = r.c.isSome ∧ (encodeRow r).getLsbD 17 = r.m.isSome ∧ (encodeRow r).getLsbD 18 = r.v0.isSome ∧
    (encodeRow r).getLsbD 19 = r.v1.isSome ∧ (encodeRow r).getLsbD 20 = r.b.isSome ∧ (encodeRow r).getLsbD 21 = r.d.isSome ∧
    (encodeRow r).extractLsb' 22 10 = 0 ∧ (encodeRow r).extractLsb' 32 64 = slotBits 64 encC (r.c.bind opC) ∧
    (encodeRow r).extractLsb' 96 96 = slotBits 96 encM (r.m.bind opM) ∧
    (encodeRow r).extractLsb' 192 80 = slotBits 80 encV (r.v0.bind opV) ∧
    (encodeRow r).extractLsb' 272 80 = slotBits 80 encV (r.v1.bind opV) ∧
    (encodeRow r).extractLsb' 352 64 = slotBits 64 encB (r.b.bind opB) ∧
    (encodeRow r).extractLsb' 416 96 = slotBits 96 encD (r.d.bind opD) := by
  simp (disch := omega) only [encodeRow, BitVec.getLsbD_eq_extractLsb', BitVec.extractLsb'_append_eq_of_le,
    BitVec.extractLsb'_append_eq_of_add_le, BitVec.extractLsb'_eq_self, ofBool_beq_one, Nat.reduceSub, and_self]

/-- A row whose slots the loader admits is read back from its bits: R20 to R24. -/
theorem decodeRow_encodeRow {core : CoreId} {r : Row} (h : RowOk core r) : decodeRow core (encodeRow r) = some r := by
  obtain ⟨hc, hm, hv0, hv1, hb, hd⟩ := h
  obtain ⟨pips, tag, vc, vm, vv0, vv1, vb, vd, reserved, c, m, v0, v1, b, d⟩ := encodeRow_fields r
  simp only [decodeRow, pips, tag, vc, vm, vv0, vv1, vb, vd, reserved, c, m, v0, v1, b, d, (slotCodecC core).slotOf_slotBits hc,
    (slotCodecM core).slotOf_slotBits hm, (slotCodecV core false).slotOf_slotBits hv0, (slotCodecV core true).slotOf_slotBits hv1,
    (slotCodecB core).slotOf_slotBits hb, (slotCodecD core).slotOf_slotBits hd]
  rfl

/-- A row that is read from 512 bits gives them back, and its slots are encodings that the loader admits: R20 to R24. -/
theorem encodeRow_of_decodeRow {core : CoreId} {w : BitVec 512} {r : Row} (h : decodeRow core w = some r) :
    encodeRow r = w ∧ RowOk core r := by
  unfold decodeRow at h
  split at h
  · cases h
  next reserved =>
    split at h
    next c m v0 v1 b d ec em ev0 ev1 eb ed =>
      cases h
      obtain ⟨vc, bc, hc⟩ := (slotCodecC core).slotBits_of_slotOf ec
      obtain ⟨vm, bm, hm⟩ := (slotCodecM core).slotBits_of_slotOf em
      obtain ⟨vv0, bv0, hv0⟩ := (slotCodecV core false).slotBits_of_slotOf ev0
      obtain ⟨vv1, bv1, hv1⟩ := (slotCodecV core true).slotBits_of_slotOf ev1
      obtain ⟨vb, bb, hb⟩ := (slotCodecB core).slotBits_of_slotOf eb
      obtain ⟨vd, bd, hd⟩ := (slotCodecD core).slotBits_of_slotOf ed
      have frame : w.extractLsb' 22 10 = 0 := by simpa using reserved
      refine ⟨?_, hc, hm, hv0, hv1, hb, hd⟩
      simp (disch := omega) only [encodeRow, vc, vm, vv0, vv1, vb, vd, bc, bm, bv0, bv1, bb, bd, ← frame, ofBool_getLsbD,
        BitVec.extractLsb'_append_extractLsb'_eq_extractLsb']
      exact BitVec.extractLsb'_eq_self
    · cases h

/-- Settles O57: the codecs of the six slots, and the header around them. -/
theorem rowsRoundTrip : Obligations.RowsRoundTrip :=
  ⟨fun _ _ => decodeRow_encodeRow, fun _ _ _ => encodeRow_of_decodeRow⟩

/-- Settles O58: the words are closed terms, on which the decoder is evaluated. -/
theorem rowWords : Obligations.RowWords := by
  unfold Obligations.RowWords
  refine ⟨?_, ?_, ?_, ?_, ?_, ?_, ?_, ?_, ?_, ?_, ?_⟩
  all_goals decide +kernel

end Sys2Proof.Machine
end

section
/-!
SUPPORT. The words of the statements as the model's own operations: a core put in another condition, writes on their way, transactions in
flight, and the quiet cycles of a task's cores.
-/

namespace Sys2Proof.Machine

open Claim

/-! ### Keyed lists and single cores -/

/-- Of two values set at one key the later stays. -/
@[simp] theorem mset_mset {α : Type} (m : List (Nat × α)) (k : Nat) (v w : α) : mset (mset m k v) k w = mset m k w := by
  induction m with
  | nil => simp [mset]
  | cons p m ih =>
    obtain ⟨a, x⟩ := p
    by_cases e : k = a
    · simp [mset, e]
    · by_cases l : k < a
      · simp [mset, e, l]
      · simp [mset, e, l, ih]

@[simp] theorem State.core_withCore (s : State) (n : Nat) (c : Core) : (withCore s n c).core n = c := s.core_setCore n c

theorem State.core_withCore_ne (s : State) {n m : Nat} (c : Core) (h : m ≠ n) : (withCore s n c).core m = s.core m := by
  simp [State.core, withCore, mget_mset_ne _ _ _ h]

@[simp] theorem State.core_withPhys (s : State) (n m : Nat) (p : Phys) : (withPhys s n p).core m = s.core m := rfl
@[simp] theorem State.physOf_withCore (s : State) (n m : Nat) (c : Core) : (withCore s n c).physOf m = s.physOf m := rfl
@[simp] theorem State.pcore_withCore (s : State) (n m : Nat) (c : Core) : (withCore s n c).pcore m = s.pcore m := rfl
@[simp] theorem State.ph_withCore (s : State) (n p : Nat) (c : Core) : (withCore s n c).ph p = s.ph p := rfl
@[simp] theorem State.physOf_withPhys (s : State) (n m : Nat) (p : Phys) : (withPhys s n p).physOf m = s.physOf m := rfl
@[simp] theorem State.pcore_withPhys (s : State) (n : Nat) (p : Phys) : (withPhys s n p).pcore n = p := by
  simp [State.pcore, State.ph, withPhys, State.physOf]

/-- A core set twice is the core set last. -/
@[simp] theorem withCore_withCore (s : State) (n : Nat) (c d : Core) : withCore (withCore s n c) n d = withCore s n d := by
  simp [withCore]

/-- A change of a core puts it in the changed condition. -/
theorem State.modCore_eq_withCore (s : State) (n : Nat) (f : Core → Core) : s.modCore n f = withCore s n (f (s.core n)) := rfl

theorem State.modCore_withCore (s : State) (n : Nat) (c : Core) (f : Core → Core) : (withCore s n c).modCore n f = withCore s n (f c) := by
  rw [State.modCore_eq_withCore, State.core_withCore, withCore_withCore]

/-- Two changes of one core are one. -/
theorem State.modCore_modCore (s : State) (n : Nat) (f g : Core → Core) :
    (s.modCore n f).modCore n g = withCore s n (g (f (s.core n))) := by
  rw [State.modCore_eq_withCore s, State.modCore_withCore]

/-- A scalar result is on its way: R25, R27, R30. -/
theorem State.writeS_eq_scalar (s : State) (n : Nat) (r : BitVec 5) (lat : Nat) (v : BitVec 64) : s.writeS n r lat v = scalar s n r lat v := rfl

/-- Writes put on their way: R27. -/
theorem State.pend_eq_issued (s : State) (n : Nat) (ps : List Pend) : s.pend n ps = issued s n ps := rfl

/-! ### Quiet cycles and transactions in flight -/

/-- An operation that enters flight calms the cores of its task: R193. -/
theorem State.stir_eq_stirred (s : State) (n : Nat) : s.stir n = stirred s n := by
  unfold State.stir stirred
  split
  next h =>
    have : s.cores.map (fun c => (c.1, calmed s n c.2)) = s.cores.map id :=
      List.map_congr_left (fun c _ => by simp [calmed, h])
    rw [this, List.map_id]
  next t h =>
    congr 1
    refine List.map_congr_left (fun c _ => ?_)
    by_cases e : c.2.task = some t <;> simp [calmed, h, e]

theorem mget_map {α β : Type} (f : α → β) (d : α) (m : List (Nat × α)) (k : Nat) :
    mget (f d) (m.map (fun c => (c.1, f c.2))) k = f (mget d m k) := by
  induction m with
  | nil => rfl
  | cons p m ih =>
    simp only [List.map_cons, mget]
    split
    · rfl
    · exact ih

/-- A core that carries no task is in no task to be calmed. -/
theorem calmed_default (s : State) (n : Nat) : calmed s n {} = {} := by
  have : ¬((s.core n).task.isSome = true ∧ ({} : Core).task = (s.core n).task) := by
    rintro ⟨h, e⟩
    rw [← e] at h
    cases h
  rw [calmed, if_neg this]

@[simp] theorem State.core_stirred (s : State) (n m : Nat) : (stirred s n).core m = calmed s n (s.core m) := by
  have := mget_map (calmed s n) {} s.cores m
  rwa [calmed_default] at this

@[simp] theorem State.core_underWay (s : State) (n m : Nat) (x : Txn) : (underWay s n x).core m = calmed s n (s.core m) :=
  State.core_stirred _ n m

/-- Which cores are calmed depends on the task of the one core alone. -/
theorem calmed_congr {s t : State} {n : Nat} (h : (t.core n).task = (s.core n).task) (k : Core) : calmed t n k = calmed s n k := by
  simp only [calmed, h]

/-- A transaction that a core issued enters flight: R193. -/
theorem State.send_eq_underWay {s : State} {n : Nat} {x : Txn} (h : x.origin.core? = some n) : s.send x = underWay s n x := by
  simp only [State.send, State.fresh, h, State.stir_eq_stirred]
  rfl

/-- Toward a home of this module a transaction is in flight, and nothing leaves by a port: R154, R157. -/
theorem State.launch_near {s : State} {n : Nat} {x : Txn} {yellow : Bool} (h : s.place n x.dst ≠ .remote) :
    s.launch n x yellow = s.send x := by
  unfold State.launch
  split
  · exact absurd ‹_› h
  · rfl

theorem State.launch_eq_underWay {s : State} {n : Nat} {x : Txn} {yellow : Bool} (h : s.place n x.dst ≠ .remote)
    (hx : x.origin.core? = some n) : s.launch n x yellow = underWay s n x := by
  rw [State.launch_near h, State.send_eq_underWay hx]

/-! ### Places -/

/-- What an address names depends on the configuration and on the task of the core that issues it: R140, R339. -/
theorem State.place_congr {s t : State} {n : Nat} (hc : t.config = s.config) (ht : t.taskOf n = s.taskOf n) (a : Nat) :
    t.place n a = s.place n a := by
  unfold State.taskOf at ht
  unfold State.place State.twinLinked
  rw [hc, ht]

/-- An address without the module bit names a place of this module: R140. -/
theorem State.place_local {s : State} {n a : Nat} (h : a < 2 ^ 63) : s.place n a = localPlace a := by
  simp only [State.place, if_pos h]

end Sys2Proof.Machine
end

section
/-!
PROOFS. The scalar rows (R24, R25, R27, R30, R52): each puts one result on its way.
-/

namespace Sys2Proof.Machine

open Claim

/-! ### The operations on 64-bit words -/

/-- A shift amount: the low six bits of B (R24). -/
theorem shiftAmount_eq (b : BitVec 64) : (b.extractLsb' 0 6).toNat = b.toNat % 64 := by
  simp [BitVec.extractLsb'_toNat]

theorem add_eq_ofNat (a b : BitVec 64) : a + b = BitVec.ofNat 64 (a.toNat + b.toNat) := by
  simp [BitVec.ofNat_add]

theorem sub_eq_ofInt (a b : BitVec 64) : a - b = BitVec.ofInt 64 (a.toInt - b.toInt) := by
  apply BitVec.eq_of_toInt_eq
  simp [BitVec.toInt_sub]

theorem mul_eq_ofNat (a b : BitVec 64) : a * b = BitVec.ofNat 64 (a.toNat * b.toNat) := by
  simp [BitVec.ofNat_mul]

theorem shl_eq_ofNat (a b : BitVec 64) : a <<< (b.extractLsb' 0 6).toNat = BitVec.ofNat 64 (a.toNat * 2 ^ (b.toNat % 64)) := by
  apply BitVec.eq_of_toNat_eq
  rw [shiftAmount_eq, BitVec.toNat_shiftLeft, Nat.shiftLeft_eq, BitVec.toNat_ofNat]

theorem shr_eq_ofNat (a b : BitVec 64) : a >>> (b.extractLsb' 0 6).toNat = BitVec.ofNat 64 (a.toNat / 2 ^ (b.toNat % 64)) := by
  apply BitVec.eq_of_toNat_eq
  rw [shiftAmount_eq, BitVec.toNat_ushiftRight, Nat.shiftRight_eq_div_pow, BitVec.toNat_ofNat,
    Nat.mod_eq_of_lt ((Nat.div_le_self _ _).trans_lt a.isLt)]

theorem sra_eq_ofInt (a b : BitVec 64) :
    a.sshiftRight (b.extractLsb' 0 6).toNat = BitVec.ofInt 64 (a.toInt / 2 ^ (b.toNat % 64)) := by
  rw [shiftAmount_eq, BitVec.sshiftRight, Int.shiftRight_eq_div_pow]
  norm_cast

theorem ofFlag_decide (p : Prop) [Decidable p] : ofFlag (decide p) = if p then 1 else 0 := by
  simp [ofFlag]

theorem CSlot.row12_eq (c : CSlot) : c.row12 = row c := by
  simp [CSlot.row12, row, BitVec.extractLsb'_toNat]

/-- `s.lui` puts the immediate above the low half of sa: R24. -/
theorem append_setWidth_eq_ofNat (x : BitVec 32) (a : BitVec 64) :
    x ++ a.setWidth 32 = BitVec.ofNat 64 (x.toNat * 2 ^ 32 + a.toNat % 2 ^ 32) := by
  apply BitVec.eq_of_toNat_eq
  have hx := x.isLt
  have ha : a.toNat % 2 ^ 32 < 2 ^ 32 := Nat.mod_lt _ (by decide)
  rw [BitVec.toNat_append, BitVec.toNat_setWidth, BitVec.toNat_ofNat, Nat.shiftLeft_eq, Nat.mul_comm,
    ← Nat.two_pow_add_eq_or_of_lt ha]
  omega

/-! ### The rows -/

/-- A slot that issues answers the state its action makes, where its action keeps the queue. -/
theorem SlotShape.exec_next {i : Instr} {core : CoreId} {act : State → State} (h : SlotShape i core act) {s : State}
    (hi : s.issuesNow core.toNat i = true) (hp : (act s).pending = s.pending) : exec i s = .next (act s) := by
  rw [h.exec_issues hi, done_eq hp]

/-- The two-operand rows, each with its operation of R24. -/
theorem aluRule_shape {i : Instr} {c : CSlot} {lat : Nat} {f : BitVec 64 → BitVec 64 → BitVec 64} (h : aluRule i = some (c, lat, f)) :
    SlotShape i c.core (c.alu lat f) := by
  obtain ⟨g, shape, eq⟩ : ∃ g, SlotShape i c.core (c.alu lat g) ∧ ∀ a b, g a b = f a b := by
    cases i with
    | sAdd => cases h; exact ⟨_, .slot rfl _ fun _ => rfl, add_eq_ofNat⟩
    | sSub => cases h; exact ⟨_, .slot rfl _ fun _ => rfl, sub_eq_ofInt⟩
    | sMul => cases h; exact ⟨_, .slot rfl _ fun _ => rfl, mul_eq_ofNat⟩
    | sAnd | sOr | sXor => cases h; exact ⟨_, .slot rfl _ fun _ => rfl, fun _ _ => rfl⟩
    | sShl => cases h; exact ⟨_, .slot rfl _ fun _ => rfl, shl_eq_ofNat⟩
    | sShr => cases h; exact ⟨_, .slot rfl _ fun _ => rfl, shr_eq_ofNat⟩
    | sSra => cases h; exact ⟨_, .slot rfl _ fun _ => rfl, sra_eq_ofInt⟩
    | sSlt => cases h; exact ⟨_, .slot rfl _ fun _ => rfl, fun a b => ofFlag_decide (a.toInt < b.toInt)⟩
    | sSltu => cases h; exact ⟨_, .slot rfl _ fun _ => rfl, fun a b => ofFlag_decide (a.toNat < b.toNat)⟩
    | sSeq => cases h; exact ⟨_, .slot rfl _ fun _ => rfl, fun a b => ofFlag_decide (a = b)⟩
    | _ => cases h
  rwa [show g = f from funext fun a => funext (eq a)] at shape

theorem scalarArithmetic : Claim.ScalarArithmetic := fun _ _ _ _ _ h hi =>
  (aluRule_shape h).exec_next hi (by simp [CSlot.alu])

theorem scalarImmediatesAndRegisterReads : Claim.ScalarImmediatesAndRegisterReads := by
  intro s c
  refine ⟨fun hi => ?_, fun hi => ?_, fun hi => ?_⟩
  · exact SlotShape.exec_next (act := actSLi c) (.slot rfl _ fun _ => rfl) hi (by simp [actSLi])
  · rw [SlotShape.exec_next (act := actSLui c) (.slot rfl _ fun _ => rfl) hi (by simp [actSLui]), actSLui,
      append_setWidth_eq_ofNat, State.writeS_eq_scalar]
  · rw [SlotShape.exec_next (act := actSRdreg c) (.slot rfl _ fun _ => rfl) hi (by simp [actSRdreg]), actSRdreg, CSlot.row12_eq]
    rfl

theorem scalarLoadAndStore : Claim.ScalarLoadAndStore := fun _ c =>
  ⟨fun hi => SlotShape.exec_next (act := actSLd c) (.slot rfl _ fun _ => rfl) hi (by simp [actSLd]),
   fun hi => SlotShape.exec_next (act := actSSt c) (.slot rfl _ fun _ => rfl) hi rfl⟩

/-- Settles O3: the action of each scalar row is one result, or one store, put on its way. -/
theorem scalarRows : Obligations.ScalarRows :=
  ⟨scalarArithmetic, scalarImmediatesAndRegisterReads, scalarLoadAndStore⟩

end Sys2Proof.Machine
end

section
/-!
PROOFS. The control rows: branches and loop levels (R31, R32), the range definition and the end of a task's rows (R34, R190).
-/

namespace Sys2Proof.Machine

open Claim

/-! ### Branches and loops -/

/-- The branches, each with its condition of R31. -/
theorem branchRule_shape {i : Instr} {c : CSlot} {p : BitVec 64 → Prop} (h : branchRule i = some (c, p)) :
    ∃ taken, SlotShape i c.core (c.branch taken) ∧ ∀ a, taken a = true ↔ p a := by
  cases i with
  | br => cases h; exact ⟨_, .slot rfl _ fun _ => rfl, fun _ => by simp⟩
  | brZ =>
    cases h
    exact ⟨_, .slot rfl _ fun _ => rfl, fun a => by rw [beq_iff_eq, ← BitVec.toNat_inj]; rfl⟩
  | brNz =>
    cases h
    exact ⟨_, .slot rfl _ fun _ => rfl, fun a => by rw [bne_iff_ne, ne_eq, ← BitVec.toNat_inj]; rfl⟩
  | brNeg =>
    cases h
    exact ⟨_, .slot rfl _ fun _ => rfl, fun a => by rw [BitVec.msb_eq_toInt, decide_eq_true_iff]⟩
  | _ => cases h

/-- A branch that is taken chooses the next row: R31. -/
theorem CSlot.branch_taken {c : CSlot} {taken : BitVec 64 → Bool} {s : State} (h : taken ((s.core c.core.toNat).readChk c.sa) = true) :
    c.branch taken s = withCore s c.core.toNat { s.core c.core.toNat with next := some (row c) } := by
  rw [CSlot.branch, if_pos h, CSlot.row12_eq]
  rfl

/-- A branch that is not taken changes nothing: R31. -/
theorem CSlot.branch_not_taken {c : CSlot} {taken : BitVec 64 → Bool} {s : State} (h : ¬ taken ((s.core c.core.toNat).readChk c.sa) = true) :
    c.branch taken s = s := if_neg h

theorem branches : Claim.Branches := by
  intro s i c p h hi
  obtain ⟨taken, shape, cond⟩ := branchRule_shape h
  refine ⟨fun hp => ?_, fun hp => ?_⟩
  · have act_eq := CSlot.branch_taken (s := s) ((cond _).2 hp)
    rw [shape.exec_next hi (by rw [act_eq]; rfl), act_eq]
  · have act_eq := CSlot.branch_not_taken (s := s) (mt (cond _).1 hp)
    rw [shape.exec_next hi (by rw [act_eq]), act_eq]

/-- The loop rows, each with its count of R32. -/
theorem loopRule_shape {i : Instr} {s : State} {c : CSlot} {count : Nat} (h : loopRule i (s.core c.core.toNat) = some (c, count)) :
    ∃ act, SlotShape i c.core act ∧ act s = c.loop count s := by
  cases i with
  | loopI d =>
    cases h
    refine ⟨_, .slot rfl _ fun _ => rfl, ?_⟩
    have : (c.imm.extractLsb' 12 20).toNat = c.imm.toNat / 4096 := by
      have := c.imm.isLt
      rw [BitVec.extractLsb'_toNat, Nat.shiftRight_eq_div_pow]
      omega
    rw [actLoopI, this]
  | loopR d =>
    cases h
    exact ⟨_, .slot rfl _ fun _ => rfl, rfl⟩
  | _ => cases h

theorem CSlot.lc_eq (c : CSlot) : c.lc = c.x.toNat % 4 := by
  simp [CSlot.lc, BitVec.extractLsb'_toNat]

/-- A row that ends no active loop is followed by the row behind it: R32. -/
theorem afterRow_of_ne {row : Nat} {ls : List Loop} (h : ∀ l ∈ ls, l.last ≠ row) : afterRow row ls = (ls, row + 1) := by
  cases ls with
  | nil => rfl
  | cons l ls => rw [afterRow, if_neg (h l (List.mem_cons_self ..))]

theorem loops : Claim.Loops := by
  intro s i c count h hi
  obtain ⟨act, shape, act_eq⟩ := loopRule_shape h
  rw [shape.exec_next hi (by rw [act_eq]; rfl), act_eq, CSlot.loop, State.modCore_eq_withCore, CSlot.row12_eq, CSlot.lc_eq]
  refine ⟨fun hc => by rw [if_neg hc], fun hc => ⟨by rw [if_pos hc], fun hl => afterRow_of_ne hl⟩⟩

/-- Settles O4: each row's action is a change of the next row, or of the loops, of its core. -/
theorem branchesAndLoops : Obligations.BranchesAndLoops := ⟨branches, loops⟩

/-! ### The range definition and the end of the rows -/

theorem rangeDefinition : Claim.RangeDefinition := fun _ c hi =>
  SlotShape.exec_next (act := actSbDef c) (.slot rfl _ fun _ => rfl) hi rfl

/-- A slot of a core that issues no row does nothing: R29, R190. -/
theorem slotExec_frozen {s : State} {core : CoreId} {i : Instr} {name : String} {act : State → State} (hw : i.wf = true)
    (hf : (s.core core.toNat).frozen = true) : s.slotExec core i name act = .next s := by
  rw [slotExec_wf hw, State.issueSlot, if_pos (by rw [hf]; rfl)]
  rfl

theorem taskEndRow : Claim.TaskEndRow := by
  refine fun s c hi => ⟨SlotShape.exec_next (act := actTaskEnd c) (.slot rfl _ fun _ => rfl) hi rfl, fun d hd hw => ?_⟩
  refine slotExec_frozen (i := .sAdd d) hw ?_
  rw [hd, State.core_withCore]
  simp [Core.frozen]

/-- Settles O5: `sb.def` changes one range, and past `task.end` a core issues no row. -/
theorem controlRows : Obligations.ControlRows := ⟨rangeDefinition, taskEndRow⟩

end Sys2Proof.Machine
end

section
/-!
PROOFS. The tally rows and the bank flip (R51, R55, R175 to R177, R183, R184).
-/

namespace Sys2Proof.Machine

open Claim

/-! ### The fields of a tally row -/

theorem CSlot.owner_eq (c : CSlot) : c.owner = ownerOf c := rfl

theorem CSlot.scope_eq (c : CSlot) : c.scope = scopeOf c := by
  have := c.imm.isLt
  rw [CSlot.scope, scopeOf, BitVec.extractLsb'_toNat, Nat.shiftRight_eq_div_pow]
  omega

theorem CSlot.addend_eq (c : CSlot) : c.addend = BitVec.ofInt 32 (addendOf c) := by
  have low : (c.imm.extractLsb' 0 30).toNat = c.imm.toNat % 2 ^ 30 := by simp [BitVec.extractLsb'_toNat]
  rw [CSlot.addend, BitVec.signExtend, BitVec.toInt_eq_toNat_cond, low, addendOf]
  congr 1
  split_ifs <;> omega

/-- A count and the addend of a tally row, modulo 2^32: R175. -/
theorem setWidth_add_addend (a : BitVec 64) (c : CSlot) :
    a.setWidth 32 + c.addend = BitVec.ofInt 32 (a.toNat + addendOf c) := by
  rw [CSlot.addend_eq, BitVec.ofInt_add, BitVec.ofInt_natCast, BitVec.ofNat_toNat]

theorem CSlot.target_eq (c : CSlot) (k : Core) : c.target k = targetOf c k := setWidth_add_addend _ c

theorem ownerOf_lt (c : CSlot) : ownerOf c < 256 := by
  have := c.core.isLt
  have := c.sd.isLt
  unfold ownerOf
  omega

/-! ### Tallies as places -/

theorem tallyAddr_eq (core t : Nat) : tallyAddr core t = 0x10000000000 + core * 2 ^ 24 + 0xF00000 + 8 * t := rfl

/-- The address of a tally names a place in its owner's window: R140, R174. -/
theorem place_tallyAddr (s : State) (n : Nat) {core t : Nat} (hc : core < 256) (ht : t < 64) :
    s.place n (tallyAddr core t) = .win core (0xF00000 + 8 * t) := by
  have addr := tallyAddr_eq core t
  rw [State.place_local (by omega), localPlace, if_neg (by simp only [hbmEnd]; omega),
    if_pos (by simp only [winBase, winEnd]; omega)]
  simp only [winBase, Place.win.injEq]
  omega

theorem tallyAt_tallyAddr (s : State) (n : Nat) {core t : Nat} (hc : core < 256) (ht : t < 64) :
    tallyAt (s.place n (tallyAddr core t)) = some (core, t) := by
  rw [place_tallyAddr s n hc ht, tallyAt, if_pos (by omega), Nat.add_sub_cancel_left, Nat.mul_div_cancel_left _ (by decide)]

theorem place_tallyAddr_near (s : State) (n : Nat) {core t : Nat} (hc : core < 256) (ht : t < 64) :
    s.place n (tallyAddr core t) ≠ .remote := by
  rw [place_tallyAddr s n hc ht]
  exact Place.noConfusion

/-! ### Signals -/

/-- With no request pending at its unit, an add changes one tally and nothing else: R176. -/
theorem State.addTally_of_no_reqs {s : State} {n t : Nat} {v : BitVec 32} (h : (s.core n).reqs = []) :
    s.addTally n t v = withCore s n { s.core n with tallies := mset (s.core n).tallies t (mget 0 (s.core n).tallies t + v) } := by
  simp only [State.addTally, State.serviceTally, State.setTally, State.modCore_eq_withCore, State.core_withCore, withCore_withCore, h,
    List.filter_nil, List.foldl_nil, State.tally]

/-- The add of a `tally.sig` is applied in the issue cycle where the tally is the core's own, and sets out elsewhere: R177. -/
theorem State.sendAdd_release {s : State} {n a core t k : Nat} {v : BitVec 32} (h : tallyAt (s.place n a) = some (core, t)) :
    s.sendAdd n a v (.release n k) = if core = n then s.addTally core t v else s.launch n
      { id := 0, kind := .tallyAdd, core := n, dst := a, data := leBytes 4 v.toNat, origin := .release n k } := by
  simp only [State.sendAdd, h]

theorem tallySignal : Claim.TallySignal := by
  intro s c hi
  have act_eq : actTallySig c s = s.release c.core.toNat (tallyAddr (ownerOf c) c.x.toNat) (valueOf c (s.core c.core.toNat))
      (s.outbound c.core.toNat (scopeOf c)) (.release c.core.toNat 0) := by
    rw [actTallySig, setWidth_add_addend, CSlot.scope_eq]
    rfl
  have ht : c.x.toNat < 64 := c.x.isLt
  have hexec : ∀ {t : State}, actTallySig c s = t → t.pending = s.pending → exec (.tallySig c) s = .next t := by
    rintro t rfl hp
    exact SlotShape.exec_next (.slot rfl _ fun _ => rfl) hi hp
  refine ⟨fun hw ho hr => hexec ?_ rfl, fun hw ho => hexec ?_ rfl, fun hw => hexec ?_ rfl⟩
  · rw [act_eq, State.release, hw, ho, List.isEmpty_nil, if_pos rfl, State.sendAdd_release (tallyAt_tallyAddr s _ c.core.isLt ht),
      if_pos rfl, State.addTally_of_no_reqs hr]
  · have near := place_tallyAddr_near s c.core.toNat (ownerOf_lt c) ht
    rw [act_eq, State.release, hw, List.isEmpty_nil, if_pos rfl, State.sendAdd_release (tallyAt_tallyAddr s _ (ownerOf_lt c) ht),
      if_neg ho, State.launch_eq_underWay near rfl]
    rfl
  · rw [act_eq, State.release, if_neg (by simpa using hw)]
    rfl

/-! ### Waits, takes and bank flips -/

/-- A slot that may issue finds its core neither held nor past its rows, and no condition to hold on: R29, R38, R39. -/
theorem State.mayIssue_conditions {s : State} {n : Nat} {i : Instr} (h : s.mayIssue n i = true) :
    (s.core n).frozen = false ∧ s.rowHolds n { row := [i] } = [] := by
  simp only [State.mayIssue, Bool.and_eq_true, Bool.not_eq_true'] at h
  obtain ⟨⟨⟨⟨_, hf⟩, _⟩, hh⟩, _⟩ := h
  exact ⟨hf, List.isEmpty_iff.1 hh⟩

theorem State.mayIssue_of_issuesNow {s : State} {n : Nat} {i : Instr} (h : s.issuesNow n i = true) : s.mayIssue n i = true := by
  simp only [State.issuesNow, Bool.and_eq_true] at h
  exact h.1

theorem Core.held_of_not_frozen {c : Core} (h : c.frozen = false) : c.held = none := by
  simp only [Core.frozen, Bool.or_eq_false_iff, Option.isSome_eq_false_iff, Option.isNone_iff_eq_none] at h
  exact h.1

/-- A slot that issues holds on no condition of its own: R38. -/
theorem State.slotHolds_of_rowHolds {s : State} {n : Nat} {i : Instr} {x : Issue} (h : s.rowHolds n x = []) (hi : i ∈ x.row) :
    s.slotHolds n i = [] := by
  simp only [State.rowHolds, List.append_eq_nil_iff, List.flatMap_eq_nil_iff] at h
  obtain ⟨⟨⟨⟨slots, _⟩, _⟩, _⟩, _⟩ := h
  exact slots i hi

/-- Whether a unit releases or grants a request at this count: R176. -/
def TallyReq.ready (r : TallyReq) (count : BitVec 32) : Bool :=
  match r.target with
  | some x => waitMet count x
  | none => takeOk count

/-- On a core that holds no row, a tally row finds its condition at its own unit alone: R177. -/
theorem State.tallyClear_not_held {s : State} {n o : Nat} {i : Instr} {r : TallyReq} (hh : (s.core n).held = none)
    (hr : (s.core n).tallyReq i = some (o, r)) :
    s.tallyClear n i = (o == n && r.ready (s.tally o r.tally)) := by
  simp only [State.tallyClear, hh, hr, Option.all_none, Bool.false_or, Bool.true_and]
  rfl

/-- A wait that issues is met at the core's own unit: R176, R177. -/
theorem tallyWait_met {s : State} {c : CSlot} (hi : s.issuesNow c.core.toNat (.tallyWait c) = true) :
    ownerOf c = c.core.toNat ∧ 0 ≤ (mget 0 (s.core c.core.toNat).tallies c.x.toNat - targetOf c (s.core c.core.toNat)).toInt := by
  obtain ⟨hf, hh⟩ := State.mayIssue_conditions (State.mayIssue_of_issuesNow hi)
  have holds := State.slotHolds_of_rowHolds hh (List.mem_singleton.2 rfl)
  simp only [State.slotHolds, State.tallyClear_not_held (Core.held_of_not_frozen hf) (i := .tallyWait c) rfl,
    List.append_eq_nil_iff, ite_eq_left_iff, reduceCtorEq, imp_false, not_not, Bool.and_eq_true, beq_iff_eq, TallyReq.ready, waitMet,
    decide_eq_true_eq] at holds
  obtain ⟨_, owner, met⟩ := holds
  rw [owner, CSlot.target_eq] at met
  exact ⟨owner, met⟩

/-- A take that issues is granted at the core's own unit: R176, R177. -/
theorem tallyTake_granted {s : State} {c : CSlot} (hi : s.issuesNow c.core.toNat (.tallyTake c) = true) :
    ownerOf c = c.core.toNat ∧ 1 ≤ (mget (0 : BitVec 32) (s.core c.core.toNat).tallies c.x.toNat).toInt := by
  obtain ⟨hf, hh⟩ := State.mayIssue_conditions (State.mayIssue_of_issuesNow hi)
  have holds := State.slotHolds_of_rowHolds hh (List.mem_singleton.2 rfl)
  simp only [State.slotHolds, State.tallyClear_not_held (Core.held_of_not_frozen hf) (i := .tallyTake c) rfl,
    List.append_eq_nil_iff, ite_eq_left_iff, reduceCtorEq, imp_false, not_not, Bool.and_eq_true, beq_iff_eq, TallyReq.ready, takeOk,
    decide_eq_true_eq] at holds
  obtain ⟨_, owner, granted⟩ := holds
  rw [owner] at granted
  exact ⟨owner, granted⟩

/-- A bank flip that issues finds its bank ready: R51, R176. -/
theorem bankFlip_ready {s : State} {c : CSlot} (hi : s.issuesNow c.core.toNat (.bankFlip c) = true) :
    1 ≤ (mget (0 : BitVec 32) (s.core c.core.toNat).tallies 63).toInt := by
  obtain ⟨hf, hh⟩ := State.mayIssue_conditions (State.mayIssue_of_issuesNow hi)
  have holds := State.slotHolds_of_rowHolds hh (List.mem_singleton.2 rfl)
  simp only [State.slotHolds, State.tallyClear_not_held (Core.held_of_not_frozen hf) (i := .bankFlip c) rfl,
    List.append_eq_nil_iff, ite_eq_left_iff, reduceCtorEq, imp_false, not_not, Bool.and_eq_true, beq_iff_eq, TallyReq.ready, takeOk,
    decide_eq_true_eq] at holds
  obtain ⟨_, _, ready⟩ := holds
  exact ready

theorem State.acquire_eq (s : State) (n scope : Nat) : s.acquire n scope = withCore s n (acquired n scope (s.core n)) := rfl

/-- A wait that is met without a hold is an acquire: R184. -/
theorem CSlot.satisfied_wait {c : CSlot} {s : State} {tally scope : Nat} (h : (s.core c.core.toNat).held = none) :
    c.satisfied tally scope false s = withCore s c.core.toNat (acquired c.core.toNat scope (s.core c.core.toNat)) := by
  simp only [CSlot.satisfied, h, Bool.false_eq_true, if_false, State.acquire_eq]

/-- A take that is granted without a hold is an acquire that takes 1 from the count: R176, R184. -/
theorem CSlot.satisfied_take {c : CSlot} {s : State} {tally scope : Nat} (h : (s.core c.core.toNat).held = none) :
    c.satisfied tally scope true s = withCore s c.core.toNat { acquired c.core.toNat scope (s.core c.core.toNat) with
      tallies := mset (s.core c.core.toNat).tallies tally (mget 0 (s.core c.core.toNat).tallies tally - 1) } := by
  have act_eq : c.satisfied tally scope true s =
      (s.setTally c.core.toNat tally (s.tally c.core.toNat tally - 1)).acquire c.core.toNat scope := by
    simp only [CSlot.satisfied, h, if_true]
  rw [act_eq, State.acquire_eq, State.setTally, State.modCore_eq_withCore, State.core_withCore, withCore_withCore]
  rfl

theorem tallyAcquires : Claim.TallyAcquires := by
  refine fun s c => ⟨fun hi => ?_, fun hi => ?_, fun hi => ?_⟩
  · have held := Core.held_of_not_frozen (State.mayIssue_conditions (State.mayIssue_of_issuesNow hi)).1
    have act_eq : actTallyWait c s = _ := CSlot.satisfied_wait held
    obtain ⟨owner, met⟩ := tallyWait_met hi
    refine ⟨owner, met, ?_⟩
    rw [SlotShape.exec_next (.slot rfl _ fun _ => rfl) hi (by rw [act_eq]; rfl), act_eq, CSlot.scope_eq]
  · have held := Core.held_of_not_frozen (State.mayIssue_conditions (State.mayIssue_of_issuesNow hi)).1
    have act_eq : actTallyTake c s = _ := CSlot.satisfied_take held
    obtain ⟨owner, granted⟩ := tallyTake_granted hi
    rw [CSlot.scope_eq] at act_eq
    refine ⟨owner, granted, _, SlotShape.exec_next (.slot rfl _ fun _ => rfl) hi (by rw [act_eq]; rfl), ?_⟩
    rw [act_eq]
    exact ⟨rfl, fun m hm => State.core_withCore_ne _ _ hm, State.core_withCore _ _ _⟩
  · have held := Core.held_of_not_frozen (State.mayIssue_conditions (State.mayIssue_of_issuesNow hi)).1
    have act_eq : actBankFlip c s = stirred (withCore s c.core.toNat { acquired c.core.toNat 0 (s.core c.core.toNat) with
        tallies := mset (s.core c.core.toNat).tallies 63 (mget 0 (s.core c.core.toNat).tallies 63 - 1),
        bank := 1 - (s.core c.core.toNat).bank, flips := ((s.core c.core.toNat).flips + 1) % 65536, next := some (row c) })
        c.core.toNat := by
      rw [actBankFlip, CSlot.satisfied_take held, State.modCore_withCore, State.stir_eq_stirred, CSlot.row12_eq]
      rfl
    refine ⟨bankFlip_ready hi, _, SlotShape.exec_next (.slot rfl _ fun _ => rfl) hi (by rw [act_eq]; rfl), ?_⟩
    rw [act_eq]
    refine ⟨rfl, fun m hm => ?_, ?_⟩
    · rw [State.core_stirred, State.core_withCore_ne _ _ hm]
      exact calmed_congr (by rw [State.core_withCore]; rfl) _
    · rw [State.core_stirred, State.core_withCore]
      exact calmed_congr (by rw [State.core_withCore]; rfl) _

/-- Settles O6: signals through `sendAdd` and releases, waits and takes through the conditions of the slots that issue. -/
theorem tallyRows : Obligations.TallyRows := ⟨tallySignal, tallyAcquires⟩

end Sys2Proof.Machine
end

section
/-!
PROOFS. What a slot that is held does, and the holds of breakpoints and tally rows (R24, R38, R39, R54, R176, R177).
-/

namespace Sys2Proof.Machine

open Claim

/-! ### The lowest condition -/

/-- The first of two conditions in the order of R54: by code, then by detail. -/
def lower (x h : Nat × Nat) : Nat × Nat := if h.1 < x.1 ∨ h.1 = x.1 ∧ h.2 < x.2 then h else x

theorem lowest_cons (x : Nat × Nat) (hs : List (Nat × Nat)) : lowest (x :: hs) = some (hs.foldl lower x) := by
  simp only [lowest, List.foldl_cons]
  induction hs generalizing x with
  | nil => rfl
  | cons h hs ih =>
    rw [List.foldl_cons, List.foldl_cons, ← ih]
    simp only [lower, apply_ite some]

theorem lower_le (x h : Nat × Nat) : (lower x h).1 ≤ x.1 ∧ (lower x h).1 ≤ h.1 := by
  unfold lower
  split <;> omega

theorem lower_mem (x h : Nat × Nat) : lower x h = x ∨ lower x h = h := by
  unfold lower
  split
  · exact .inr rfl
  · exact .inl rfl

theorem foldl_lower (x : Nat × Nat) (hs : List (Nat × Nat)) :
    hs.foldl lower x ∈ x :: hs ∧ ∀ h ∈ x :: hs, (hs.foldl lower x).1 ≤ h.1 := by
  induction hs generalizing x with
  | nil => simp
  | cons y hs ih =>
    obtain ⟨mem, le⟩ := ih (lower x y)
    obtain ⟨hx, hy⟩ := lower_le x y
    have first := le _ (List.mem_cons_self ..)
    refine ⟨?_, fun h hh => ?_⟩
    · rcases List.mem_cons.1 mem with e | m
      · rw [List.foldl_cons, e]
        rcases lower_mem x y with e | e <;> simp [e]
      · exact List.mem_cons_of_mem _ (List.mem_cons_of_mem _ m)
    · rcases List.mem_cons.1 hh with rfl | hh
      · exact first.trans hx
      · rcases List.mem_cons.1 hh with rfl | hh
        · exact first.trans hy
        · exact le h (List.mem_cons_of_mem _ hh)

/-- Of several conditions the lowest is one, with no code below its own: R38, R54. -/
theorem lowest_spec {hs : List (Nat × Nat)} (h : hs ≠ []) : ∃ y ∈ hs, lowest hs = some y ∧ ∀ z ∈ hs, y.1 ≤ z.1 := by
  cases hs with
  | nil => exact absurd rfl h
  | cons x hs =>
    obtain ⟨mem, le⟩ := foldl_lower x hs
    exact ⟨_, mem, lowest_cons x hs, le⟩

/-! ### A core in no gang begins a hold -/

theorem State.gang_alone {s : State} {n : Nat} (hg : (s.core n).inGang = false) : s.gang n = [n] := by
  simp [State.gang, hg]

/-- A core in no gang that issues rows is the one member that does: R44. -/
theorem State.rowMembers_alone {s : State} {n : Nat} (hg : (s.core n).inGang = false) (hf : (s.core n).frozen = false) :
    s.rowMembers n = [n] := by
  simp only [Core.frozen, Bool.or_eq_false_iff] at hf
  obtain ⟨-, phase⟩ := hf
  simp only [State.rowMembers, State.members, State.gang_alone hg, List.filter_cons, List.filter_nil]
  split at phase
  · simp [*]
  · simp [*]
  all_goals cases phase

theorem State.debugOf_withCore {s : State} {n : Nat} {c : Core} (h : c.task = (s.core n).task) :
    (withCore s n c).debugOf n = s.debugOf n := by
  unfold State.debugOf State.taskOf
  rw [State.core_withCore, h]
  rfl

theorem State.disarm_none {s : State} {n : Nat} {x : Issue} (h : s.debugOf n = none) : s.disarm n x = s := by
  simp only [State.disarm, h]

theorem Core.tallyReq_held (c : Core) (h : Option Held) (i : Instr) : { c with held := h }.tallyReq i = c.tallyReq i := by
  cases i <;> rfl

/-- One row of a core is held for the first time, with no breakpoint of a debug load: R39. -/
theorem State.beginHold_single {s : State} {n : Nat} {x : Issue} (hd : s.debugOf n = none) :
    s.beginHold [(n, x)] = (withCore s n { s.core n with held := some (x.held (s.checkHolds n x)) }).askTallies [(n, x)] := by
  simp only [State.beginHold, List.foldl_cons, List.foldl_nil, State.modCore_eq_withCore]
  have noDebug := State.debugOf_withCore (s := s) (n := n) (c := { s.core n with held := some (x.held (s.checkHolds n x)) }) rfl
  rw [State.disarm_none (noDebug.trans hd)]

/-- A held slot without a tally request asks no unit: R177. -/
theorem State.askTallies_none {s : State} {n : Nat} {x : Issue} (hx : x.fetched = false)
    (hr : x.row.filterMap (s.core n).tallyReq = []) : s.askTallies [(n, x)] =
      withCore s n { s.core n with held := (s.core n).held.map (fun h => { h with asked := false }) } := by
  simp [State.askTallies, hx, hr, State.modCore_eq_withCore]

/-- A held slot with a request at its core's own unit asks it at once: R177, R178. -/
theorem State.askTallies_own {s : State} {n : Nat} {x : Issue} {r : TallyReq} (hx : x.fetched = false)
    (hr : x.row.filterMap (s.core n).tallyReq = [(n, r)]) (hn : r.core = n) : s.askTallies [(n, x)] =
      (withCore s n { s.core n with held := (s.core n).held.map (fun h => { h with asked := true }) }).request n r := by
  have asked : ([(n, r)] != []) = true := rfl
  simp [State.askTallies, hx, hr, hn, asked, State.modCore_eq_withCore]

/-- A slot of a core in no gang that finds conditions begins a held turn, and its core's unit is asked: R39, R177. -/
theorem State.issueSlot_holds {s : State} {n : Nat} {i : Instr} {act : State → State} (hf : (s.core n).frozen = false)
    (hg : (s.core n).inGang = false) (hs : s.stalled n = false) (hd : s.debugOf n = none) (hh : s.rowHolds n { row := [i] } ≠ []) :
    s.issueSlot n i act = (withCore s n { s.core n with
      held := some ({ row := [i] : Issue }.held (s.rowHolds n { row := [i] })) }).askTallies [(n, { row := [i] })] := by
  have rows : (s.rowMembers n).map (fun m => (m, if m = n then ({ row := [i] } : Issue) else {})) = [(n, { row := [i] })] := by
    rw [State.rowMembers_alone hg hf]
    simp
  rw [State.issueSlot, if_neg (by simp [hf, hs]), if_neg (by simpa using hh), rows, State.beginHold_single hd]
  rfl

/-! ### Held slots -/

/-- A slot whose encoding the loader admits does in the issue cycle what `issueSlot` says: R9, R29. -/
theorem SlotShape.exec_wf {i : Instr} {core : CoreId} {act : State → State} (h : SlotShape i core act) (hw : i.wf = true) (s : State) :
    exec i s = done s (s.issueSlot core.toNat i act) := by
  cases h with
  | slot _ _ exec_eq => rw [exec_eq, slotExec_wf hw]
  | short b _ core_eq exec_eq =>
    subst core_eq
    rw [exec_eq, State.shortExec, if_pos hw]

theorem heldSlots : Claim.HeldSlots := by
  intro s i core hcore hw hf hg hs hd hr hh
  obtain ⟨act, shape, -⟩ := slotShape_of_slotCore hcore
  obtain ⟨y, mem, lowest_eq, le⟩ := lowest_spec hh
  refine ⟨y, mem, le, ?_⟩
  have req : [i].filterMap (Core.tallyReq { s.core core.toNat with
      held := some ({ row := [i] : Issue }.held (s.rowHolds core.toNat { row := [i] })) }) = [] := by
    simp [Core.tallyReq_held, hr]
  rw [shape.exec_wf hw, State.issueSlot_holds hf hg hs hd hh, State.askTallies_none rfl (by rwa [State.core_withCore]),
    State.core_withCore, withCore_withCore]
  simp only [Issue.held, lowest_eq]
  rfl

/-! ### Breakpoints -/

/-- The conditions of a slot without breakpoints of a debug load, on a core that is not draining, with no step used up: its own (R38). -/
theorem State.rowHolds_slot {s : State} {n : Nat} {i : Instr} (hh : (s.core n).held = none) (hd : s.debugOf n = none)
    (hq : s.draining n = false) (deliver : s.delivers n i = []) :
    s.rowHolds n { row := [i] } = s.slotHolds n i ++ if (s.core n).stepLeft == some 0 then [(0xE, 0)] else [] := by
  simp [State.rowHolds, hh, hq, State.breaksHit, hd, State.rowFull, State.deliverRanges, deliver]

theorem breakpointHolds : Claim.BreakpointHolds := by
  intro s c hw hf hg hs hd hq
  have held := Core.held_of_not_frozen hf
  have only : ∀ h ∈ s.rowHolds c.core.toNat { row := [.brk c] }, h = (0xE, 0) := by
    rw [State.rowHolds_slot held hd hq rfl]
    simp [State.slotHolds, State.touches, held]
  have own : (0xE, 0) ∈ s.rowHolds c.core.toNat { row := [.brk c] } := by
    rw [State.rowHolds_slot held hd hq rfl]
    simp [State.slotHolds, held]
  obtain ⟨y, mem, -, exec_eq⟩ := heldSlots s (.brk c) c.core rfl hw hf hg hs hd rfl (List.ne_nil_of_mem own)
  rw [exec_eq, only y mem, List.any_eq_true.2 ⟨_, own, rfl⟩]

/-! ### Tally rows -/

/-- A request that its unit can neither release nor grant stands pending there: R176, R177. -/
theorem State.request_pending {s : State} {n : Nat} {r : TallyReq} (hq : (s.core n).reqs = [])
    (hr : r.ready (s.tally n r.tally) = false) :
    s.request n r = withCore s n { s.core n with reqs := [r] } := by
  obtain ⟨core, tally, target, scope⟩ := r
  cases target with
  | some x => simp_all [State.request, State.serviceTally, State.modCore_eq_withCore, insertReq, State.tally, TallyReq.ready]
  | none => simp_all [State.request, State.serviceTally, State.modCore_eq_withCore, insertReq, State.tally, TallyReq.ready]

/-- A tally row that its own unit cannot answer is held with its code, and its request stands pending there: R38, R176, R177. -/
theorem SlotShape.exec_tally_held {i : Instr} {core : CoreId} {act : State → State} (shape : SlotShape i core act) {s : State} {r : TallyReq}
    {code : Nat} (hw : i.wf = true) (hf : (s.core core.toNat).frozen = false) (hg : (s.core core.toNat).inGang = false)
    (hs : s.stalled core.toNat = false) (hd : s.debugOf core.toNat = none) (hq : (s.core core.toNat).reqs = [])
    (hcode : code ≠ 0xE) (hn : r.core = core.toNat) (req : (s.core core.toNat).tallyReq i = some (core.toNat, r))
    (holds : s.rowHolds core.toNat { row := [i] } = [(code, r.tally)])
    (wait : r.ready (s.tally core.toNat r.tally) = false) :
    exec i s = .next (withCore s core.toNat { s.core core.toNat with
      held := some { cause := code, detail := r.tally, tag := 0, row := [i], asked := true }, reqs := [r] }) := by
  have own : [i].filterMap (Core.tallyReq { s.core core.toNat with held := some ({ row := [i] : Issue }.held [(code, r.tally)]) }) =
      [(core.toNat, r)] := by
    simp [Core.tallyReq_held, req]
  rw [shape.exec_wf hw, State.issueSlot_holds hf hg hs hd (by simp [holds]), holds,
    State.askTallies_own rfl (by rwa [State.core_withCore]) hn, State.core_withCore, withCore_withCore, State.request_pending,
    State.core_withCore, withCore_withCore]
  · simp only [Issue.held, lowest, List.foldl_cons, List.foldl_nil, Option.getD_some, List.any_cons, List.any_nil, Bool.or_false,
      beq_eq_false_iff_ne.2 hcode]
    rfl
  · rw [State.core_withCore]
    exact hq
  · simpa [State.tally] using wait

theorem tallyHolds : Claim.TallyHolds := by
  intro s c hf hg hs hd hq step reqs owner
  have held := Core.held_of_not_frozen hf
  have noStep : ((s.core c.core.toNat).stepLeft == some 0) = false := by simpa using step
  refine ⟨fun hw wait => ?_, fun hw wait => ?_⟩
  · have req : (s.core c.core.toNat).tallyReq (.tallyWait c) = some (c.core.toNat,
        ⟨c.core.toNat, c.x.toNat, some (targetOf c (s.core c.core.toNat)), scopeOf c⟩) := by
      rw [Core.tallyReq, CSlot.owner_eq, owner, CSlot.target_eq, CSlot.scope_eq]
    have unmet : waitMet (s.tally c.core.toNat c.x.toNat) (targetOf c (s.core c.core.toNat)) = false := by
      simpa [waitMet, State.tally] using wait
    refine ⟨_, SlotShape.exec_tally_held (i := .tallyWait c) (.slot rfl _ fun _ => rfl) hw hf hg hs hd reqs (by decide) rfl req ?_ unmet,
      rfl, fun m hm => State.core_withCore_ne _ _ hm, State.core_withCore _ _ _⟩
    rw [State.rowHolds_slot held hd hq rfl, noStep]
    simp [State.slotHolds, State.touches, State.tallyClear_not_held held req, TallyReq.ready, unmet]
  · have req : (s.core c.core.toNat).tallyReq (.tallyTake c) = some (c.core.toNat, ⟨c.core.toNat, c.x.toNat, none, scopeOf c⟩) := by
      rw [Core.tallyReq, CSlot.owner_eq, owner, CSlot.scope_eq]
    have refused : takeOk (s.tally c.core.toNat c.x.toNat) = false := by
      simpa [takeOk, State.tally] using wait
    refine ⟨_, SlotShape.exec_tally_held (i := .tallyTake c) (.slot rfl _ fun _ => rfl) hw hf hg hs hd reqs (by decide) rfl req ?_ refused,
      rfl, fun m hm => State.core_withCore_ne _ _ hm, State.core_withCore _ _ _⟩
    rw [State.rowHolds_slot held hd hq rfl, noStep]
    simp [State.slotHolds, State.touches, State.tallyClear_not_held held req, TallyReq.ready, refused]

/-- Settles O7: a held slot of a core alone begins its turn with the lowest condition, of which breakpoints and tally rows have one. -/
theorem holdConditions : Obligations.HoldConditions := ⟨heldSlots, breakpointHolds, tallyHolds⟩

end Sys2Proof.Machine
end

section
/-!
PROOFS. The B slot's moves and the short path (R46, R47, R156 to R159): what sets out at issue.
-/

namespace Sys2Proof.Machine

open Claim

/-- A slot that issues answers the state `t` that its action makes, where `t` keeps the queue. -/
theorem SlotShape.exec_eq_next {i : Instr} {core : CoreId} {act : State → State} (h : SlotShape i core act) {s t : State}
    (hi : s.issuesNow core.toNat i = true) (act_eq : act s = t) (hp : t.pending = s.pending) : exec i s = .next t := by
  subst act_eq
  exact h.exec_next hi hp

/-! ### Fields and operands -/

theorem BSlot.bits_eq (b : BSlot) (hi lo : Nat) : b.bits hi lo = b.f.toNat / 2 ^ lo % 2 ^ (hi + 1 - lo) := by
  rw [BSlot.bits, BitVec.extractLsb'_toNat, Nat.shiftRight_eq_div_pow]

theorem BSlot.off_eq (b : BSlot) : b.off = b.f.toNat / 2 ^ 16 := by
  have := b.f.isLt
  rw [BSlot.off, BSlot.bits_eq]
  omega

theorem BSlot.bytes_eq (b : BSlot) : b.bytes = spBytes b := by
  rw [BSlot.bytes, BSlot.bits_eq, pow_zero, Nat.div_one]
  rfl

theorem BSlot.moveBytes_eq (b : BSlot) : b.moveBytes = 64 * (b.f.toNat % 8 + 1) := by
  rw [BSlot.moveBytes, BSlot.bits_eq, pow_zero, Nat.div_one]
  rfl

theorem BSlot.scope_eq (b : BSlot) : b.bits 5 4 = b.f.toNat / 16 % 4 := BSlot.bits_eq b 5 4

theorem BSlot.volatile_eq (b : BSlot) : (b.bits 3 3 == 1) = b.f.getLsbD 3 := by
  rw [BSlot.bits_eq, BitVec.getLsbD, Nat.testBit_eq_decide_div_mod_eq]
  rfl

/-- A scaled offset on a check operand is a sum modulo 2^64: R144, R156. -/
theorem Core.chkOff_eq (c : Core) (r : BitVec 5) (off : Nat) : c.chkOff r off = ((c.readChk r).toNat + off) % 2 ^ 64 := by
  simp [Core.chkOff]

theorem BSlot.localSrc_eq (b : BSlot) (c : Core) : b.localSrc c = spLocal c b.src b := by
  rw [BSlot.localSrc, Core.chkOff_eq, BSlot.off_eq, spLocal]

theorem BSlot.localDst_eq (b : BSlot) (c : Core) : b.localDst c = spLocal c b.dst b := by
  rw [BSlot.localDst, Core.chkOff_eq, BSlot.off_eq, spLocal]

/-! ### Scoreboard counts -/

/-- Counting into ranges changes the ranges alone: R35. -/
theorem Core.countUp_eq (c : Core) (rs : List Nat) : c.countUp rs = { c with ranges := (c.countUp rs).ranges } :=
  List.foldlRecOn (motive := fun d : Core => d = { c with ranges := d.ranges }) rs _ rfl (fun d h r _ => by rw [h])

/-- Counting out of ranges changes the ranges alone: R35. -/
theorem Core.countDown_eq (c : Core) (rs : List Nat) : c.countDown rs = { c with ranges := (c.countDown rs).ranges } :=
  List.foldlRecOn (motive := fun d : Core => d = { c with ranges := d.ranges }) rs _ rfl (fun d h r _ => by rw [h])

/-- What an address names does not depend on a core's condition, as long as its task is the same: R140, R339. -/
theorem State.place_withCore {s : State} {n : Nat} {c : Core} (h : c.task = (s.core n).task) (a : Nat) :
    (withCore s n c).place n a = s.place n a := by
  refine State.place_congr (s := s) (t := withCore s n c) rfl ?_ a
  unfold State.taskOf
  rw [State.core_withCore, h]
  rfl

theorem withCore_numbered (s : State) (n k : Nat) (c d : Core) :
    withCore { withCore s n c with nextId := k } n d = { withCore s n d with nextId := k } := by
  rw [← withCore_withCore s n c d]
  rfl

/-- A core is changed after a number was given out. -/
theorem State.modCore_withCore_numbered (s : State) (n k : Nat) (c : Core) (f : Core → Core) :
    State.modCore { withCore s n c with nextId := k } n f = { withCore s n (f c) with nextId := k } := by
  rw [← State.modCore_withCore]
  rfl

/-! ### Rib paths -/

/-- Inside its gang a put goes to the neighbours its two bits name: R46. -/
theorem State.ribTargets_neighbours {s : State} {n : Nat} {b : BSlot} (hg : (s.core n).inGang = true)
    (prev : b.cnt.getLsbD 0 = true → 0 < (s.core n).gangPos)
    (next : b.cnt.getLsbD 1 = true → (s.core n).gangPos < (s.core n).gangLast) :
    s.ribTargets n b = (if b.cnt.getLsbD 0 then [n - 1] else []) ++ if b.cnt.getLsbD 1 then [n + 1] else [] := by
  have first : b.cnt.getLsbD 0 = true → (s.core n).gangPos ≠ 0 := fun h => (prev h).ne'
  have last : b.cnt.getLsbD 1 = true → (s.core n).gangPos + 1 < (s.core n).gangLast + 1 := fun h => Nat.succ_lt_succ (next h)
  simp only [State.ribTargets, hg, Bool.not_true, Bool.false_eq_true, if_false]
  congr 1
  · split
    · rw [if_pos (first ‹_›)]
    · rfl
  · split
    · rw [if_pos (last ‹_›)]
    · rfl

/-- A gang of 32 closes into a ring: R46. -/
theorem State.ribTargets_ring {s : State} {n : Nat} {b : BSlot} (hg : (s.core n).inGang = true) (hl : (s.core n).gangLast = 31)
    (hp : (s.core n).gangPos = 0) (hc : b.cnt = 1) : s.ribTargets n b = [n + 31] := by
  simp [State.ribTargets, hg, hc, hp, hl]

theorem actRibPut_single {s : State} {b : BSlot} {m : Nat} (h : s.ribTargets b.core.toNat b = [m]) :
    actRibPut b s = issued s b.core.toNat [⟨now s b.core.toNat + 3, .bytes m (b.ribDst (s.core b.core.toNat))
      (Memory.readN (s.pcore b.core.toNat).mem (b.ribSrc (s.core b.core.toNat)) 64)⟩] := by
  simp only [actRibPut, h, List.foldl_cons, List.foldl_nil]
  rfl

theorem actRibPut_pair {s : State} {b : BSlot} {m k : Nat} (h : s.ribTargets b.core.toNat b = [m, k]) :
    let n := b.core.toNat
    let d := Memory.readN (s.pcore n).mem (b.ribSrc (s.core n)) 64
    actRibPut b s = withCore s n { s.core n with pipe := (s.core n).pipe ++
      [⟨now s n + 3, .bytes m (b.ribDst (s.core n)) d⟩, ⟨now s n + 3, .bytes k (b.ribDst (s.core n)) d⟩] } := by
  intro n d
  have act_eq : actRibPut b s = issued (issued s n [⟨now s n + 3, .bytes m (b.ribDst (s.core n)) d⟩]) n
      [⟨now (issued s n [⟨now s n + 3, .bytes m (b.ribDst (s.core n)) d⟩]) n + 3, .bytes k (b.ribDst (s.core n)) d⟩] := by
    simp only [actRibPut, h, List.foldl_cons, List.foldl_nil]
    rfl
  have same_cycle : now (issued s n [⟨now s n + 3, .bytes m (b.ribDst (s.core n)) d⟩]) n = now s n := by
    rw [now, issued, State.core_withCore]
    rfl
  rw [act_eq, same_cycle, issued, issued, State.core_withCore, withCore_withCore, List.append_assoc]
  rfl

theorem ribPut : Claim.RibPut := by
  intro s b hi hg n c d
  have exec_eq : ∀ {t : State}, actRibPut b s = t → t.pending = s.pending → exec (.ribPut b) s = .next t :=
    SlotShape.exec_eq_next (.slot rfl _ fun _ => rfl) hi
  have gang : (s.core n).inGang = true := hg
  have targets := fun prev next => State.ribTargets_neighbours (b := b) gang prev next
  refine ⟨fun hc hp => exec_eq (actRibPut_single ?_) rfl, fun hc hp => exec_eq (actRibPut_single ?_) rfl, fun hc hp hl => ?_,
    fun hl hc hp => exec_eq (actRibPut_single (State.ribTargets_ring gang hl hp hc)) rfl⟩
  · rw [targets (fun _ => hp) (by simp [hc]), hc]
    rfl
  · rw [targets (by simp [hc]) (fun _ => hp), hc]
    rfl
  · have both : s.ribTargets n b = [n - 1, n + 1] := by
      rw [targets (fun _ => hp) (fun _ => hl), hc]
      rfl
    exact ⟨_, exec_eq (actRibPut_pair both) rfl, rfl, fun m hm => State.core_withCore_ne _ _ hm, State.core_withCore _ _ _⟩

/-! ### Short-path writes -/

@[simp] theorem Memory.length_readN (m : Memory) (a len : Nat) : (Memory.readN m a len).length = len := by
  induction len generalizing a with
  | zero => rfl
  | succ len ih => rw [Memory.readN, List.length_cons, ih]

@[simp] theorem length_leBytes (len v : Nat) : (leBytes len v).length = len := by
  induction len generalizing v with
  | zero => rfl
  | succ len ih => rw [leBytes, List.length_cons, ih]

/-- A short-path write sets out to a home of this module: R156. -/
theorem State.shortWrite_near {s : State} {n kind addr loc : Nat} {data : List Byte} (h : s.place n addr ≠ .remote) :
    s.shortWrite n kind addr loc data = underWay { withCore s n (shortAdded (s.core n)
        { id := s.nextId, kind := kind, remote := addr, loc := loc, len := data.length }) with nextId := s.nextId + 1 } n
      (carrying 0 .write n addr data (.short n s.nextId)) := by
  have near : State.place { withCore s n (shortAdded (s.core n)
      { id := s.nextId, kind := kind, remote := addr, loc := loc, len := data.length }) with nextId := s.nextId + 1 } n addr ≠ .remote := by
    have := State.place_withCore (s := s) (n := n) (c := shortAdded (s.core n)
      { id := s.nextId, kind := kind, remote := addr, loc := loc, len := data.length }) rfl addr
    rwa [← this] at h
  exact State.launch_eq_underWay near rfl

theorem shortWrites : Claim.ShortWrites := by
  refine fun s b => ⟨fun hi near clean => ?_, fun hi near => ?_⟩
  · refine SlotShape.exec_eq_next (act := actSpPut b) (.short b rfl rfl fun _ => rfl) hi ?_ rfl
    rw [actSpPut, BSlot.localSrc_eq, BSlot.bytes_eq, State.readWeak_clean clean, Core.chk, State.bufRead, State.shortWrite_near near,
      Memory.length_readN]
  · refine SlotShape.exec_eq_next (act := actSpWord b) (.short b rfl rfl fun _ => rfl) hi ?_ rfl
    rw [actSpWord, BSlot.remote, Core.chkOff_eq, BSlot.off_eq, State.shortWrite_near near, length_leBytes]

/-! ### Short-path reads -/

/-- What may combine does not depend on a core's condition, as long as its task is the same: R152, R197. -/
theorem State.combinable_withCore {s : State} {n : Nat} {c : Core} (h : c.task = (s.core n).task) (a : Nat) :
    (withCore s n c).combinable n a = s.combinable n a := by
  unfold State.combinable
  rw [State.place_withCore h]

/-- A read whose core has no read to combine with sets out to a home of this module, and where it may combine its core keeps it: R152. -/
theorem State.sendRead_near {s : State} {n : Nat} {x : Txn} (near : s.place n x.dst ≠ .remote) (alone : (s.core n).combine = [])
    (hx : x.origin.core? = some n) :
    s.sendRead n x true = underWay (if x.vol = false ∧ s.combinable n x.dst = true then
      withCore s n { s.core n with combine := [{ addr := x.dst, txn := s.nextId, line := true }] } else s) n x := by
  have no_like : s.combineWith n x.dst x.len true = none := by rw [State.combineWith, alone]; rfl
  have room : decide (0 < 16) = true := rfl
  simp only [State.sendRead, no_like, ite_self, alone, State.modCore_eq_withCore, List.countP_nil, List.nil_append, if_true, room,
    Bool.and_true, Bool.and_eq_true, Bool.not_eq_true']
  split
  · exact State.launch_eq_underWay (fun h => near ((State.place_withCore (by rfl) _).symm.trans h)) hx
  · exact State.launch_eq_underWay near hx

/-- A short-path read as an operation of its core. -/
def spGetOp (b : BSlot) (rs : List Nat) (id : Nat) (c : Core) : ShortOp :=
  { id := id, kind := 9, remote := (c.readChk b.src).toNat, loc := spLocal c b.dst b, len := spBytes b, ranges := rs }

/-- A short-path read as a transaction of core `n`. -/
def spGetTxn (b : BSlot) (n id : Nat) (c : Core) : Txn :=
  { carrying 0 .readReq n (c.readChk b.src).toNat [] (.short n id) with
    vol := b.f.getLsbD 3, len := spBytes b, loc := spLocal c b.dst b }

/-- The action of `sp.get`: one operation more is outstanding, and its read sets out or combines: R152, R156. -/
theorem actSpGet_eq (b : BSlot) (rs : List Nat) (s : State) (c : Core) :
    actSpGet b rs (withCore s b.core.toNat c) = State.sendRead
      { withCore s b.core.toNat (shortAdded c (spGetOp b rs s.nextId c)) with nextId := s.nextId + 1 } b.core.toNat
      (spGetTxn b b.core.toNat s.nextId c) true := by
  have op := State.modCore_withCore_numbered s b.core.toNat (s.nextId + 1) c
    (fun k => k.addShort { spGetOp b rs s.nextId k with remote := (c.readChk b.src).toNat })
  simp only [actSpGet, BSlot.volatile_eq, BSlot.localDst_eq, BSlot.bytes_eq, State.core_withCore]
  exact congrArg (fun t => State.sendRead t b.core.toNat (spGetTxn b b.core.toNat s.nextId c) true) op

/-- `sp.get` on its own: R35, R152, R156. -/
theorem actSpGet_alone {b : BSlot} {rs : List Nat} {s : State} {c : Core} (hc : s.core b.core.toNat = c)
    (near : s.place b.core.toNat (c.readChk b.src).toNat ≠ .remote) (alone : c.combine = []) :
    actSpGet b rs (withCore s b.core.toNat (c.countUp rs)) = underWay { withCore s b.core.toNat { (c.countUp rs) with
        combine := if b.f.getLsbD 3 = false ∧ s.combinable b.core.toNat (c.readChk b.src).toNat = true then
          [{ addr := (c.readChk b.src).toNat, txn := s.nextId + 1, line := true }] else []
        short := c.short ++ [spGetOp b rs s.nextId c] } with nextId := s.nextId + 1 } b.core.toNat
      (spGetTxn b b.core.toNat s.nextId c) := by
  rw [Core.countUp_eq, actSpGet_eq]
  generalize hk : shortAdded { c with ranges := (c.countUp rs).ranges } (spGetOp b rs s.nextId { c with ranges := (c.countUp rs).ranges }) = k
  have core_eq : State.core { withCore s b.core.toNat k with nextId := s.nextId + 1 } b.core.toNat = k := State.core_withCore s _ k
  have task_eq : k.task = (s.core b.core.toNat).task := by rw [← hk, hc]; rfl
  have comb_eq : k.combine = [] := by rw [← hk]; exact alone
  have place_eq := State.place_withCore task_eq (c.readChk b.src).toNat
  have may_eq : State.combinable { withCore s b.core.toNat k with nextId := s.nextId + 1 } b.core.toNat (c.readChk b.src).toNat =
    s.combinable b.core.toNat (c.readChk b.src).toNat := State.combinable_withCore task_eq _
  rw [State.sendRead_near (fun h => near (place_eq.symm.trans h)) (by rw [core_eq, comb_eq]) rfl, core_eq]
  refine congrArg (fun t => underWay t b.core.toNat (spGetTxn b b.core.toNat s.nextId c)) ?_
  by_cases may : b.f.getLsbD 3 = false ∧ s.combinable b.core.toNat (c.readChk b.src).toNat = true
  · rw [if_pos may, if_pos ⟨may.1, may_eq.trans may.2⟩, withCore_numbered, ← hk]
    rfl
  · rw [if_neg may, if_neg (fun h => may ⟨h.1, may_eq.symm.trans h.2⟩)]
    have same : k = { k with combine := [] } := by rw [← comb_eq]
    rw [same, ← hk]
    rfl

theorem shortRead : Claim.ShortRead := by
  intro s b hi n c a rs near alone
  exact SlotShape.exec_eq_next (act := fun s => actSpGet b (s.deliverRanges b.core.toNat (.spGet b)) (s.count b.core.toNat (.spGet b)))
    (.short b rfl rfl fun _ => rfl) hi (actSpGet_alone rfl near alone) rfl

/-! ### Short-path signals -/

/-- The add of a short-path signal toward a tally of this module is in flight at once: R177. -/
theorem State.sendAdd_short {s : State} {n a k : Nat} {v : BitVec 32} (near : s.place n a ≠ .remote) :
    s.sendAdd n a v (.short n k) = underWay s n (carrying 0 .tallyAdd n a (leBytes 4 v.toNat) (.short n k)) :=
  State.launch_eq_underWay near rfl

theorem shortSignal : Claim.ShortSignal := by
  intro s b hi n c a v o
  refine ⟨fun hw near => ?_, fun hw => ?_⟩
  · refine SlotShape.exec_eq_next (act := actSpSig b) (.short b rfl rfl fun _ => rfl) hi ?_ rfl
    have near' : State.place { withCore s n (shortAdded c o) with nextId := s.nextId + 1 } n a ≠ .remote := by
      rwa [← State.place_withCore (c := shortAdded c o) rfl] at near
    rw [← State.sendAdd_short near', actSpSig, BSlot.scope_eq, hw]
    rfl
  · refine SlotShape.exec_eq_next (act := actSpSig b) (.short b rfl rfl fun _ => rfl) hi ?_ rfl
    have waits : (s.outbound n (b.f.toNat / 16 % 4)).isEmpty = false := by simpa using hw
    have act_eq : actSpSig b s = State.release { withCore s n (shortAdded c o) with nextId := s.nextId + 1 } n a v
      (s.outbound n (b.f.toNat / 16 % 4)) (.short n s.nextId) := by rw [actSpSig, BSlot.scope_eq]; rfl
    rw [act_eq, State.release, waits, if_neg Bool.false_ne_true]
    exact State.modCore_withCore_numbered s n (s.nextId + 2) _ _

/-! ### Transactions that set out one after the other -/

/-- A transaction without its number. -/
def Txn.unnumbered (x : Txn) : Txn := { x with id := 0 }

theorem calmed_calmed (s : State) (n : Nat) (k : Core) : calmed s n (calmed s n k) = calmed s n k := by
  by_cases h : (s.core n).task.isSome ∧ k.task = (s.core n).task
  · simp [calmed, h]
  · simp [calmed, h]

theorem calmed_task (s : State) (n : Nat) (k : Core) : (calmed s n k).task = k.task := by
  unfold calmed
  split <;> rfl

theorem calmed_underWay (s : State) (n : Nat) (x : Txn) (k : Core) : calmed (underWay s n x) n k = calmed s n k :=
  calmed_congr (by rw [State.core_underWay, calmed_task]) k

/-- Transactions of one core enter flight in their order, and its task is calmed once and for all: R193. -/
theorem State.foldl_send {α : Type} {n : Nat} {f : α → Txn} (hf : ∀ p, (f p).origin.core? = some n) {ps : List α} (hp : ps ≠ [])
    (s : State) : ∃ t, ∃ xs : List Txn, ps.foldl (fun s p => s.send (f p)) s = t ∧
      t = { s with cores := t.cores, nextId := t.nextId, flight := s.flight ++ xs } ∧
      (∀ m, t.core m = calmed s n (s.core m)) ∧ xs.map Txn.unnumbered = ps.map (fun p => (f p).unnumbered) := by
  induction ps generalizing s with
  | nil => exact absurd rfl hp
  | cons p ps ih =>
    have first : s.send (f p) = underWay s n (f p) := State.send_eq_underWay (hf p)
    cases ps with
    | nil => exact ⟨_, [{ f p with id := s.nextId }], rfl, by rw [List.foldl_cons, first]; rfl,
        fun m => by rw [List.foldl_cons, first]; exact State.core_underWay s n m _, rfl⟩
    | cons q qs =>
      obtain ⟨t, xs, run, frame, cores, txns⟩ := ih (List.cons_ne_nil q qs) (underWay s n (f p))
      refine ⟨t, { f p with id := s.nextId } :: xs, by rw [List.foldl_cons, first, run], ?_, fun m => ?_, ?_⟩
      · rw [frame]
        simp [underWay, stirred]
      · rw [cores, calmed_underWay, State.core_underWay, calmed_calmed]
      · rw [List.map_cons, txns]
        rfl

/-! ### Moves -/

theorem slice_append (data : List Byte) (a : Nat) {k len : Nat} (h : k ≤ len) :
    slice data a k ++ slice data (a + k) (len - k) = slice data a len := by
  simp only [slice]
  rw [← List.drop_drop, ← List.take_add, Nat.add_sub_cancel' h]

/-- The first burst of bytes ends with them or at a 256-byte boundary: R149. -/
theorem cutPiece_succ (src dst f : Nat) {len : Nat} (h : len ≠ 0) : ∃ k, k ≤ len ∧ (k = len ∨ k = 256 - dst % 256) ∧
    cutPiece src dst (f + 1) len = { src := src, dst := dst, len := k } :: cutPiece (src + k) (dst + k) f (len - k) := by
  refine ⟨min len (256 - dst % 256), by omega, by omega, ?_⟩
  rw [cutPiece, if_neg h]

@[simp] theorem cutPiece_zero (src dst f : Nat) : cutPiece src dst f 0 = [] := by
  cases f <;> rfl

/-- Bursts cut from bytes hold these bytes, one after the other: R147, R149. -/
theorem cutPiece_bytes (data : List Byte) (f src dst len : Nat) (hf : len = 0 ∨ len + dst % 256 ≤ 256 * f) :
    (cutPiece src dst f len).flatMap (fun p => slice data p.src p.len) = slice data src len := by
  induction f generalizing src dst len with
  | zero =>
    obtain rfl : len = 0 := by omega
    simp [slice]
  | succ f ih =>
    by_cases h : len = 0
    · simp [h, slice]
    · obtain ⟨k, hk, ends, cut⟩ := cutPiece_succ src dst f h
      rw [cut, List.flatMap_cons, ih _ _ _ (by omega), slice_append _ _ hk]

/-- Bursts go to consecutive places: R147, R149. -/
theorem cutPiece_dst {data : List Byte} {f src dst len : Nat} (hd : src + len ≤ data.length) {i : Nat} {p : Burst}
    (hp : (cutPiece src dst f len)[i]? = some p) :
    p.dst = dst + (((cutPiece src dst f len).take i).flatMap (fun p => slice data p.src p.len)).length := by
  induction f generalizing src dst len i with
  | zero => cases hp
  | succ f ih =>
    by_cases h : len = 0
    · simp [h] at hp
    · obtain ⟨k, hk, -, cut⟩ := cutPiece_succ src dst f h
      rw [cut] at hp ⊢
      cases i with
      | zero =>
        cases hp
        simp
      | succ i =>
        have len_eq : (slice data src k).length = k := by
          rw [slice, List.length_take, List.length_drop]
          omega
        rw [List.take_succ_cons, List.flatMap_cons, List.length_append, len_eq, ih (by omega) hp, Nat.add_assoc]

/-- A move as an operation of core `n`. -/
def bMoveOp (b : BSlot) (rs : List Nat) (n id : Nat) (c : Core) : ShortOp :=
  { id := id, kind := 1, remote := 0x10000000000 + n * 2 ^ 24 + (c.readChk b.dst).toNat, loc := (c.readChk b.dst).toNat,
    len := 64 * (b.f.toNat % 8 + 1), ranges := rs }

/-- One burst of a move's bytes on its way to its place. -/
def bMoveTxn (n id : Nat) (data : List Byte) (p : Burst) : Txn :=
  { id := 0, kind := .landing, core := n, dst := winBase + n * 0x1000000 + p.dst, data := slice data p.src p.len, loc := p.dst,
    origin := .short n id }

/-- The bytes that a move reads: R128, R156. -/
def bMoveData (b : BSlot) (s : State) (c : Core) : List Byte :=
  Memory.readN (s.pcore b.core.toNat).mem (spLocal c b.src b) (64 * (b.f.toNat % 8 + 1))

/-- The bursts of a move: R128, R149. -/
def bMoveBursts (b : BSlot) (c : Core) : List Burst :=
  cutPiece 0 (c.readChk b.dst).toNat (b.f.toNat % 8 + 2) (64 * (b.f.toNat % 8 + 1))

/-- The action of `b.move`: one operation more is outstanding, and its bursts set out: R128, R156. -/
theorem actBMove_eq {b : BSlot} {rs : List Nat} {s : State} {c : Core}
    (clean : s.readsClean b.core.toNat [(spLocal c b.src b, 64 * (b.f.toNat % 8 + 1))] = true) :
    actBMove b rs (withCore s b.core.toNat c) =
      (bMoveBursts b c).foldl (fun u p => u.send (bMoveTxn b.core.toNat s.nextId (bMoveData b s c) p))
        { withCore s b.core.toNat (shortAdded c (bMoveOp b rs b.core.toNat s.nextId c)) with nextId := s.nextId + 1 } := by
  have clean' : (withCore s b.core.toNat c).readsClean b.core.toNat [(spLocal c b.src b, 64 * (b.f.toNat % 8 + 1))] = true := clean
  have op := State.modCore_withCore_numbered s b.core.toNat (s.nextId + 1) c
    (fun k => k.addShort (bMoveOp b rs b.core.toNat s.nextId c))
  simp only [actBMove, BSlot.localSrc_eq, BSlot.moveBytes_eq, State.core_withCore, State.readWeak_clean clean',
    Nat.mul_div_cancel_left _ (show 0 < 64 by decide)]
  exact congrArg (fun t : State => (bMoveBursts b c).foldl
    (fun u p => u.send (bMoveTxn b.core.toNat s.nextId (bMoveData b s c) p)) t) op

/-- The bursts of a move hold the bytes it reads, in order: R128, R149. -/
theorem bMoveBursts_bytes (b : BSlot) (s : State) (c : Core) :
    (bMoveBursts b c).flatMap (fun p => slice (bMoveData b s c) p.src p.len) = bMoveData b s c := by
  rw [bMoveBursts, cutPiece_bytes _ _ _ _ _ (.inr (by omega)), slice, List.drop_zero, List.take_of_length_le]
  rw [bMoveData, Memory.length_readN]

theorem flatMap_data_unnumbered (xs : List Txn) :
    xs.flatMap (fun x => x.data) = (xs.map Txn.unnumbered).flatMap (fun x => x.data) := by
  rw [List.flatMap_map]
  rfl

/-- A transaction that set out as one of these is one of these but for its number. -/
theorem exists_unnumbered {xs : List Txn} {ps : List Burst} {f : Burst → Txn} (h : xs.map Txn.unnumbered = ps.map (fun p => (f p).unnumbered))
    {i : Nat} {x : Txn} (hx : xs[i]? = some x) : ∃ p, ps[i]? = some p ∧ x.unnumbered = (f p).unnumbered := by
  have at_i := congrArg (fun l => l[i]?) h
  simp only [List.getElem?_map, hx, Option.map_some] at at_i
  obtain ⟨p, hp, eq⟩ := Option.map_eq_some_iff.1 at_i.symm
  exact ⟨p, hp, eq.symm⟩

theorem bufferMove : Claim.BufferMove := by
  intro s b hi n c rs len dst clean
  let k : Core := { c with ranges := (c.countUp rs).ranges, short := c.short ++ [bMoveOp b rs n s.nextId c] }
  have k_eq : k = { (c.countUp rs) with short := c.short ++ [bMoveOp b rs n s.nextId c] } := by rw [Core.countUp_eq]
  have act_eq : actBMove b rs (withCore s n (c.countUp rs)) =
      (bMoveBursts b c).foldl (fun u p => u.send (bMoveTxn n s.nextId (bMoveData b s c) p)) { withCore s n k with nextId := s.nextId + 1 } := by
    rw [Core.countUp_eq]
    exact actBMove_eq (c := { c with ranges := (c.countUp rs).ranges }) clean
  have some_burst : bMoveBursts b c ≠ [] := fun h => by
    have := bMoveBursts_bytes b s c
    rw [h, bMoveData] at this
    simpa using (congrArg List.length this).symm
  obtain ⟨t, xs, run, frame, cores, txns⟩ := State.foldl_send (n := n) (f := bMoveTxn n s.nextId (bMoveData b s c)) (fun _ => rfl)
    some_burst { withCore s n k with nextId := s.nextId + 1 }
  have core_eq : State.core { withCore s n k with nextId := s.nextId + 1 } n = k := State.core_withCore s n k
  have frame' : t = { s with cores := t.cores, nextId := t.nextId, flight := s.flight ++ xs } := frame
  have calm : ∀ m, calmed { withCore s n k with nextId := s.nextId + 1 } n m = calmed s n m := calmed_congr (by rw [core_eq])
  refine ⟨t, xs, ?_, frame', fun m hm => ?_, ?_, ?_, fun x hx => ?_, fun i h => ?_⟩
  · exact SlotShape.exec_eq_next (act := fun s => actBMove b (s.deliverRanges b.core.toNat (.bMove b)) (s.count b.core.toNat (.bMove b)))
      (.slot rfl _ fun _ => rfl) hi (act_eq.trans run) (by rw [frame'])
  · rw [cores, calm]
    exact congrArg _ (State.core_withCore_ne s k hm)
  · rw [cores, calm, core_eq, k_eq]
    rfl
  · rw [flatMap_data_unnumbered, txns, List.flatMap_map]
    exact bMoveBursts_bytes b s c
  · obtain ⟨i, at_i⟩ := List.mem_iff_getElem?.1 hx
    obtain ⟨p, -, eq⟩ := exists_unnumbered txns at_i
    exact ⟨congrArg Txn.kind eq, congrArg Txn.core eq, congrArg Txn.origin eq⟩
  · obtain ⟨p, hp, eq⟩ := exists_unnumbered txns (List.getElem?_eq_getElem h)
    rw [show (xs[i]).loc = p.dst from congrArg Txn.loc eq, flatMap_data_unnumbered, List.map_take, txns, ← List.map_take, List.flatMap_map]
    refine cutPiece_dst (data := bMoveData b s c) ?_ hp
    rw [bMoveData, Memory.length_readN]
    omega

/-- Settles O24: each row's action is written out as what it puts on its way. -/
theorem bufferRows : Obligations.BufferRows := ⟨ribPut, shortWrites, shortRead, shortSignal, bufferMove⟩

end Sys2Proof.Machine
end

section
/-!
PROOFS. The descriptor rows (R142 to R148, R159, R198 to R202): DMA queues, strand messages and cable commands.
-/

namespace Sys2Proof.Machine

open Claim

/-! ### Fields of the D slot -/

theorem toNat_extractLsb'_one {w : Nat} (f : BitVec w) (k : Nat) : (f.extractLsb' k 1).toNat = (f.getLsbD k).toNat := by
  rw [BitVec.extractLsb'_toNat, Nat.shiftRight_eq_div_pow, BitVec.getLsbD, Nat.testBit_eq_decide_div_mod_eq]
  have : f.toNat / 2 ^ k % 2 < 2 := Nat.mod_lt _ (by decide)
  by_cases h : f.toNat / 2 ^ k % 2 = 1
  · simp [h]
  · simp [show f.toNat / 2 ^ k % 2 = 0 by omega]

/-! ### Reads at the check stage -/

/-- What a descriptor holds, with its registers, does not depend on the ranges of its core: R144, R146. -/
theorem State.dmaDesc_ranges (s : State) (n : Nat) (d : DSlot) (get : Bool) (r : List (Nat × Range)) :
    (withCore s n { s.core n with ranges := r }).dmaDesc n d get = s.dmaDesc n d get := by
  unfold State.dmaDesc State.chkRead
  rw [State.core_withCore]
  rfl

/-- What is outstanding does not depend on the ranges of its core: R182. -/
theorem State.outbound_ranges (s : State) (n scope : Nat) (r : List (Nat × Range)) :
    (withCore s n { s.core n with ranges := r }).outbound n scope = s.outbound n scope := by
  unfold State.outbound
  rw [State.core_withCore]
  rfl

/-- A register added to an address, modulo 2^64: R144. -/
theorem ofNat_add_toNat (a : Nat) (r : BitVec 64) : (BitVec.ofNat 64 a + r).toNat = (a + r.toNat) % 2 ^ 64 := by
  simp

/-! ### DMA queues -/

/-- A descriptor counted into its ranges takes the last place of its queue: R35, R145, R448. -/
theorem State.enqueue_counted (s : State) (d : DSlot) (get : Bool) (rs : List Nat) :
    (withCore s d.core.toNat ((s.core d.core.toNat).countUp rs)).enqueue d get rs =
      { withCore s d.core.toNat { ((s.core d.core.toNat).countUp rs) with
          queues := mset (s.core d.core.toNat).queues d.q.toNat (mget [] (s.core d.core.toNat).queues d.q.toNat ++
            [({ id := s.nextId, isGet := get, desc := s.dmaDesc d.core.toNat d get, ranges := rs,
                covers := if (s.dmaDesc d.core.toNat d get).sigEn = true ∧ (s.dmaDesc d.core.toNat d get).ordered = false then
                  s.outbound d.core.toNat (s.dmaDesc d.core.toNat d get).scope else [] } : DEntry)]) } with nextId := s.nextId + 1 } := by
  rw [Core.countUp_eq]
  simp only [State.enqueue, State.dmaDesc_ranges, State.outbound_ranges, Bool.and_eq_true, Bool.not_eq_true']
  exact State.modCore_withCore_numbered s _ _ _ _

/-- What a descriptor names: the words of its 64 bytes, its addresses with their registers added (R144, R146, R147). -/
theorem State.dmaDesc_words (s : State) (n : Nat) (d : DSlot) (get : Bool) :
    let c := s.core n
    let bytes := s.chkRead n (d.descAddr c) 64
    (s.dmaDesc n d get).src = (leAt bytes 0 8 + (if get then c.readS d.rr else c.readChk d.src).toNat) % 2 ^ 64 ∧
    (s.dmaDesc n d get).dst = (leAt bytes 8 8 + (if get then c.readChk d.dst else c.readS d.rr).toNat) % 2 ^ 64 ∧
    (s.dmaDesc n d get).len0 = leAt bytes 16 4 ∧ (s.dmaDesc n d get).n1 = leAt bytes 20 2 + 1 ∧
    (s.dmaDesc n d get).n2 = leAt bytes 22 2 + 1 ∧ (s.dmaDesc n d get).n3 = leAt bytes 24 2 + 1 := by
  cases get with
  | true => exact ⟨ofNat_add_toNat _ _, ofNat_add_toNat _ _, rfl, rfl, rfl, rfl⟩
  | false => exact ⟨ofNat_add_toNat _ _, ofNat_add_toNat _ _, rfl, rfl, rfl, rfl⟩

theorem exec_dma {s : State} {d : DSlot} {get : Bool} (hi : s.issuesNow d.core.toNat (if get then .dmaGet d else .dmaPut d) = true) :
    exec (if get then .dmaGet d else .dmaPut d) s = .next ((withCore s d.core.toNat ((s.core d.core.toNat).countUp
      (s.deliverRanges d.core.toNat (if get then .dmaGet d else .dmaPut d)))).enqueue d get
      (s.deliverRanges d.core.toNat (if get then .dmaGet d else .dmaPut d))) := by
  cases get with
  | true => exact SlotShape.exec_eq_next (i := .dmaGet d) (.slot rfl _ fun _ => rfl) hi rfl rfl
  | false => exact SlotShape.exec_eq_next (i := .dmaPut d) (.slot rfl _ fun _ => rfl) hi rfl rfl

/-! ### Strand messages -/

/-- An address in the window of a core of this module: R140. -/
theorem State.place_window (s : State) (n : Nat) {core off : Nat} (hc : core < 256) (ho : off < 2 ^ 24) :
    s.place n (winBase + core * 0x1000000 + off) = .win core off := by
  rw [State.place_local (by simp only [winBase]; omega), localPlace, if_neg (by simp only [hbmEnd, winBase]; omega),
    if_pos (by simp only [winBase, winEnd]; omega)]
  simp only [winBase, Place.win.injEq]
  omega

/-- A transaction sets out to a home of this module from a core that has given out a number: R154, R157. -/
theorem State.launch_numbered {s : State} {n k : Nat} {c : Core} {x : Txn} (near : s.place n x.dst ≠ .remote)
    (task : c.task = (s.core n).task) (hx : x.origin.core? = some n) :
    State.launch { withCore s n c with nextId := k } n x = underWay { withCore s n c with nextId := k } n x :=
  State.launch_eq_underWay (fun h => near ((State.place_withCore task _).symm.trans h)) hx

/-- A message as it enters its endpoint's queue: R200, R201. -/
def strandMsg (s : State) (d : DSlot) : Msg :=
  let n := d.core.toNat
  { id := s.nextId, g := d.granules, endMark := d.f.getLsbD 26, tag := d.bits 47 40,
    seq := (mget {} (s.core n).sends d.ep : SendEp).seqNext, payload := d.payload (s.core n),
    sig := if d.f.getLsbD 27 then some (d.bits 37 32, BitVec.ofNat 32 (d.bits 63 48)) else none,
    covers := if d.f.getLsbD 27 then s.outbound n 0 else [] }

/-- The action of `strand.send`: a message takes its place, and its request sets out: R200, R202. -/
theorem actStrandSend_eq (d : DSlot) (s : State) :
    let n := d.core.toNat
    let ep : SendEp := mget {} (s.core n).sends d.ep
    actStrandSend d s = State.launch { withCore s n { s.core n with
        sends := mset (s.core n).sends d.ep { ep with queue := ep.queue ++ [strandMsg s d], seqNext := (ep.seqNext + 1) % 2 ^ 32 } } with
      nextId := s.nextId + 1 } n
      { carrying 0 .strandReq n (s.targetWindow ep + 0xF10000 + 64 * ep.tSkein) [] (.strand n d.ep s.nextId) with
        len := 64 * d.granules, aux := d.granules - 1 + 256 * d.ep } := by
  intro n ep
  have sig : (d.bits 27 27 = 1) = (d.f.getLsbD 27 = true) := by
    rw [DSlot.bits, bits64, toNat_extractLsb'_one]
    cases d.f.getLsbD 27 <;> simp
  have endMark : (d.bits 26 26 == 1) = d.f.getLsbD 26 := by
    rw [DSlot.bits, bits64, toNat_extractLsb'_one]
    cases d.f.getLsbD 26 <;> rfl
  cases h : d.f.getLsbD 27 with
  | true =>
    simp only [actStrandSend, strandMsg, sig, endMark, h, if_true]
    rfl
  | false =>
    simp only [actStrandSend, strandMsg, sig, endMark, h, Bool.false_eq_true, if_false]
    rfl

theorem strandSend {s : State} {d : DSlot} (hi : s.issuesNow d.core.toNat (.strandSend d) = true) :
    let n := d.core.toNat
    let ep : SendEp := mget {} (s.core n).sends d.ep
    ep.tModule = s.config.module → ep.tCore < 256 → ep.tSkein < 16 →
    exec (.strandSend d) s = .next (underWay { withCore s n { s.core n with
        sends := mset (s.core n).sends d.ep { ep with queue := ep.queue ++ [strandMsg s d], seqNext := (ep.seqNext + 1) % 2 ^ 32 } } with
      nextId := s.nextId + 1 } n
      { carrying 0 .strandReq n (0x10000000000 + ep.tCore * 2 ^ 24 + 0xF10000 + 64 * ep.tSkein) [] (.strand n d.ep s.nextId) with
        len := 64 * d.granules, aux := d.granules - 1 + 256 * d.ep }) := by
  intro n ep hm hc hk
  refine SlotShape.exec_eq_next (act := actStrandSend d) (.slot rfl _ fun _ => rfl) hi ?_ rfl
  have addr : s.targetWindow ep + 0xF10000 + 64 * ep.tSkein = 0x10000000000 + ep.tCore * 2 ^ 24 + 0xF10000 + 64 * ep.tSkein := by
    rw [State.targetWindow, if_pos hm, Nat.zero_add]
    rfl
  have near : s.place n (0x10000000000 + ep.tCore * 2 ^ 24 + 0xF10000 + 64 * ep.tSkein) ≠ .remote := by
    have place := State.place_window s n hc (show 0xF10000 + 64 * ep.tSkein < 2 ^ 24 by omega)
    rw [← Nat.add_assoc] at place
    exact fun h => Place.noConfusion (place.symm.trans h)
  have act_eq := actStrandSend_eq d s
  simp only [show mget {} (s.core d.core.toNat).sends d.ep = ep from rfl, addr] at act_eq
  rw [act_eq]
  exact State.launch_numbered near rfl rfl

/-! ### Cable commands -/

/-- A cable command that issues has a header that names a cable: R159, R161. -/
theorem parseCable_of_issuesNow {s : State} {d : DSlot} (hi : s.issuesNow d.core.toNat (.cableRun d) = true) :
    ∃ k, s.parseCable d.core.toNat (d.descAddr (s.core d.core.toNat)) = some k := by
  have may := State.mayIssue_of_issuesNow hi
  simp only [State.mayIssue, Bool.and_eq_true, State.slotBreach, Option.isNone_iff_eq_none, Option.or_eq_none_iff] at may
  obtain ⟨-, -, noBreach⟩ := may
  rw [← Option.ne_none_iff_exists']
  intro none
  simp only [State.issueBreach, none] at noBreach
  split at noBreach
  · cases noBreach
  · split at noBreach <;> cases noBreach

theorem cableRun {s : State} {d : DSlot} (hi : s.issuesNow d.core.toNat (.cableRun d) = true) :
    let n := d.core.toNat
    ∃ k, s.parseCable n (d.descAddr (s.core n)) = some k ∧ exec (.cableRun d) s = .next { withCore s n { s.core n with cable := some { k with
      id := s.nextId, covers := s.outbound n 0, loadCovers := s.outbound n k.load.scope, storeCovers := s.outbound n k.store.scope } } with
        nextId := s.nextId + 1 } := by
  intro n
  obtain ⟨k, parse⟩ := parseCable_of_issuesNow hi
  refine ⟨k, parse, SlotShape.exec_eq_next (act := actCableRun d) (.slot rfl _ fun _ => rfl) hi ?_ rfl⟩
  simp only [actCableRun, parse]
  rfl

/-- Settles O26: each row's action is written out, and its descriptor is read word by word. -/
theorem descriptorRows : Obligations.DescriptorRows := by
  refine fun s d => ⟨fun get hi => ⟨?_, State.dmaDesc_words s d.core.toNat d get⟩, strandSend, cableRun⟩
  rw [exec_dma hi, State.enqueue_counted]

end Sys2Proof.Machine
end

section
/-!
PROOFS. Bursts, descriptors and short-path operations on their way (R35, R128, R149 to R158).
-/

namespace Sys2Proof.Machine

open Claim

/-! ### Bursts that set out -/

/-- A burst to a home of this module sets out in its colour: R154, R155. -/
theorem State.launchBurst_near {s : State} {n : Nat} {c : Core} {x : Txn} (near : s.place n x.dst ≠ .remote)
    (task : c.task = (s.core n).task) (hx : x.origin.core? = some n) :
    (withCore s n c).launchBurst n x = underWay (withCore s n (c.colour (burstTokens x.len))) n x := by
  have same : (c.colour (burstTokens x.len)).task = (s.core n).task := by
    rw [← task, Core.colour]
    split <;> rfl
  rw [State.launchBurst, State.modCore_withCore]
  exact State.launch_eq_underWay (fun h => near ((State.place_withCore same _).symm.trans h)) hx

/-- A green burst spends its tokens, a yellow one is counted: R154, R155. -/
theorem Core.colour_eq (c : Core) (tokens : Nat) : c.colour tokens = { c with
    tokens := if 1024 * tokens ≤ c.tokens then c.tokens - 1024 * tokens else c.tokens
    yellow := if 1024 * tokens ≤ c.tokens then c.yellow else min (2 ^ 32 - 1) (c.yellow + 1) } := by
  unfold Core.colour
  split <;> rfl

/-- A DMA read whose core has no read to combine with sets out, and where it may combine its core keeps it: R152, R154. -/
theorem State.sendRead_burst {s : State} {n : Nat} {c : Core} {x : Txn} (near : s.place n x.dst ≠ .remote)
    (task : c.task = (s.core n).task) (alone : c.combine = []) (hx : x.origin.core? = some n) :
    (withCore s n c).sendRead n x false = underWay (withCore s n (Core.colour { c with
      combine := if x.vol = false ∧ s.combinable n x.dst = true then [{ addr := x.dst, txn := s.nextId, line := false }] else c.combine }
      (burstTokens x.len))) n x := by
  have no_like : (withCore s n c).combineWith n x.dst x.len false = none := by rw [State.combineWith, State.core_withCore, alone]; rfl
  have room : decide (0 < 32) = true := rfl
  simp only [State.sendRead, no_like, ite_self, State.core_withCore, alone, State.modCore_withCore, List.countP_nil, List.nil_append,
    Bool.false_eq_true, if_false, room, Bool.and_true, Bool.and_eq_true, Bool.not_eq_true', State.combinable_withCore task]
  split
  · exact State.launchBurst_near near task hx
  · rw [State.launchBurst_near near task hx, ← alone]

/-! ### The next burst of a queue -/

/-- A core whose queue has sent one burst more of a descriptor, in its colour: R147, R154, R155. -/
def burstSent (c : Core) (q id len : Nat) (combine : List Combine) : Core :=
  { c with
    queues := mset c.queues q ((mget [] c.queues q).map (fun y => if y.id = id then { y with sent := y.sent + 1 } else y))
    tokens := if 1024 * burstTokens len ≤ c.tokens then c.tokens - 1024 * burstTokens len else c.tokens
    yellow := if 1024 * burstTokens len ≤ c.tokens then c.yellow else min (2 ^ 32 - 1) (c.yellow + 1)
    combine := combine }

/-- The next burst of a get sets out as a read request: R147, R152, R154. -/
theorem State.sendBurst_get {s : State} {n q : Nat} {e : DEntry} {u : Burst} (get : e.isGet = true) (alone : (s.core n).combine = [])
    (near : s.place n u.src ≠ .remote) :
    s.sendBurst n q e u = underWay (withCore s n (burstSent (s.core n) q e.id u.len (if e.desc.vol = false ∧ s.combinable n u.src = true then
        [{ addr := u.src, txn := s.nextId, line := false }] else (s.core n).combine))) n
      { carrying 0 .readReq n u.src [] (.dma n q e.id) with vol := e.desc.vol, len := u.len, aux := e.sent } := by
  have sent : s.sendBurst n q e u = (withCore s n ((s.core n).modEntry q e.id (fun e => { e with sent := e.sent + 1 }))).sendRead n
      { carrying 0 .readReq n u.src [] (.dma n q e.id) with vol := e.desc.vol, len := u.len, aux := e.sent } false := if_pos get
  rw [sent, State.sendRead_burst (c := (s.core n).modEntry q e.id _) near rfl alone rfl, Core.colour_eq]
  rfl

/-- The next burst of a put sets out as a write of the bytes it reads: R147, R149, R154. -/
theorem State.sendBurst_put {s : State} {n q : Nat} {e : DEntry} {u : Burst} (put : e.isGet = false)
    (clean : s.readsClean n (putReads e.desc u) = true) (near : s.place n u.dst ≠ .remote) :
    s.sendBurst n q e u = underWay (withCore s n (burstSent (s.core n) q e.id u.len (s.core n).combine)) n
      { carrying 0 .write n u.dst (s.putData n e.desc e.sent u) (.dma n q e.id) with len := u.len, aux := e.sent } := by
  have clean' : (withCore s n ((s.core n).modEntry q e.id (fun e => { e with sent := e.sent + 1 }))).readsClean n (putReads e.desc u) = true :=
    clean
  have sent : s.sendBurst n q e u = ((withCore s n ((s.core n).modEntry q e.id (fun e => { e with sent := e.sent + 1 }))).readWeak n
      (putReads e.desc u)).launchBurst n
        { carrying 0 .write n u.dst (s.putData n e.desc e.sent u) (.dma n q e.id) with len := u.len, aux := e.sent } :=
    if_neg (by simp [put])
  rw [sent, State.readWeak_clean clean', State.launchBurst_near (c := (s.core n).modEntry q e.id _) near rfl rfl, Core.colour_eq]
  rfl

/-- A queue with a burst left, at its limits and below them: R151, R153. -/
theorem exec_dmaBurstSend {s : State} {core : CoreId} {q : BitVec 2} {e : DEntry} {u : Burst}
    (hf : ((s.core core.toNat).queue q.toNat).find? (fun e => e.sent < e.desc.bursts.length) = some e) (hu : e.desc.bursts[e.sent]? = some u) :
    exec (.dmaBurstSend core q) s = if 256 ≤ s.qBursts core.toNat q.toNat ∨ e.isGet = true ∧ 64 ≤ s.landingUsed core.toNat then .next s
      else done s (s.sendBurst core.toNat q.toNat e u) := by
  have run : exec (.dmaBurstSend core q) s = execDmaBurstSend core q s := rfl
  rw [run]
  by_cases full : 256 ≤ s.qBursts core.toNat q.toNat
  · simp only [execDmaBurstSend, full, if_true, true_or]
    rfl
  · simp only [execDmaBurstSend, hf, hu, full, if_false, false_or]
    rfl

theorem burstSend : Claim.BurstSend := by
  intro s core q e u n c mem cost data hf hu
  have exec_eq := exec_dmaBurstSend hf hu
  refine ⟨fun full => ?_, fun get full => ?_, fun room get clean near => ?_⟩
  · rw [exec_eq, if_pos (.inl full)]
  · rw [exec_eq, if_pos (.inr ⟨get, full⟩)]
  · have below : ¬(256 ≤ s.qBursts core.toNat q.toNat ∨ e.isGet = true ∧ 64 ≤ s.landingUsed core.toNat) := by
      rintro (full | ⟨isGet, full⟩)
      · exact absurd room (Nat.not_lt.2 full)
      · exact absurd (get isGet).1 (Nat.not_lt.2 full)
    rw [exec_eq, if_neg below]
    cases kind : e.isGet with
    | true =>
      simp only [kind, if_true, true_and] at near ⊢
      rw [State.sendBurst_get kind (get kind).2 near]
      exact done_eq rfl
    | false =>
      simp only [kind, Bool.false_eq_true, if_false, false_and] at near ⊢
      rw [State.sendBurst_put kind (clean kind) near]
      exact done_eq rfl

/-! ### Descriptors that complete -/

/-- Lowered counts depend on the counts alone: R35. -/
theorem Core.countDown_ranges_congr {c d : Core} (h : d.ranges = c.ranges) (rs : List Nat) : (d.countDown rs).ranges = (c.countDown rs).ranges := by
  induction rs generalizing c d with
  | nil => exact h
  | cons r rs ih => exact ih (by simp only [h])

/-- A core whose oldest descriptor of a queue has completed: R150, R151. -/
def completed (c : Core) (q : Nat) (e : DEntry) (es : List DEntry) : Core :=
  let d : Core := { c with queues := mset c.queues q es, dmaDone := mset c.dmaDone q (wrap 32 (mget 0 c.dmaDone q + 1)) }
  (if e.isGet && !e.counted then d.countDown e.ranges else d).acked e.id

theorem completed_task (c : Core) (q : Nat) (e : DEntry) (es : List DEntry) : (completed c q e es).task = c.task := by
  unfold completed
  dsimp only
  split
  · rw [Core.countDown_eq]
    rfl
  · rfl

theorem completed_ranges (c : Core) (q : Nat) (e : DEntry) (es : List DEntry) : (completed c q e es).ranges =
    if e.isGet = true ∧ e.counted = false then (c.countDown e.ranges).ranges else c.ranges := by
  unfold completed
  simp only [Bool.and_eq_true, Bool.not_eq_true']
  split
  · exact Core.countDown_ranges_congr (c := c) (by rfl) _
  · rfl

theorem completed_dmaDone (c : Core) (q : Nat) (e : DEntry) (es : List DEntry) :
    mget 0 (completed c q e es).dmaDone q = (mget 0 c.dmaDone q + 1) % 2 ^ 32 := by
  have set : (completed c q e es).dmaDone = mset c.dmaDone q (wrap 32 (mget 0 c.dmaDone q + 1)) := by
    unfold completed
    dsimp only
    split
    · rw [Core.countDown_eq]
      rfl
    · rfl
  rw [set, mget_mset_self]
  rfl

/-- The descriptors behind the one that completes stay in their queue: R151. -/
theorem completed_queue (c : Core) (q : Nat) (e : DEntry) (es : List DEntry) :
    (mget [] (completed c q e es).queues q).map (fun y => y.id) = es.map (fun y => y.id) := by
  have queues : (completed c q e es).queues = (mset c.queues q es).map (fun p =>
      (p.1, p.2.map (fun y => { y with covers := y.covers.filter (fun w => w != e.id) }))) := by
    unfold completed
    dsimp only
    split
    · rw [Core.countDown_eq]
      rfl
    · rfl
  have at_q := mget_map (fun es : List DEntry => es.map (fun y => { y with covers := y.covers.filter (fun w => w != e.id) })) []
    (mset c.queues q es) q
  rw [mget_mset_self] at at_q
  rw [queues]
  refine (congrArg (fun es : List DEntry => es.map (fun y => y.id)) at_q).trans ?_
  rw [List.map_map]
  rfl

/-- Counting quiet cycles from 0 again changes nothing else: R193. -/
theorem calmed_eq (s : State) (n : Nat) (k : Core) : calmed s n k = { k with quiet := (calmed s n k).quiet } := by
  unfold calmed
  split <;> rfl

theorem descriptorCompletes : Claim.DescriptorCompletes := by
  intro s core q e es n c signals hq
  have run : exec (.dmaComplete core q) s = if e.landed ≠ e.desc.bursts.length then done s s
      else if e.desc.sigEn && !e.desc.ordered then done s ((withCore s n (completed c q.toNat e es)).release n
        (e.desc.signalAddr n e.isGet) e.desc.sigVal e.covers (.dma n q.toNat e.id))
      else done s (withCore s n (completed c q.toNat e es)) := by
    have unfolded : exec (.dmaComplete core q) s = execDmaComplete core q s := rfl
    have queue : (s.core core.toNat).queue q.toNat = e :: es := hq
    rw [unfolded]
    simp only [execDmaComplete, queue]
    rfl
  refine ⟨fun h => ?_, fun landed covers near => ?_⟩
  · rw [run, if_pos h]
    rfl
  · rw [run, if_neg (not_not.2 landed)]
    have core_n : (withCore s n (completed c q.toNat e es)).core n = completed c q.toNat e es := State.core_withCore s n _
    by_cases sig : signals
    · obtain ⟨en, acked⟩ := id sig
      have sent : (withCore s n (completed c q.toNat e es)).release n (e.desc.signalAddr n e.isGet) e.desc.sigVal e.covers (.dma n q.toNat e.id) =
          underWay (withCore s n (completed c q.toNat e es)) n
            (carrying 0 .tallyAdd n (e.desc.signalAddr n e.isGet) (leBytes 4 e.desc.sigVal.toNat) (.dma n q.toNat e.id)) := by
        rw [covers]
        exact State.launch_eq_underWay (fun h => near sig ((State.place_withCore (completed_task c q.toNat e es) _).symm.trans h)) rfl
      have calm : ∀ k, calmed (withCore s n (completed c q.toNat e es)) n k = calmed s n k :=
        calmed_congr (by rw [core_n, completed_task])
      rw [if_pos (by rw [en, acked]; rfl), sent]
      refine ⟨_, done_eq rfl, rfl, ?_, ?_, ?_, fun h => absurd sig h, fun _ => ⟨fun m hm => ?_, rfl⟩⟩
      · rw [State.core_underWay, core_n, calmed_eq]
        exact completed_queue c q.toNat e es
      · rw [State.core_underWay, core_n, calmed_eq]
        exact completed_dmaDone c q.toNat e es
      · rw [State.core_underWay, core_n, calmed_eq]
        exact completed_ranges c q.toNat e es
      · rw [State.core_underWay, calm, State.core_withCore_ne s _ hm]
    · have silent : (e.desc.sigEn && !e.desc.ordered) = false := by simpa [signals] using sig
      rw [silent]
      refine ⟨_, done_eq rfl, rfl, ?_, ?_, ?_, fun _ => ⟨rfl, fun m hm => State.core_withCore_ne s _ hm⟩, fun h => absurd h sig⟩
      · rw [core_n]
        exact completed_queue c q.toNat e es
      · rw [core_n]
        exact completed_dmaDone c q.toNat e es
      · rw [core_n]
        exact completed_ranges c q.toNat e es

/-! ### Deliveries that complete -/

/-- The last burst of a short-path operation: R35, R37. -/
theorem exec_deliveryLastBurst_short {s : State} {core : CoreId} {id : Nat} {o : ShortOp}
    (ho : (s.core core.toNat).short.find? (fun o => o.id == id) = some o) :
    exec (.deliveryLastBurst core id) s = if o.done = true ∧ o.counted = false then
      .next (withCore s core.toNat { ((s.core core.toNat).countDown o.ranges) with
        short := (s.core core.toNat).short.map (fun x => if x.id = id then { x with counted := true } else x) })
    else .next s := by
  have run : exec (.deliveryLastBurst core id) s = execDeliveryLastBurst core id s := rfl
  rw [run]
  simp only [execDeliveryLastBurst, ho, Bool.not_eq_true']
  rfl

/-- The last burst of a get's descriptor: R35, R150. -/
theorem exec_deliveryLastBurst_get {s : State} {core : CoreId} {id : Nat} {e : DEntry}
    (hs : (s.core core.toNat).short.find? (fun o => o.id == id) = none)
    (he : ((s.core core.toNat).queues.flatMap (fun q => q.2)).find? (fun e => e.id == id) = some e) :
    exec (.deliveryLastBurst core id) s = if e.isGet = true ∧ e.landed = e.desc.bursts.length ∧ e.counted = false then
      .next (withCore s core.toNat { ((s.core core.toNat).countDown e.ranges) with
        queues := (s.core core.toNat).queues.map (fun q => (q.1, q.2.map (fun x => if x.id = id then { x with counted := true } else x))) })
    else .next s := by
  have run : exec (.deliveryLastBurst core id) s = execDeliveryLastBurst core id s := rfl
  rw [run]
  simp only [execDeliveryLastBurst, hs, he, Bool.not_eq_true']
  rfl

/-- A short-path operation completes once it is done: R157, R158. -/
theorem exec_shortPathComplete {s : State} {core : CoreId} {id : Nat} {o : ShortOp}
    (ho : (s.core core.toNat).short.find? (fun o => o.id == id) = some o) :
    exec (.shortPathComplete core id) s = if o.done = true then
      .next (withCore s core.toNat { (if o.counted then s.core core.toNat else (s.core core.toNat).countDown o.ranges) with
        short := (s.core core.toNat).short.filter (fun x => x.id != id), shortDone := ((s.core core.toNat).shortDone + 1) % 2 ^ 32 })
    else .next s := by
  have run : exec (.shortPathComplete core id) s = execShortPathComplete core id s := rfl
  rw [run]
  simp only [execShortPathComplete, ho]
  rfl

theorem deliveriesComplete : Claim.DeliveriesComplete := by
  intro s core id n c
  refine ⟨fun o ho => ⟨fun hd hc => ?_, fun hd => ?_, fun hd => ⟨?_, ?_⟩⟩, fun e hs he => ⟨fun last => ?_, fun last => ?_⟩⟩
  · rw [exec_deliveryLastBurst_short ho, if_pos ⟨hd, hc⟩]
  · rw [exec_shortPathComplete ho, if_pos hd]
  · rw [exec_deliveryLastBurst_short ho, if_neg (by simp [hd])]
  · rw [exec_shortPathComplete ho, if_neg (by simp [hd])]
  · rw [exec_deliveryLastBurst_get hs he, if_pos last]
  · rw [exec_deliveryLastBurst_get hs he, if_neg last]

/-! ### Bursts that land -/

/-- A core's memories after bytes of its buffers are written: R128, R135. -/
theorem State.pcore_bufWrite (s : State) (n off : Nat) (bs : List Byte) : (s.bufWrite n off bs).pcore n = { s.pcore n with
    mem := Memory.writeN (s.pcore n).mem off bs, weak := (s.pcore n).weak.filter (fun w => !(s.pcore n).wordMet w off bs.length) } :=
  State.pcore_modP s n _

theorem State.ph_bufWrite_ne (s : State) {n p : Nat} (off : Nat) (bs : List Byte) (hp : p ≠ s.physOf n) :
    (s.bufWrite n off bs).ph p = s.ph p :=
  State.ph_modPh_ne s _ hp

/-- A burst of a short-path operation that lands is written, leaves flight, and is the operation's last where none is left: R128, R157. -/
theorem exec_externalBurstWrite_short {s : State} {id oid : Nat} {x : Txn} (hx : s.txn id = some x) (hk : x.kind = .landing)
    (ho : x.origin = .short x.core oid) (hb : s.shortBlocked x.core oid = false) :
    exec (.externalBurstWrite id) s = .next (((s.bufWrite x.core x.loc x.data).dropTxn id).modCore x.core (fun c => { c with
      short := c.short.map (fun o => if o.id = oid then
        { o with done := !((s.bufWrite x.core x.loc x.data).dropTxn id).flight.any (fun y => y.origin == .short x.core oid) } else o) })) := by
  have run : exec (.externalBurstWrite id) s = execExternalBurstWrite id s := rfl
  have queue : s.queueBlocked x = false := by simp only [State.queueBlocked, State.queueOf, ho]
  have short : s.shortTxnBlocked x = false := by simp only [State.shortTxnBlocked, ho, hb]
  rw [run]
  simp only [execExternalBurstWrite, hx, hk, ho, queue, short, ne_eq, not_true_eq_false, Bool.false_eq_true, or_self, if_false]
  rfl

theorem burstLands : Claim.BurstLands := by
  intro s id oid x hx hk ho hb
  refine ⟨_, exec_externalBurstWrite_short hx hk ho hb, rfl, fun m hm => State.core_modCore_ne _ _ hm, ?_, fun p hp => ?_, ?_, fun a => ?_⟩
  · rw [State.core_modCore]
    simp only [State.dropTxn, State.bufWrite_flight, List.any_filter]
    rfl
  · exact State.ph_bufWrite_ne s x.loc x.data hp
  · have pc := State.pcore_bufWrite s x.core x.loc x.data
    exact (congrArg (fun p : Phys => p = { s.pcore x.core with mem := p.mem, weak := p.weak }) pc).mpr rfl
  · have read := Memory.read_writeN (s.pcore x.core).mem x.loc x.data a
    exact (congrArg (fun p : Phys => Memory.read p.mem a) (State.pcore_bufWrite s x.core x.loc x.data)).trans read

/-- Settles O27: each event's next state is written out, branch by branch. -/
theorem dmaAndShortPathFlow : Obligations.DmaAndShortPathFlow := ⟨burstSend, descriptorCompletes, deliveriesComplete, burstLands⟩

end Sys2Proof.Machine
end

section
/-!
PROOFS. Errors in the memories (R40, R76, R135 to R139, R164, R373): re-reads, the scrubber, failed sectors of HBM and counted loads.
-/

namespace Sys2Proof.Machine

open Claim

/-! ### Records offered -/

/-- Events are offered after those of `s`, and HBM is as it was: R411, R413. -/
structure Logged (s t : State) : Prop where
  hbm : t.hbm = s.hbm
  offered : s.book.offered <+: t.book.offered

namespace Logged

variable {s t : State}

theorem refl (s : State) : Logged s s := ⟨rfl, List.prefix_refl _⟩

theorem trans {u : State} (h : Logged s t) (k : Logged t u) : Logged s u := ⟨k.hbm.trans h.hbm, h.offered.trans k.offered⟩

/-- What touches neither the scorebook nor HBM. -/
theorem same {u : State} (h : Logged s t) (book : u.book = t.book := by rfl) (hbm : u.hbm = t.hbm := by rfl) : Logged s u :=
  ⟨hbm.trans h.hbm, by rw [book]; exact h.offered⟩

theorem emit (h : Logged s t) (code source : Nat) (data : List Byte) : Logged s (t.emit code source data) :=
  ⟨h.hbm, h.offered.trans (List.prefix_append _ _)⟩

theorem ite {c : Prop} [Decidable c] {u : State} (h : Logged s t) (k : Logged s u) : Logged s (if c then t else u) := by
  split
  · exact h
  · exact k

/-- A fold of operations that each only offer events. -/
theorem foldl {α : Type} {f : State → α → State} (hf : ∀ u x, Logged u (f u x)) (h : Logged s t) (l : List α) : Logged s (l.foldl f t) :=
  List.foldlRecOn l f h (fun u hu x _ => hu.trans (hf u x))

/-! ### Messages to other modules -/

theorem sendOne (h : Logged s t) (p : Nat) : Logged s (t.sendOne p) := by
  unfold State.sendOne
  dsimp only
  split
  · exact h
  · split
    · exact h
    · split
      · exact h.same
      · exact h.same

theorem drainPort (h : Logged s t) (p : Nat) : Logged s (t.drainPort p) := by
  have sent := foldl (fun u _ => (refl u).sendOne p) h (List.range (t.port p).txQ.length)
  exact .ite sent.same sent

theorem portSend (h : Logged s t) (p : Nat) (m : LinkMsg) : Logged s (t.portSend p m) := .drainPort h.same p

theorem fwSend (h : Logged s t) (a code task : Nat) (data : List Byte) : Logged s (t.fwSend a code task data) := by
  unfold State.fwSend
  split
  · exact h
  · exact foldl (fun u _ => (refl u).portSend _ _) h _

theorem fwTell (h : Logged s t) (code task : Nat) (data : List Byte) : Logged s (t.fwTell code task data) :=
  foldl (fun u _ => (refl u).fwSend _ _ _ _) h _

/-! ### Units -/

theorem changeUnit (h : Logged s t) (u : Nat) (st : UState) (cause : Nat) (mgmt : Bool) : Logged s (t.changeUnit u st cause mgmt) :=
  Logged.emit h.same _ _ _

theorem setUnit (h : Logged s t) (u : Nat) (st : UState) (cause : Nat) (mgmt : Bool) : Logged s (t.setUnit u st cause mgmt) :=
  (h.changeUnit u st cause mgmt).same

theorem noteRelays (h : Logged s t) : Logged s t.noteRelays := foldl (fun u _ => (refl u).same) h.same _

theorem startDrain (h : Logged s t) (u : Nat) (target : UState) (cause : Nat) : Logged s (t.startDrain u target cause) := by
  have one : ∀ {v : State} (u : Nat), Logged s v → Logged s ((v.modUnit u (fun e => { e with target := target, pending := none })).setUnit
    u .draining cause true) := fun u h => Logged.setUnit h.same u _ _ _
  unfold State.startDrain
  dsimp only
  have spread : Logged s (if 288 ≤ u ∧ u < 296 then
      (((List.range 36).map (fun i => 36 * (u - 288) + i)).filter t.working).foldl (fun v u => (v.modUnit u (fun e =>
        { e with target := target, pending := none })).setUnit u .draining cause true) t
    else if 844 ≤ u then t.modBay (u - 844) (fun y => { y with draining := true }) else t) :=
    .ite (foldl (fun v u => Logged.setUnit (Logged.same (refl v)) u _ _ _) h _) (.ite h.same h)
  exact .ite (one u spread).noteRelays (one u spread)

theorem retire (h : Logged s t) (p cause : Nat) : Logged s (t.retire p cause) := by
  unfold State.retire
  split
  · exact h
  · exact h.same
  all_goals exact h.startDrain _ _ _

/-! ### Detected errors -/

theorem endTask (h : Logged s t) (k status : Nat) : Logged s (t.endTask k status) := foldl (fun u _ => (refl u).same) h.same _

theorem detected (h : Logged s t) (k cause unit : Nat) : Logged s (t.detected k cause unit) := by
  unfold State.detected
  split
  · exact h
  · dsimp only
    refine .ite h (.ite (h.endTask k _) (fwTell (emit (foldl (fun u _ => (refl u).same) h.same _) _ _ _) _ _ _))

theorem blame (h : Logged s t) (p : Nat) : Logged s (t.blame p) := .ite (retire h.same p _) h.same

theorem coreError (h : Logged s t) (p cause : Nat) : Logged s (t.coreError p cause) := by
  unfold State.coreError
  split
  · exact .ite (h.detected _ _ _) ((h.detected _ _ _).blame p)
  · exact h

theorem lineFailed (h : Logged s t) (p : Nat) (w : EccWord) (cause : Nat) : Logged s (t.lineFailed p w cause) :=
  .ite ((h.coreError p cause).retire p cause) (h.coreError p cause).same

end Logged

/-- A word that fails for good is recorded first: R136, R416. -/
theorem State.lineFailed_recorded {s t : State} {p cause : Nat} {w : EccWord} (book : t.book = s.book) (hbm : t.hbm = s.hbm) :
    ∃ d rest, ((t.sramUncorr p).lineFailed p w cause).book.offered = s.book.offered ++ ⟨0x60, p, d⟩ :: rest ∧
      ((t.sramUncorr p).lineFailed p w cause).hbm = s.hbm := by
  have log := Logged.lineFailed (Logged.refl (t.sramUncorr p)) p w cause
  obtain ⟨rest, offered⟩ := log.offered
  refine ⟨leBytes 8 (t.ph p).eccLastWord ++ leBytes 1 ((t.logicalOf p).getD 0xFF), rest, ?_, log.hbm.trans hbm⟩
  rw [← offered, ← book]
  exact List.append_assoc _ _ _

/-! ### Re-reads -/

/-- A re-read that ends well is counted, shown, and leaves a corrected word's error where it was: R135, R136, R139. -/
theorem Phys.uncorrectable_good (p : Phys) (w : EccWord) (corrected : Bool) : p.uncorrectable w (.good corrected) =
    { p with
      uncorr := min (2 ^ 8 - 1) (p.uncorr + 1), eccLast := eccLastOf w false
      corr := if corrected then mset p.corr (bufferCode w.buffer) (min (corrMax w.buffer) (mget 0 p.corr (bufferCode w.buffer) + 1))
              else p.corr
      weak := if corrected ∧ w ∉ p.weak then p.weak ++ [w] else p.weak } := by
  cases corrected with
  | false => rfl
  | true =>
    have act : p.uncorrectable w (.good true) = Phys.weaken { p with
        uncorr := min (2 ^ 8 - 1) (p.uncorr + 1), eccLast := eccLastOf w false
        corr := mset p.corr (bufferCode w.buffer) (min (corrMax w.buffer) (mget 0 p.corr (bufferCode w.buffer) + 1)) } w := rfl
    rw [act]
    by_cases h : w ∈ p.weak <;> simp [Phys.weaken, h]

theorem Late.rescaling_iff (l : Late) : l.rescaling = true ↔ l.cause = 0xC ∧ l.after = 0 ∧ l.clear = false := by
  simp [Late.rescaling, and_assoc]

/-- A core whose word is re-read outside a running cable is frozen for it: inside a rescale sequence as a part of it, else by a late hold of
its own where the core issues rows or runs out its pipelines: R40, R76, R164. -/
theorem State.rereadHold_eq {s : State} {n : Nat} {w : EccWord} {time : RereadTime} (port : time.cable = false ∨ (s.core n).cable = none) :
    s.rereadHold n w time = if (s.core n).late.any Late.rescaling then withCore s n ((s.core n).lengthen time.cycles)
      else s.lateHold n { cause := 0xB, detail := bufferCode w.buffer, left := time.cycles } := by
  have own : (time.cable && (s.core n).cable.isSome) = false := by
    rcases port with h | h <;> simp [h]
  rw [State.rereadHold, own]
  rfl

/-- A port that a running cable owns holds no turn: R164. -/
theorem State.rereadHold_cable {s : State} {n : Nat} {w : EccWord} {time : RereadTime} (port : time.cable = true) (cable : (s.core n).cable ≠ none) :
    s.rereadHold n w time = s := by
  rw [State.rereadHold, port, Option.isSome_iff_ne_none.2 cable]
  rfl

theorem Core.lengthen_eq (c : Core) (cycles : Nat) : c.lengthen cycles = { c with
    late := c.late.map (fun l => if l.cause = 0xC ∧ l.after = 0 ∧ l.clear = false then { l with left := l.left + cycles } else l) } := by
  simp only [Core.lengthen, Late.rescaling_iff]

/-- A turn that the end of a task cuts is counted by its cores, and nothing is offered: R41, R53. -/
theorem State.lostTurn_same (s : State) (n cycles : Nat) : (s.lostTurn n cycles).book = s.book ∧ (s.lostTurn n cycles).hbm = s.hbm := by
  unfold State.lostTurn
  split
  · exact List.foldlRecOn (motive := fun u : State => u.book = s.book ∧ u.hbm = s.hbm) _ _ ⟨rfl, rfl⟩ (fun _ h _ _ => h)
  · exact ⟨rfl, rfl⟩

theorem exec_eccReread_good {s : State} {core : CoreId} {w : EccWord} {time : RereadTime} (corrected : Bool) (hw : w.buffer ≠ .imem) :
    exec (.eccReread core w (.good corrected) time) s = done s ((withPhys s core.toNat ((s.pcore core.toNat).uncorrectable w
      (.good corrected))).rereadHold core.toNat w time) := by
  have run : exec (.eccReread core w (.good corrected) time) s = execEccReread core w (.good corrected) time s := rfl
  rw [run, execEccReread, if_neg hw]
  rfl

theorem eccReread_failed {s : State} {core : CoreId} {w : EccWord} {time : RereadTime} (hw : w.buffer ≠ .imem) :
    ∃ u d rest, exec (.eccReread core w .failed time) s = .next u ∧
      u.book.offered = s.book.offered ++ ⟨0x60, s.physOf core.toNat, d⟩ :: rest ∧ u.hbm = s.hbm := by
  have run : exec (.eccReread core w .failed time) s = execEccReread core w .failed time s := rfl
  rw [run, execEccReread, if_neg hw]
  have kept : ∀ t : State, t.book = s.book ∧ t.hbm = s.hbm → ∃ u d rest,
      done s ((t.sramUncorr (s.physOf core.toNat)).lineFailed (s.physOf core.toNat) w 0x02) = .next u ∧
      u.book.offered = s.book.offered ++ ⟨0x60, s.physOf core.toNat, d⟩ :: rest ∧ u.hbm = s.hbm := by
    rintro t ⟨book, hbm⟩
    obtain ⟨d, rest, offered, hbm'⟩ := State.lineFailed_recorded (p := s.physOf core.toNat) (cause := 0x02) (w := w) book hbm
    exact ⟨_, d, rest, rfl, offered, hbm'⟩
  refine kept _ ?_
  split
  · exact ⟨rfl, rfl⟩
  · exact State.lostTurn_same _ _ _

/-- Two changes of one physical core are one. -/
theorem State.modPh_modPh (s : State) (p : Nat) (f g : Phys → Phys) : (s.modPh p f).modPh p g = s.modPh p (fun x => g (f x)) := by
  have same : (s.modPh p f).ph p = f (s.ph p) := State.ph_modPh s p f
  rw [State.modPh, State.setPh, same]
  simp only [State.modPh, State.setPh, mset_mset]

/-- A re-read at the external port is counted: R136, R139. -/
theorem exec_externalReread_good (s : State) (phys : PhysId) (w : EccWord) (corrected : Bool) :
    exec (.externalReread phys w (.good corrected)) s =
      .next { s with phys := mset s.phys phys.toNat ((s.ph phys.toNat).uncorrectable w (.good corrected)) } := rfl

theorem externalReread_failed (s : State) (phys : PhysId) (w : EccWord) :
    ∃ u d rest, exec (.externalReread phys w .failed) s = .next u ∧ u.book.offered = s.book.offered ++ ⟨0x60, phys.toNat, d⟩ :: rest ∧
      u.hbm = s.hbm := by
  obtain ⟨d, rest, offered, hbm⟩ := State.lineFailed_recorded (s := s) (t := s.modPh phys.toNat (fun x => x.uncorrectable w .failed))
    (p := phys.toNat) (cause := if w.buffer = .imem then 0x03 else 0x02) (w := w) rfl rfl
  exact ⟨_, d, rest, rfl, offered, hbm⟩

/-! ### The scrubber -/

/-- The scrubber reads nothing of a core in NAP, and nothing of ACC: R138. -/
theorem exec_scrubRead_off {s : State} {phys : PhysId} {w : EccWord} (h : (s.ph phys.toNat).nap = true ∨ w.buffer = .acc) (e : EccResult)
    (r : Reread) : exec (.scrubRead phys w e r) s = .next s := by
  have run : exec (.scrubRead phys w e r) s = execScrubRead phys w e r s := rfl
  rw [run, execScrubRead, if_pos h]
  rfl

/-- A burst of the scrubber that failed for good is recorded: R136, R138. -/
theorem scrubRead_failed {s : State} {phys : PhysId} {w : EccWord} (h : ¬((s.ph phys.toNat).nap = true ∨ w.buffer = .acc)) :
    ∃ u d rest, exec (.scrubRead phys w .uncorrectable .failed) s = .next u ∧
      u.book.offered = s.book.offered ++ ⟨0x60, phys.toNat, d⟩ :: rest ∧ u.hbm = s.hbm := by
  have run : exec (.scrubRead phys w .uncorrectable .failed) s = execScrubRead phys w .uncorrectable .failed s := rfl
  obtain ⟨d, rest, offered, hbm⟩ := State.lineFailed_recorded (s := s)
    (t := (s.modPh phys.toNat (fun x => { x with scrubPos := (x.scrubPos + 1) % scrubBursts })).modPh phys.toNat
      (fun x => x.uncorrectable w .failed)) (p := phys.toNat) (cause := if w.buffer = .imem then 0x03 else 0x02) (w := w) rfl rfl
  have fails : exec (.scrubRead phys w .uncorrectable .failed) s = done s _ := run.trans (if_neg h)
  exact ⟨_, d, rest, fails, offered, hbm⟩

theorem exec_scrubRead_on {s : State} {phys : PhysId} {w : EccWord} (h : ¬((s.ph phys.toNat).nap = true ∨ w.buffer = .acc)) (corrected : Bool)
    (r : Reread) :
    let p := s.ph phys.toNat
    let on (p : Phys) : Phys := { p with scrubPos := (p.scrubPos + 1) % 51200 }
    let back (p : Phys) : Phys := { on p with scrubCorr := min (2 ^ 16 - 1) (p.scrubCorr + 1), weak := p.weak.filter (fun x => x != w) }
    exec (.scrubRead phys w .clean r) s = .next { s with phys := mset s.phys phys.toNat (on p) } ∧
    exec (.scrubRead phys w .corrected r) s = .next { s with phys := mset s.phys phys.toNat (back p) } ∧
    exec (.scrubRead phys w .uncorrectable (.good corrected)) s =
      .next { s with phys := mset s.phys phys.toNat (back (p.uncorrectable w (.good corrected))) } := by
  have run : ∀ e r, exec (.scrubRead phys w e r) s = execScrubRead phys w e r s := fun _ _ => rfl
  refine ⟨?_, ?_, ?_⟩
  · rw [run, execScrubRead, if_neg h]
    rfl
  · rw [run, execScrubRead, if_neg h]
    simp only [State.modPh_modPh]
    rfl
  · rw [run, execScrubRead, if_neg h]
    simp only [State.modPh_modPh, Phys.uncorrectable_good]
    rfl

/-! ### Sectors of HBM -/

theorem exec_hbmUncorr {s : State} {addr : Nat} {spares first : Bool} (free : ∀ p ∈ s.patterns, p.roleAt (addr / 32 * 32) = none)
    (low : addr / 32 * 32 < 0xC000000000 - 2 ^ 32) :
    let a := addr / 32 * 32
    let t := told s 0x62 (296 + hbmChannel a) (leBytes 8 a ++ [if spares then 0 else 1])
    exec (.hbmUncorr addr spares first) s =
      if spares then done s (t.modChannel (hbmChannel a) (fun x => { x with
        repairs := if hbmWithin a ∈ x.repairs then x.repairs else x.repairs ++ [hbmWithin a] }))
      else if (s.unit (296 + hbmChannel a)).state = .suspect then done s t else done s (t.setUnit (296 + hbmChannel a) .suspect 0x05 true) := by
  intro a t
  have run : exec (.hbmUncorr addr spares first) s = execHbmUncorr addr spares first s := rfl
  have hit : s.patterns.filter (fun p => (p.roleAt (addr / 32 * 32)).isSome) = [] := by
    simp only [List.filter_eq_nil_iff]
    intro p hp
    simp [free p hp]
  have high : ¬(hbmEnd - 2 ^ 32 ≤ addr / 32 * 32) := Nat.not_le.2 low
  rw [run]
  simp only [execHbmUncorr, hit, List.any_nil, List.foldl_nil, Bool.false_eq_true, if_false, high, List.contains_iff_mem]
  cases spares <;> rfl

/-- A channel that becomes SUSPECT: HBM and the cores are as they were: R373, R385. -/
theorem State.setUnit_unit (s : State) (u : Nat) (st : UState) (cause : Nat) (mgmt : Bool) : ((s.setUnit u st cause mgmt).unit u).state = st := by
  have unit_eq : (s.setUnit u st cause mgmt).unit u = { s.unit u with
      state := st, cause := cause, mgmt := mgmt, generation := satAdd (2 ^ 32 - 1) (s.unit u).generation 1 } := mget_mset_self _ _ _ _
  rw [unit_eq]

/-- A unit that becomes SUSPECT after a record, as the answer of a command: R385. -/
theorem degraded_unit {s t : State} {u : Nat} (hbm : t.hbm = s.hbm) (cores : t.cores = s.cores) :
    ∃ v, done s (t.setUnit u .suspect 0x05 true) = .next v ∧ (v.unit u).state = .suspect ∧ v.hbm = s.hbm ∧ v.cores = s.cores :=
  ⟨_, rfl, t.setUnit_unit u .suspect 0x05 true, hbm, cores⟩

/-- A sector that fails without a repair left makes its channel SUSPECT: R373. -/
theorem hbmUncorr_degrades {s : State} {addr : Nat} {first : Bool} (free : ∀ p ∈ s.patterns, p.roleAt (addr / 32 * 32) = none)
    (low : addr / 32 * 32 < 0xC000000000 - 2 ^ 32) (served : (s.unit (296 + hbmChannel (addr / 32 * 32))).state ≠ .suspect) :
    ∃ u, exec (.hbmUncorr addr false first) s = .next u ∧ (u.unit (296 + hbmChannel (addr / 32 * 32))).state = .suspect ∧
      u.hbm = s.hbm ∧ u.cores = s.cores := by
  have run := exec_hbmUncorr (spares := false) (first := first) free low
  simp only [Bool.false_eq_true, if_false, served] at run
  have changed := degraded_unit (s := s) (u := 296 + hbmChannel (addr / 32 * 32))
    (t := told s 0x62 (296 + hbmChannel (addr / 32 * 32)) (leBytes 8 (addr / 32 * 32) ++ [1])) rfl rfl
  rwa [← run] at changed

/-- Of a channel that is SUSPECT already, the failed sector is recorded: R373. -/
theorem exec_hbmUncorr_suspect {s : State} {addr : Nat} {first : Bool} (free : ∀ p ∈ s.patterns, p.roleAt (addr / 32 * 32) = none)
    (low : addr / 32 * 32 < 0xC000000000 - 2 ^ 32) (suspect : (s.unit (296 + hbmChannel (addr / 32 * 32))).state = .suspect) :
    exec (.hbmUncorr addr false first) s =
      .next (told s 0x62 (296 + hbmChannel (addr / 32 * 32)) (leBytes 8 (addr / 32 * 32) ++ [1])) := by
  have run := exec_hbmUncorr (spares := false) (first := first) free low
  simp only [Bool.false_eq_true, if_false, suspect, if_true] at run
  exact run.trans (done_eq rfl)

/-! ### Loads -/

theorem bufferCode_injective {a b : Buffer} (h : bufferCode a = bufferCode b) : a = b := by
  cases a <;> cases b <;> simp [bufferCode] at h ⊢

/-- Corrected reads of words are counted, each in its buffer's count, up to its largest value; nothing else changes: R135, R139. -/
theorem Phys.foldl_corrected (ws : List EccWord) (p : Phys) :
    (ws.foldl (fun p w => p.corrected w.buffer) p).weak = p.weak ∧ (ws.foldl (fun p w => p.corrected w.buffer) p).mem = p.mem ∧
    ∀ b : Buffer, mget 0 p.corr (bufferCode b) ≤ corrMax b → mget 0 (ws.foldl (fun p w => p.corrected w.buffer) p).corr (bufferCode b) =
      min (corrMax b) (mget 0 p.corr (bufferCode b) + (ws.filter (fun w => w.buffer == b)).length) := by
  induction ws generalizing p with
  | nil => exact ⟨rfl, rfl, fun b h => (Nat.min_eq_right h).symm⟩
  | cons w ws ih =>
    obtain ⟨weak, mem, counts⟩ := ih (p.corrected w.buffer)
    refine ⟨weak, mem, fun b h => ?_⟩
    rw [List.foldl_cons]
    by_cases e : w.buffer = b
    · subst e
      have one : mget 0 (p.corrected w.buffer).corr (bufferCode w.buffer) =
          min (corrMax w.buffer) (mget 0 p.corr (bufferCode w.buffer) + 1) := mget_mset_self _ _ _ _
      rw [counts _ (by rw [one]; exact Nat.min_le_left _ _), one, List.filter_cons_of_pos (by simp), List.length_cons]
      omega
    · have other : mget 0 (p.corrected w.buffer).corr (bufferCode b) = mget 0 p.corr (bufferCode b) :=
        mget_mset_ne _ _ _ (fun h => e (bufferCode_injective h).symm)
      rw [counts _ (by rw [other]; exact h), other, List.filter_cons_of_neg (by simpa using e)]

/-- A read through an engine port counts the words it meets: R135. -/
theorem State.pcore_readWeak (s : State) (n : Nat) (a len : Nat) :
    (s.readWeak n [(a, len)]).pcore n = (((s.pcore n).weak.filter (fun w => (s.pcore n).wordMet w a len)).foldl
      (fun p w => p.corrected w.buffer) (s.pcore n)) := by
  have met : [(a, len)].flatMap (fun x => (s.pcore n).weak.filter (fun w => (s.pcore n).wordMet w x.1 x.2)) =
      (s.pcore n).weak.filter (fun w => (s.pcore n).wordMet w a len) := by simp
  simp only [State.readWeak, met]
  split
  next none => rw [List.isEmpty_iff.1 none, List.foldl_nil]
  next => exact State.pcore_modP s n _

/-- `s.ld` reads 8 bytes through an engine port: R24, R135. -/
theorem State.portSpans_sLd (s : State) (n : Nat) (c : CSlot) : s.portSpans n (.sLd c) = [(c.addr (s.core n), 8)] := by
  simp [State.portSpans, Instr.readsAtPort, State.readsFrom, State.touches, State.writesTo, State.copySpans]

theorem loadsCount {s : State} {c : CSlot} (hi : s.mayIssue c.core.toNat (.sLd c) = true) :
    let n := c.core.toNat
    let p := s.pcore n
    ∃ u, exec (.sLd c) s = .next u ∧ (u.pcore n).weak = p.weak ∧ (u.pcore n).mem = p.mem ∧
      ∀ b : Buffer, mget 0 p.corr (bufferCode b) ≤ corrMax b → mget 0 (u.pcore n).corr (bufferCode b) =
        min (corrMax b) (mget 0 p.corr (bufferCode b) + (p.weak.filter (fun w => w.buffer == b && p.wordMet w (c.addr (s.core n)) 8)).length) := by
  intro n p
  have hw : (Instr.sLd c).wf = true := by
    simp only [State.mayIssue, Bool.and_eq_true] at hi
    obtain ⟨⟨⟨⟨hw, -⟩, -⟩, -⟩, -⟩ := hi
    exact hw
  have run : exec (.sLd c) s = done s (actSLd c (s.readWeak n [(c.addr (s.core n), 8)])) := by
    have slot : exec (.sLd c) s = s.slotExec c.core (.sLd c) "S_LD" (actSLd c) := rfl
    rw [slot, slotExec_wf hw, issueSlot_acts hi, State.portSpans_sLd]
  have pcore_eq : (actSLd c (s.readWeak n [(c.addr (s.core n), 8)])).pcore n =
      ((p.weak.filter (fun w => p.wordMet w (c.addr (s.core n)) 8)).foldl (fun p w => p.corrected w.buffer) p) := by
    have act_pcore : ∀ t : State, (actSLd c t).pcore n = t.pcore n := fun t => by
      unfold actSLd State.writeS
      dsimp only
      split <;> rfl
    rw [act_pcore, State.pcore_readWeak]
  obtain ⟨weak, mem, counts⟩ := Phys.foldl_corrected (p.weak.filter (fun w => p.wordMet w (c.addr (s.core n)) 8)) p
  rw [← pcore_eq] at weak mem counts
  refine ⟨_, run, weak, mem, fun b h => ?_⟩
  rw [← List.filter_filter]
  exact counts b h

/-- Settles O36: each kind of reading of a word changes the counts written out; what fails for good only adds records behind its own. -/
theorem memoryErrors : Obligations.MemoryErrors := by
  intro s w corrected reread recorded
  have re : ∀ p : Phys, p.uncorrectable w (.good corrected) = reread p := fun p => Phys.uncorrectable_good p w corrected
  refine ⟨fun core time => ⟨fun imem o => ?_, fun hw => ⟨eccReread_failed hw, fun port cable => ?_, fun port => ⟨fun seq => ?_, fun noSeq => ?_⟩⟩⟩,
    fun phys => ⟨?_, externalReread_failed s phys w⟩, fun phys r => ⟨fun off e => exec_scrubRead_off off e r, fun nap acc => ?_⟩,
    fun addr first => ?_, fun c hi => loadsCount hi⟩
  · have run : exec (.eccReread core w o time) s = execEccReread core w o time s := rfl
    rw [run, execEccReread, if_pos imem]
    rfl
  · rw [exec_eccReread_good corrected hw, State.rereadHold_cable (s := withPhys s core.toNat _) port cable, re]
    exact done_eq rfl
  · have inside : (s.core core.toNat).late.any Late.rescaling = true := by
      obtain ⟨l, mem, h⟩ := seq
      exact List.any_eq_true.2 ⟨l, mem, l.rescaling_iff.2 h⟩
    rw [exec_eccReread_good corrected hw, State.rereadHold_eq (s := withPhys s core.toNat _) port, State.core_withPhys, inside, if_pos rfl, Core.lengthen_eq, re]
    exact done_eq rfl
  · have outside : (s.core core.toNat).late.any Late.rescaling = false := by
      rw [List.any_eq_false]
      exact fun l mem h => noSeq l mem (l.rescaling_iff.1 h)
    rw [exec_eccReread_good corrected hw, State.rereadHold_eq (s := withPhys s core.toNat _) port, State.core_withPhys, outside, if_neg Bool.false_ne_true, re,
      State.lateHold, State.core_withPhys]
    split
    · exact done_eq rfl
    · exact done_eq rfl
  · rw [exec_externalReread_good, re]
  · have on : ¬((s.ph phys.toNat).nap = true ∨ w.buffer = .acc) := by
      rintro (h | h)
      · exact Bool.false_ne_true (nap.symm.trans h)
      · exact acc h
    obtain ⟨clean, fixed, good⟩ := exec_scrubRead_on on corrected r
    rw [re] at good
    exact ⟨clean, fixed, good, scrubRead_failed on⟩
  · intro a c b free low
    refine ⟨?_, fun inService => hbmUncorr_degrades free low (by rw [inService]; exact UState.noConfusion),
      fun suspect => exec_hbmUncorr_suspect free low suspect⟩
    rw [exec_hbmUncorr free low]
    exact done_eq rfl

end Sys2Proof.Machine
end

section
/-!
PROOFS. Pattern loads and instruction bank loads (R50, R51, R234, R236, R363, R365).
-/

namespace Sys2Proof.Machine

open Claim

/-! ### What a reply leaves unchanged -/

/-- The loads that wait, the memories, the patterns and the next handle are as they were. -/
structure LoadFrame (s t : State) : Prop where
  loads : t.loads = s.loads
  phys : t.phys = s.phys
  hbm : t.hbm = s.hbm
  patterns : t.patterns = s.patterns
  nextHandle : t.nextHandle = s.nextHandle

namespace LoadFrame

variable {s t : State}

theorem refl (s : State) : LoadFrame s s := ⟨rfl, rfl, rfl, rfl, rfl⟩

theorem modSession (h : LoadFrame s t) (c : Nat) (f : Session → Session) : LoadFrame s (t.modSession c f) := by
  unfold State.modSession
  split
  · exact ⟨h.loads, h.phys, h.hbm, h.patterns, h.nextHandle⟩
  · exact h

theorem transmit (h : LoadFrame s t) (cid : Nat) (p : Packet) : LoadFrame s (t.transmit cid p) := by
  obtain ⟨loads, phys, hbm, patterns, nextHandle⟩ := h.modSession cid (fun x => { x with sent := x.sent + 1 })
  exact ⟨loads, phys, hbm, patterns, nextHandle⟩

theorem reply (h : LoadFrame s t) (cid opcode : Nat) (tag : BitVec 32) (cmdSeq : Option (BitVec 32)) (status : Nat) (params : List Byte) :
    LoadFrame s (t.reply cid opcode tag cmdSeq status params) := by
  unfold State.reply
  split
  · exact h
  · exact (h.modSession cid _).transmit cid _

/-- The reply to a load, or the record of a staged entry that fails: R363, R398. -/
theorem answerLoad (h : LoadFrame s t) (l : Load) (status : Nat) (params : List Byte) : LoadFrame s (t.answerLoad l status params) := by
  unfold State.answerLoad
  split
  · exact h.reply _ _ _ _ _ _
  · split
    · split
      · exact h
      · exact ⟨h.loads, h.phys, h.hbm, h.patterns, h.nextHandle⟩
    · exact h

end LoadFrame

/-! ### Weight objects -/

theorem State.placeWeights_eq (s : State) (b : List Byte) : s.placeWeights b = { s with hbm := (s.placeWeights b).hbm } :=
  List.foldlRecOn (motive := fun u : State => u = { s with hbm := u.hbm }) _ _ rfl (fun u hu w _ => by rw [hu])

/-- Placed weight objects change HBM in their places alone: R234. -/
theorem State.read_placeWeights (s : State) (b : List Byte) {a : Nat}
    (out : ∀ w ∈ wrefs b, w.placesOn s.config.module = true → a < w.addr ∨ w.addr + ((s.loaderObject w.hash).getD []).length ≤ a) :
    Memory.read (s.placeWeights b).hbm a = Memory.read s.hbm a := by
  have kept := List.foldlRecOn (motive := fun u : State => Memory.read u.hbm a = Memory.read s.hbm a ∧ u = { s with hbm := u.hbm })
    ((wrefs b).filter (fun w => w.placesOn s.config.module))
    (fun s w => { s with hbm := Memory.writeN s.hbm w.addr ((s.loaderObject w.hash).getD []) }) (b := s) ⟨rfl, rfl⟩ (fun u hu w hw => by
      obtain ⟨read, frame⟩ := hu
      obtain ⟨mem, here⟩ := List.mem_filter.1 hw
      have object : u.loaderObject w.hash = s.loaderObject w.hash := by
        rw [frame]
        rfl
      refine ⟨?_, by rw [frame]⟩
      have outside := out w mem here
      rw [Memory.read_writeN, object, read, if_neg (by omega)])
  exact kept.1

/-- A committed load is the newest pattern, under the next handle, with its weights placed: R234, R246. -/
theorem State.commit_frame (s : State) (l : Load) (ws : List Byte) : ∃ p : Pattern, (s.commit l ws).patterns = s.patterns ++ [p] ∧
    (s.commit l ws).loads = s.loads ∧ (s.commit l ws).phys = s.phys ∧ (s.commit l ws).nextHandle = s.nextHandle + 1 ∧
    (s.commit l ws).hbm = (s.placeWeights l.image).hbm ∧ p.handle = s.nextHandle ∧ p.image = l.image ∧ p.hash = imgHash l.image ∧
    p.batchMax = l.batchMax ∧ p.windowUs = l.windowUs ∧ p.debug = l.options.testBit 0 := by
  have frame := State.placeWeights_eq s l.image
  have loads : (s.placeWeights l.image).loads = s.loads := by rw [frame]
  have phys : (s.placeWeights l.image).phys = s.phys := by rw [frame]
  unfold State.commit
  dsimp only
  split
  · exact ⟨_, rfl, loads, phys, rfl, rfl, rfl, rfl, rfl, rfl, rfl, rfl⟩
  · exact ⟨_, rfl, loads, phys, rfl, rfl, rfl, rfl, rfl, rfl, rfl, rfl⟩

/-! ### Pattern loads -/

/-- A load that ends in a refusal: R234, R363. -/
theorem patternLoad_refused {s : State} {l : Load} {rest : List Load} {st : Nat} {record : List Byte}
    (run : exec .patternLoad s = done s (State.answerLoad { s with loads := rest, peerObjects := [] } l st record)) :
    ∃ t, exec .patternLoad s = .next t ∧ t.loads = rest ∧ t.phys = s.phys ∧ t.hbm = s.hbm ∧ t.patterns = s.patterns := by
  have frame := LoadFrame.answerLoad (LoadFrame.refl { s with loads := rest, peerObjects := [] }) l st record
  exact ⟨_, run, frame.loads, frame.phys, frame.hbm, frame.patterns⟩

section
variable {s : State} {l : Load} {rest : List Load} (hl : s.loads = l :: rest) (hopen : s.weightsShut l.image = false)
  (hasked : s.mustAsk l = false)
include hl hopen hasked

theorem patternLoad_resident {p : Pattern} (hp : s.resident l = some p) :
    ∃ t, exec .patternLoad s = .next t ∧ t.loads = rest ∧ t.phys = s.phys ∧ t.hbm = s.hbm ∧
      t.patterns = s.patterns.map (fun q => if q.handle = p.handle then { q with batchMax := l.batchMax, windowUs := l.windowUs } else q) := by
  have run : exec .patternLoad s = execPatternLoad s := rfl
  simp only [execPatternLoad, hl, hopen, hasked, hp, Bool.false_eq_true, if_false] at run
  have frame := LoadFrame.answerLoad (LoadFrame.refl (State.modPattern { s with loads := rest, peerObjects := [] } p.handle
    (fun p => { p with batchMax := l.batchMax, windowUs := l.windowUs }))) l stOk (loadReply p.handle (p.warnings.length / 16) p.warnings)
  exact ⟨_, run, frame.loads, frame.phys, frame.hbm, frame.patterns⟩

theorem patternLoad_peerRefusal {refusal : Nat × List Byte} (hp : s.resident l = none) (hr : l.peerRefusal = some refusal) :
    ∃ t, exec .patternLoad s = .next t ∧ t.loads = rest ∧ t.phys = s.phys ∧ t.hbm = s.hbm ∧ t.patterns = s.patterns := by
  have run : exec .patternLoad s = execPatternLoad s := rfl
  simp only [execPatternLoad, hl, hopen, hasked, hp, hr, Bool.false_eq_true, if_false] at run
  exact patternLoad_refused run

theorem patternLoad_ownRefusal {st : Nat} {record : List Byte} (hp : s.resident l = none)
    (hv : s.verify l.image (l.options.testBit 0) (l.options.testBit 1) = .refuse st record) :
    ∃ t, exec .patternLoad s = .next t ∧ t.loads = rest ∧ t.phys = s.phys ∧ t.hbm = s.hbm ∧ t.patterns = s.patterns := by
  cases hr : l.peerRefusal with
  | some refusal => exact patternLoad_peerRefusal hl hopen hasked hp hr
  | none =>
    have run : exec .patternLoad s = execPatternLoad s := rfl
    simp only [execPatternLoad, hl, hopen, hasked, hp, hr, hv, Bool.false_eq_true, if_false] at run
    exact patternLoad_refused run

theorem patternLoad_accepted {ws : List Byte} {k : Nat} (hp : s.resident l = none) (hr : l.peerRefusal = none)
    (hv : s.verify l.image (l.options.testBit 0) (l.options.testBit 1) = .accept ws k) :
    ∃ t p, exec .patternLoad s = .next t ∧ t.loads = rest ∧ t.phys = s.phys ∧ t.patterns = s.patterns ++ [p] ∧
      t.nextHandle = s.nextHandle + 1 ∧ p.handle = s.nextHandle ∧ p.image = l.image ∧ p.hash = imgHash l.image ∧
      p.batchMax = l.batchMax ∧ p.windowUs = l.windowUs ∧ p.debug = l.options.testBit 0 ∧
      ∀ a, (∀ w ∈ wrefs l.image, w.placesOn s.config.module = true → a < w.addr ∨ w.addr + ((s.loaderObject w.hash).getD []).length ≤ a) →
        Memory.read t.hbm a = Memory.read s.hbm a := by
  have run : exec .patternLoad s = execPatternLoad s := rfl
  simp only [execPatternLoad, hl, hopen, hasked, hp, hr, hv, Bool.false_eq_true, if_false] at run
  obtain ⟨p, patterns, loads, phys, nextHandle, hbm, fields⟩ := State.commit_frame { s with loads := rest } l ws
  have frame := LoadFrame.answerLoad (LoadFrame.refl { State.commit { s with loads := rest } l ws with peerObjects := [] }) l stOk
    (loadReply s.nextHandle k ws)
  obtain ⟨handle, image, hash, batchMax, windowUs, debug⟩ := fields
  refine ⟨_, p, run, frame.loads.trans loads, frame.phys.trans phys, frame.patterns.trans patterns, frame.nextHandle.trans nextHandle,
    handle, image, hash, batchMax, windowUs, debug, fun a out => ?_⟩
  exact (congrArg (fun m : Memory => Memory.read m a) (frame.hbm.trans hbm)).trans
    (State.read_placeWeights { s with loads := rest } l.image out)

end

/-! ### Instruction banks -/

/-- Values set at keys, each the value of its key: each key then has its value, and every other key what it had. -/
theorem mget_foldl_mset {α : Type} (d : α) (f : Nat → α) (es : List (Nat × α)) (m : List (Nat × α)) (k : Nat) (hf : ∀ e ∈ es, e.2 = f e.1) :
    mget d (es.foldl (fun m e => mset m e.1 e.2) m) k = if k ∈ es.map (fun e => e.1) then f k else mget d m k := by
  induction es generalizing m with
  | nil => simp
  | cons e es ih =>
    rw [List.foldl_cons, ih _ (fun x hx => hf x (List.mem_cons_of_mem _ hx)), mget_mset, hf e List.mem_cons_self]
    by_cases key : k = e.1
    · simp [key]
    · simp only [key, List.map_cons, List.mem_cons, false_or, if_false]

/-- The rows of a segment that a bank stores: those that are not empty. -/
theorem mem_bankRows (bank : Nat) (img : List Byte) (g : Segment) (a : Nat) :
    a ∈ (((List.range g.rows).map (fun r => (4096 * bank + r, segRow img g r))).filter (fun e => e.2 != 0)).map (fun e => e.1) ↔
      4096 * bank ≤ a ∧ segRow img g (a - 4096 * bank) ≠ 0 := by
  simp only [List.mem_map, List.mem_filter, List.mem_range, bne_iff_ne]
  constructor
  · rintro ⟨e, ⟨⟨r, -, rfl⟩, row⟩, rfl⟩
    rw [Nat.add_sub_cancel_left]
    exact ⟨Nat.le_add_right _ _, row⟩
  · rintro ⟨le, row⟩
    have rows : a - 4096 * bank < g.rows := by
      by_contra h
      exact row (if_neg h)
    exact ⟨(a, segRow img g (a - 4096 * bank)), ⟨⟨a - 4096 * bank, rows, by rw [Nat.add_sub_cancel' le]⟩, row⟩, rfl⟩

theorem segRow_beyond {img : List Byte} {g : Segment} {r : Nat} (h : g.rows ≤ r) : segRow img g r = 0 := if_neg (Nat.not_lt.2 h)

theorem mget_of_all_ne {α : Type} (d : α) (m : List (Nat × α)) (k : Nat) (h : ∀ c ∈ m, c.1 ≠ k) : mget d m k = d :=
  mget_append_of_all_ne d [] m k h

/-- The bytes of a bank after a segment is written into it, and of the other bank: R50, R236. -/
theorem Phys.mget_writeBank (p : Phys) (bank : Nat) (img : List Byte) (g : Segment) (hg : g.rows ≤ 4096) (a : Nat) :
    mget 0 (p.writeBank bank img g).imem a =
      if 4096 * bank ≤ a ∧ a < 4096 * (bank + 1) then segRow img g (a - 4096 * bank) else mget 0 p.imem a := by
  have value : ∀ e ∈ ((List.range g.rows).map (fun r => (4096 * bank + r, segRow img g r))).filter (fun e => e.2 != 0),
      e.2 = segRow img g (e.1 - 4096 * bank) := by
    intro e he
    obtain ⟨r, -, rfl⟩ := List.mem_map.1 (List.mem_filter.1 he).1
    rw [Nat.add_sub_cancel_left]
  simp only [Phys.writeBank, mget_foldl_mset 0 (fun a => segRow img g (a - 4096 * bank)) _ _ _ value, mem_bankRows]
  by_cases inside : 4096 * bank ≤ a ∧ a < 4096 * (bank + 1)
  · rw [if_pos inside]
    by_cases row : segRow img g (a - 4096 * bank) = 0
    · rw [if_neg (fun h => h.2 row), row, mget_of_all_ne]
      intro c hc e
      have := (List.mem_filter.1 hc).2
      simp only [decide_eq_true_eq] at this
      omega
    · rw [if_pos ⟨inside.1, row⟩]
  · rw [if_neg inside, if_neg]
    · exact mget_filter 0 p.imem (fun x => decide (x < 4096 * bank ∨ 4096 * (bank + 1) ≤ x)) a (by simp only [decide_eq_true_eq]; omega)
    · rintro ⟨le, row⟩
      exact row (segRow_beyond (by omega))

/-- A core whose loader has a bank load due: R236. -/
theorem exec_ibankLoad_due {s : State} {core : CoreId} {p : Pattern} {k : Nat} {rest : List Nat} {bank : BitVec 1}
    (hp : (((s.core core.toNat).task.bind s.task).bind (fun t => s.pattern t.handle)) = some p)
    (hf : (s.core core.toNat).flipList = k :: rest) (hd : (s.core core.toNat).bankDue p core.toNat = true)
    (hb : bank.toNat ≠ (s.core core.toNat).bank) :
    exec (.ibankLoad core bank k) s = .next (withCore (withPhys s core.toNat
        ((s.pcore core.toNat).writeBank bank.toNat p.image (segAt p.image k))) core.toNat { s.core core.toNat with
      flipList := rest, loadDone := true, loadRefused := false, segs := mset (s.core core.toNat).segs bank.toNat k }) := by
  have run : exec (.ibankLoad core bank k) s = execIbankLoad core bank k s := rfl
  simp only [execIbankLoad, hp, hf, hb, hd, ne_eq, not_true_eq_false, Bool.not_true, Bool.false_eq_true, or_self, if_false] at run
  exact run

/-- A bank load that meets the active bank: R50. -/
theorem exec_ibankLoad_refused {s : State} {core : CoreId} {p : Pattern} {k : Nat} {rest : List Nat} {bank : BitVec 1} (seg : Nat)
    (hp : (((s.core core.toNat).task.bind s.task).bind (fun t => s.pattern t.handle)) = some p)
    (hf : (s.core core.toNat).flipList = k :: rest) (hb : bank.toNat = (s.core core.toNat).bank) :
    exec (.ibankLoad core bank seg) s = done s (s.bankRefused core.toNat bank.toNat) := by
  have run : exec (.ibankLoad core bank seg) s = execIbankLoad core bank seg s := rfl
  simp only [execIbankLoad, hp, hf, hb, if_true] at run
  rw [run, hb]

theorem exec_bankReadySignal {s : State} {core : CoreId} (hd : (s.core core.toNat).loadDone = true) (hr : (s.core core.toNat).reqs = []) :
    exec (.bankReadySignal core) s = .next (withCore s core.toNat { s.core core.toNat with
      loadDone := false, tallies := mset (s.core core.toNat).tallies 63 (mget 0 (s.core core.toNat).tallies 63 + 1) }) := by
  have run : exec (.bankReadySignal core) s = execBankReadySignal core s := rfl
  rw [run, execBankReadySignal, if_pos hd, State.modCore_eq_withCore, State.addTally_of_no_reqs (by rw [State.core_withCore]; exact hr),
    State.core_withCore, withCore_withCore]
  exact done_eq rfl

theorem State.ph_withPhys_ne (s : State) {n q : Nat} (p : Phys) (h : q ≠ s.physOf n) : (withPhys s n p).ph q = s.ph q :=
  mget_mset_ne _ _ _ h

/-- Settles O38: each way a load ends keeps what the reply does not touch, and a bank's rows are those of its segment. -/
theorem loaderEvents : Obligations.LoaderEvents := by
  refine fun s => ⟨fun l rest hl hopen hasked => ⟨fun p hp => patternLoad_resident hl hopen hasked hp,
    fun st record hp hv => patternLoad_ownRefusal hl hopen hasked hp hv, fun refusal hp hr => patternLoad_peerRefusal hl hopen hasked hp hr,
    fun ws k hp hr hv => patternLoad_accepted hl hopen hasked hp hr hv⟩, fun core p k rest hp hf hd => ⟨fun bank hb hg => ?_, fun bank seg hb => ?_,
    fun done noReqs => exec_bankReadySignal done noReqs⟩⟩
  · have bank_eq := Phys.mget_writeBank (s.pcore core.toNat) bank.toNat p.image (segAt p.image k) hg
    refine ⟨_, exec_ibankLoad_due hp hf hd hb, rfl, fun m hm => State.core_withCore_ne _ _ hm, fun q hq => State.ph_withPhys_ne s _ hq,
      State.core_withCore _ _ _, ?_, fun r hr => ?_, fun a ha => ?_⟩
    · rw [State.pcore_withCore, State.pcore_withPhys]
      rfl
    · rw [State.pcore_withCore, State.pcore_withPhys, bank_eq, if_pos (by omega), Nat.add_sub_cancel_left]
      split
      · rfl
      · exact segRow_beyond (by omega)
    · rw [State.pcore_withCore, State.pcore_withPhys, bank_eq, if_neg (by omega)]
  · rw [exec_ibankLoad_refused seg hp hf hb]
    exact done_eq rfl

end Sys2Proof.Machine
end

section
/-!
PROOFS. `mm.mon`, the rescale sequence and the end of a tile's output (R40, R72, R75, R76, R79, R80, R190).
-/

namespace Sys2Proof.Machine

open Claim

/-! ### mm.mon -/

/-- The greatest of a number and a list of others. -/
theorem foldl_max_spec (a : Nat) (l : List Nat) : a ≤ l.foldl max a ∧ (∀ x ∈ l, x ≤ l.foldl max a) ∧ (l.foldl max a = a ∨ l.foldl max a ∈ l) := by
  induction l generalizing a with
  | nil => exact ⟨le_refl _, by simp, .inl rfl⟩
  | cons y l ih =>
    obtain ⟨low, all, mem⟩ := ih (max a y)
    have ha : a ≤ max a y := Nat.le_max_left a y
    have hy : y ≤ max a y := Nat.le_max_right a y
    refine ⟨ha.trans low, fun x hx => ?_, ?_⟩
    · rcases List.mem_cons.1 hx with rfl | h
      · exact hy.trans low
      · exact all x h
    · rcases mem with e | h
      · rw [List.foldl_cons, e]
        rcases Nat.le_total a y with h | h
        · exact .inr (by rw [Nat.max_eq_right h]; exact List.mem_cons_self)
        · exact .inl (Nat.max_eq_left h)
      · exact .inr (List.mem_cons_of_mem _ h)

/-- The cycle in which all matrix work before a row of cycle `t` completes: R79. -/
def Matrix.completion (x : Matrix) (t : Nat) : Nat := (x.work.map (fun w => w.doneAt)).foldl max t

/-- The monitor block is sent on its way, cleared and given new bases: R79. -/
theorem State.engineMon_eq (s : State) (n id t : Nat) (m : MSlot) (a : Nat) :
    s.engineMon n t id t m a = withCore s n { s.core n with
      pipe := (s.core n).pipe ++ [⟨(s.core n).mx.completion t + 4, .mout id a (s.core n).mx.mon.block⟩],
      mx := { (s.core n).mx with
        mon := { histBase := sextN 8 (m.bits 23 16), satExp := sextN 8 (m.bits 31 24) },
        work := (s.core n).mx.work.filter (fun w => decide (t < w.doneAt) || w.output || !w.rescales.isEmpty) ++
          [{ id := id, doneAt := (s.core n).mx.completion t + 4, output := false }] } } := by
  have later : ¬((s.core n).mx.completion t + 4 ≤ t) := by
    have := (foldl_max_spec t ((s.core n).mx.work.map (fun w => w.doneAt))).1
    rw [Matrix.completion]
    omega
  have act : s.engineMon n t id t m a = State.addWork (State.modCore (if (s.core n).mx.completion t + 4 ≤ t then s
      else s.pend n [⟨(s.core n).mx.completion t + 4, .mout id a (s.core n).mx.mon.block⟩]) n (fun c =>
    { c with mx := { c.mx with mon := { histBase := sextN 8 (m.bits 23 16), satExp := sextN 8 (m.bits 31 24) } } })) n t
      { id := id, doneAt := (s.core n).mx.completion t + 4, output := false } := rfl
  rw [act, if_neg later, State.pend_eq_issued, issued, State.addWork, State.modCore_withCore, State.modCore_withCore]

theorem monitorStore : Claim.MonitorStore := by
  intro s m hi n k
  obtain ⟨low, all, mem⟩ := foldl_max_spec (now s n) (k.mx.work.map (fun w => w.doneAt))
  refine ⟨k.mx.completion (now s n), low, fun w hw => all _ (List.mem_map_of_mem hw), ?_, ?_⟩
  · rcases mem with h | h
    · exact .inl h
    · obtain ⟨w, hw, e⟩ := List.mem_map.1 h
      exact .inr ⟨w, hw, e⟩
  · refine SlotShape.exec_eq_next (act := actMmMon m) (.slot rfl _ fun _ => rfl) hi ?_ rfl
    have act : actMmMon m s = State.modCore (State.engineMon { s with nextId := s.nextId + 1 } n (now s n) s.nextId (now s n) m (m.monAddr k)) n
      (fun c => { c with mx := { c.mx with script := c.mx.noted (.mon s.nextId (now s n) m (m.monAddr k)) } }) := rfl
    rw [act, State.engineMon_eq, State.modCore_withCore]
    rfl

/-! ### Held cycles -/

/-- What decides whether a core is held with its gang: its phase, its gang and its late holds. -/
def Core.stance (c : Core) : Phase × Bool × Nat × Nat × List Late := (c.phase, c.inGang, c.gangPos, c.gangLast, c.late)

/-- The queue and what decides which cores are held are as they were. -/
structure HeldFrame (s t : State) : Prop where
  pending : t.pending = s.pending
  stance : ∀ m, (t.core m).stance = (s.core m).stance

namespace HeldFrame

variable {s t : State}

theorem refl (s : State) : HeldFrame s s := ⟨rfl, fun _ => rfl⟩

theorem trans {u : State} (h : HeldFrame s t) (k : HeldFrame t u) : HeldFrame s u :=
  ⟨k.pending.trans h.pending, fun m => (k.stance m).trans (h.stance m)⟩

theorem foldl {α : Type} {f : State → α → State} (hf : ∀ u x, HeldFrame u (f u x)) (h : HeldFrame s t) (l : List α) :
    HeldFrame s (l.foldl f t) :=
  List.foldlRecOn l f h (fun u hu x _ => hu.trans (hf u x))

theorem modCore (h : HeldFrame s t) (n : Nat) {f : Core → Core} (hf : ∀ c, (f c).stance = c.stance) : HeldFrame s (t.modCore n f) := by
  refine ⟨h.pending, fun m => ?_⟩
  by_cases e : m = n
  · rw [e, State.core_modCore, hf, h.stance]
  · rw [State.core_modCore_ne _ _ e, h.stance]

theorem modP (h : HeldFrame s t) (n : Nat) (f : Phys → Phys) : HeldFrame s (t.modP n f) := ⟨h.pending, h.stance⟩

theorem bufWrite (h : HeldFrame s t) (n off : Nat) (bs : List Byte) : HeldFrame s (t.bufWrite n off bs) := h.modP n _

theorem land (h : HeldFrame s t) (n : Nat) (d : Dest) : HeldFrame s (t.land n d) := by
  cases d with
  | sreg | sview | vreg | mreg | vl | vlview | fifoWord | credit =>
    simp only [State.land]
    exact h.modCore _ fun _ => by rfl
  | bytes | mout =>
    simp only [State.land, State.portWrite]
    exact (h.modCore _ fun _ => by rfl).bufWrite _ _ _

theorem landDue (h : HeldFrame s t) (n d : Nat) (p : Pend → Bool) : HeldFrame s (t.landDue n d p) := by
  unfold State.landDue
  exact foldl (fun u (q : Pend) => (refl u).land n q.dst) (h.modCore n fun _ => by rfl) _

theorem networkPass (h : HeldFrame s t) (n : Nat) : HeldFrame s (t.networkPass n) := by
  unfold State.networkPass
  exact (h.landDue n _ _).modCore n fun _ => by rfl

theorem countHeld (h : HeldFrame s t) (n : Nat) : HeldFrame s (t.countHeld n) := by
  unfold State.countHeld State.countQuiet
  exact ((h.modCore n fun _ => by rfl).modP n _).modCore n fun _ => by rfl

theorem heldStep (h : HeldFrame s t) (n : Nat) : HeldFrame s (t.heldStep n) :=
  foldl (fun u m => ((refl u).countHeld m).networkPass m) h _

theorem gang (h : HeldFrame s t) (n : Nat) : t.gang n = s.gang n := by
  have := h.stance n
  simp only [Core.stance, Prod.mk.injEq] at this
  obtain ⟨-, inGang, pos, last, -⟩ := this
  simp only [State.gang, inGang, pos, last]

theorem members (h : HeldFrame s t) (n : Nat) : t.members n = s.members n := by
  have phase : ∀ m, (t.core m).phase = (s.core m).phase := fun m => congrArg Prod.fst (h.stance m)
  simp only [State.members, h.gang, phase]

theorem lateIn (h : HeldFrame s t) (n : Nat) : t.lateIn n = s.lateIn n := by
  have late : ∀ m, (t.core m).lateNow = (s.core m).lateNow := fun m => by
    have := h.stance m
    simp only [Core.stance, Prod.mk.injEq] at this
    obtain ⟨-, -, -, -, late⟩ := this
    rw [Core.lateNow, late, Core.lateNow]
  simp only [State.lateIn, h.members, late]

end HeldFrame

/-! ### Rescale sequences -/

/-- A core changed where its physical core has changed too. -/
theorem State.modCore_withPhys_withCore (s : State) (n : Nat) (c : Core) (p : Phys) (f : Core → Core) :
    (withPhys (withCore s n c) n p).modCore n f = withPhys (withCore s n (f c)) n p := by
  have same : (withPhys (withCore s n c) n p).core n = c := State.core_withCore s n c
  have act : (withPhys (withCore s n c) n p).modCore n f = withCore (withPhys (withCore s n c) n p) n (f ((withPhys (withCore s n c) n p).core n)) := rfl
  rw [act, same, ← State.modCore_withCore s n c (fun _ => f c)]
  rfl

/-- A core whose rescale sequence has begun, in its engine: R75, R80. -/
def sequenceBegun (k : Core) (id : Nat) (entries : List Nat) : Core := { k with mx := { k.mx.count 1 0 0 0 with
  script := k.mx.noted (.rescaled id entries)
  work := k.mx.work.map (fun y => if y.id = id then { y with rescales := y.rescales.drop 1 } else y) } }

theorem State.engineEvent_rescaled (s : State) (n id : Nat) (entries : List Nat) : s.engineEvent n (.rescaled id entries) =
    withPhys (withCore s n (sequenceBegun (s.core n) id entries)) n
      { s.pcore n with ovf := (s.pcore n).ovf.filter (fun e => !entries.contains e) } := by
  have act : s.engineEvent n (.rescaled id entries) = (withPhys (withCore s n { s.core n with mx := { (s.core n).mx.count 1 0 0 0 with
      work := (s.core n).mx.work.map (fun y => if y.id = id then { y with rescales := y.rescales.drop 1 } else y) } }) n
        { s.pcore n with ovf := (s.pcore n).ovf.filter (fun e => !entries.contains e) }).modCore n
      (fun c => { c with mx := { c.mx with script := c.mx.noted (.rescaled id entries) } }) := rfl
  rw [act, State.modCore_withPhys_withCore]
  rfl

/-- A rescale sequence that is due is counted and stops issue: R40, R75, R80. -/
theorem exec_rescale_due {s : State} {core : CoreId} {w : MWork} {u : Rescale} (h : s.rescaleDue core.toNat = some (w, u)) :
    exec (.rescale core) s = done s (State.lateHold (withPhys (withCore s core.toNat (sequenceBegun (s.core core.toNat) w.id u.entries)) core.toNat
        { s.pcore core.toNat with ovf := (s.pcore core.toNat).ovf.filter (fun e => !u.entries.contains e) }) core.toNat
      { cause := 0xC, detail := 0, after := 0, left := (s.core core.toNat).mx.rescaleLength u - 4, clear := false }) := by
  have run : exec (.rescale core) s = execRescale core s := rfl
  simp only [execRescale, h, State.engineEvent_rescaled] at run
  exact run

/-- No held cycle of a sequence passes where none is told, none is in force, or a sequence is due or to be cleared: R75. -/
theorem State.sequenceCycles_none {s : State} {n cycles : Nat} (h : cycles = 0 ∨ s.lateIn n = false ∨ s.mayPass n = false) :
    s.sequenceCycles n cycles = s := by
  cases cycles with
  | zero => rfl
  | succ k =>
    rw [State.sequenceCycles, if_neg]
    rintro ⟨late, pass⟩
    rcases h with h | h | h
    · cases h
    · exact Bool.false_ne_true (h.symm.trans late)
    · exact Bool.false_ne_true (h.symm.trans pass)

/-- A held cycle of a gang with a late hold in force is one of a sequence: R40, R75. -/
theorem State.sequenceCycles_succ {s u : State} {n cycles : Nat} (late : s.lateIn n = true) (pass : s.mayPass n = true)
    (held : s.heldCycle n [] = some u) : s.sequenceCycles n (cycles + 1) = u.sequenceCycles n cycles := by
  have still : (s.heldStep n).lateIn n = true := by rw [((HeldFrame.refl s).heldStep n).lateIn, late]
  simp only [State.heldCycle, still, if_true, Option.some.injEq] at held
  rw [State.sequenceCycles, if_pos ⟨late, pass⟩, held]

/-- A sequence of which no cycle is left has its cause clear, four cycles before issue resumes: R40, R75. -/
def sequenceOver (c : Core) : Core :=
  { c with late := c.late.map (fun l => if l.rescaling ∧ l.left = 0 then { l with left := 4, clear := true } else l) }

theorem exec_rescaleClear (core : CoreId) (cycles : Nat) (s : State) :
    exec (.rescaleClear core cycles) s = .next ((s.sequenceCycles core.toNat cycles).modCore core.toNat sequenceOver) := by
  have run : exec (.rescaleClear core cycles) s = done (s.sequenceCycles core.toNat cycles)
    ((s.sequenceCycles core.toNat cycles).modCore core.toNat sequenceOver) := rfl
  exact run.trans (done_eq rfl)

theorem rescaleSequence : Claim.RescaleSequence := by
  intro s core n k
  refine ⟨fun h => ?_, fun w u h => ?_, fun cycles h => ?_, fun cycles u late pass held => ?_⟩
  · have run : exec (.rescale core) s = execRescale core s := rfl
    have none : s.rescaleDue core.toNat = none := h
    simp only [execRescale, none] at run
    exact run
  · have same : (withPhys (withCore s core.toNat (sequenceBegun (s.core core.toNat) w.id u.entries)) core.toNat
        { s.pcore core.toNat with ovf := (s.pcore core.toNat).ovf.filter (fun e => !u.entries.contains e) }).core core.toNat =
        sequenceBegun (s.core core.toNat) w.id u.entries := State.core_withCore _ _ _
    rw [exec_rescale_due h, State.lateHold, same, State.modCore_withPhys_withCore]
    have phase : (sequenceBegun (s.core core.toNat) w.id u.entries).phase = k.phase := rfl
    rw [phase]
    split
    · exact done_eq rfl
    · exact done_eq rfl
  · rw [exec_rescaleClear, State.sequenceCycles_none h, State.modCore_eq_withCore, sequenceOver]
    simp only [Late.rescaling_iff, and_assoc]
    rfl
  · rw [exec_rescaleClear, exec_rescaleClear, State.sequenceCycles_succ late pass held]

/-! ### The end of an output -/

/-- Output rows that land change only the buffers they are written to, and what reads at the check stage still find: R72, R144. -/
structure OutputsLanded (s : State) (n : Nat) (u : State) : Prop where
  frame : u = { s with cores := u.cores, phys := u.phys }
  cores : ∀ k, k ≠ n → u.core k = s.core k
  phys : ∀ k, k ≠ s.physOf n → u.ph k = s.ph k
  core : u.core n = { s.core n with chkOld := (u.core n).chkOld }
  pcore : u.pcore n = { s.pcore n with mem := (u.pcore n).mem, weak := (u.pcore n).weak }

/-- A row that lands changes no byte outside it: R27, R128. -/
theorem OutputsLanded.portWrite {s u : State} {n : Nat} (h : OutputsLanded s n u) (off : Nat) (bs : List Byte) :
    OutputsLanded s n (u.portWrite n off bs) ∧ ∀ a, (a < off ∨ off + bs.length ≤ a) →
      Memory.read ((u.portWrite n off bs).pcore n).mem a = Memory.read (u.pcore n).mem a := by
  have act : u.portWrite n off bs = (withCore u n { u.core n with
      chkOld := (u.core n).chkOld ++ [(u.cycle n + 4, off, u.bufRead n off bs.length)] }).bufWrite n off bs := rfl
  have mapped : u.physOf n = s.physOf n := by rw [h.frame]; rfl
  have written := State.pcore_bufWrite (withCore u n { u.core n with
      chkOld := (u.core n).chkOld ++ [(u.cycle n + 4, off, u.bufRead n off bs.length)] }) n off bs
  rw [← act, State.pcore_withCore] at written
  have same : (u.portWrite n off bs).core n = { u.core n with
      chkOld := (u.core n).chkOld ++ [(u.cycle n + 4, off, u.bufRead n off bs.length)] } := State.core_withCore u n _
  refine ⟨⟨?_, fun k hk => ?_, fun k hk => ?_, ?_, ?_⟩, fun a ha => ?_⟩
  · rw [act, h.frame]
    rfl
  · rw [act]
    exact (State.core_withCore_ne u _ hk).trans (h.cores k hk)
  · rw [act]
    exact (State.ph_bufWrite_ne _ off bs (by rw [← mapped] at hk; exact hk)).trans (h.phys k hk)
  · rw [same, h.core]
  · rw [written, h.pcore]
  · rw [written, Memory.read_writeN, if_neg (by omega)]

/-- An output of a row, on its way. -/
theorem Pend.outOf_iff (q : Pend) (id : Nat) : q.outOf (fun k => k == id) = true ↔ ∃ off b, q.dst = .mout id off b := by
  obtain ⟨due, dst⟩ := q
  cases dst <;> simp [Pend.outOf]

/-- Several output rows that land: R72. -/
theorem OutputsLanded.foldl {s u : State} {n id : Nat} (h : OutputsLanded s n u) {l : List Pend} (hl : ∀ p ∈ l, ∃ off b, p.dst = .mout id off b) :
    OutputsLanded s n (l.foldl (fun u p => u.land n p.dst) u) ∧
    ∀ a, (∀ p ∈ l, ∀ off b, p.dst = .mout id off b → a < off ∨ off + b.length ≤ a) →
      Memory.read ((l.foldl (fun u p => u.land n p.dst) u).pcore n).mem a = Memory.read (u.pcore n).mem a := by
  induction l generalizing u with
  | nil => exact ⟨h, fun _ _ => rfl⟩
  | cons p l ih =>
    obtain ⟨off, b, row⟩ := hl p List.mem_cons_self
    have land : u.land n p.dst = u.portWrite n off b := by rw [row, State.land]
    obtain ⟨one, outside⟩ := h.portWrite off b
    obtain ⟨all, rest⟩ := ih one (fun q hq => hl q (List.mem_cons_of_mem _ hq))
    rw [List.foldl_cons, land]
    refine ⟨all, fun a ha => (rest a fun q hq => ha q (List.mem_cons_of_mem _ hq)).trans (outside a ?_)⟩
    exact ha p List.mem_cons_self off b row

/-- The outputs of a row that are on their way by its last cycle. -/
def Core.outputs (c : Core) (w : MWork) : List Pend := c.pipe.filter (fun x => decide (x.due ≤ w.doneAt) && x.outOf (fun k => k == w.id))

/-- A core with the outputs of a row no longer on their way. -/
def Core.outputsDone (c : Core) (w : MWork) : Core :=
  { c with pipe := c.pipe.filter (fun x => !(decide (x.due ≤ w.doneAt) && x.outOf (fun k => k == w.id))) }

/-- The state in which the outputs of a row have landed. -/
def State.outputsLanded (s : State) (n : Nat) (w : MWork) : State :=
  ((s.core n).outputs w).foldl (fun u p => u.land n p.dst) (withCore s n ((s.core n).outputsDone w))

theorem State.outputsLanded_frame (s : State) (n : Nat) (w : MWork) :
    s.outputsLanded n w = { s with cores := (s.outputsLanded n w).cores, phys := (s.outputsLanded n w).phys } ∧
    (∀ k, k ≠ n → (s.outputsLanded n w).core k = s.core k) ∧ (∀ k, k ≠ s.physOf n → (s.outputsLanded n w).ph k = s.ph k) ∧
    (s.outputsLanded n w).core n = { (s.core n).outputsDone w with chkOld := ((s.outputsLanded n w).core n).chkOld } ∧
    (s.outputsLanded n w).pcore n = { s.pcore n with
      mem := ((s.outputsLanded n w).pcore n).mem, weak := ((s.outputsLanded n w).pcore n).weak } ∧
    ∀ a, (∀ p ∈ (s.core n).pipe, ∀ off b, p.dst = .mout w.id off b → p.due ≤ w.doneAt → a < off ∨ off + b.length ≤ a) →
      Memory.read ((s.outputsLanded n w).pcore n).mem a = Memory.read (s.pcore n).mem a := by
  have start : OutputsLanded (withCore s n ((s.core n).outputsDone w)) n (withCore s n ((s.core n).outputsDone w)) :=
    ⟨rfl, fun _ _ => rfl, fun _ _ => rfl, rfl, rfl⟩
  have member : ∀ p ∈ (s.core n).outputs w, p ∈ (s.core n).pipe ∧ p.due ≤ w.doneAt ∧ ∃ off b, p.dst = .mout w.id off b := fun p hp => by
    obtain ⟨mem, due⟩ := List.mem_filter.1 hp
    rw [Bool.and_eq_true, decide_eq_true_iff, Pend.outOf_iff] at due
    exact ⟨mem, due⟩
  obtain ⟨landed, outside⟩ := start.foldl fun p hp => (member p hp).2.2
  obtain ⟨frame, cores, phys, self, pself⟩ := landed
  rw [State.core_withCore] at self
  refine ⟨frame, fun k hk => (cores k hk).trans (State.core_withCore_ne s _ hk), phys, self, pself, fun a ha => outside a fun p hp off b row => ?_⟩
  obtain ⟨mem, due, -⟩ := member p hp
  exact ha p mem off b row due

theorem exec_mmTileOutputDone {s : State} {core : CoreId} {w : MWork}
    (h : (s.core core.toNat).mx.work.find? (fun w => w.output && decide (w.doneAt ≤ s.cycle core.toNat)) = some w) :
    exec (.mmTileOutputDone core) s = done s (((s.outputsLanded core.toNat w).engineEvent core.toNat (.output w.id (s.cycle core.toNat))).modCore
      core.toNat (fun c => c.countDown w.ranges)) := by
  have run : exec (.mmTileOutputDone core) s = execMmTileOutputDone core s := rfl
  simp only [execMmTileOutputDone, h] at run
  exact run

/-- A core whose engine has written the last output of a row: R72. -/
def Core.outputOver (c : Core) (id t : Nat) : Core := { c with mx := { c.mx with
  script := c.mx.noted (.output id t)
  work := (c.mx.work.map (fun x => if x.id = id then { x with output := false } else x)).filter
    (fun x => t < x.doneAt || x.output || !x.rescales.isEmpty) } }

theorem State.engineEvent_output (s : State) (n id t : Nat) :
    s.engineEvent n (.output id t) = withCore s n ((s.core n).outputOver id t) := by
  have act : s.engineEvent n (.output id t) = (s.engineOutput n id t).modCore n (fun c =>
    { c with mx := { c.mx with script := c.mx.noted (.output id t) } }) := rfl
  rw [act, State.engineOutput, State.modCore_modCore]
  rfl

/-- A row whose last output is written has none to write: R72. -/
theorem Core.output_of_outputOver {c : Core} {id t : Nat} {x : MWork} (hx : x ∈ (c.outputOver id t).mx.work) (e : x.id = id) : x.output = false := by
  obtain ⟨y, -, rfl⟩ := List.mem_map.1 (List.mem_of_mem_filter hx)
  by_cases own : y.id = id
  · rw [if_pos own]
  · rw [if_neg own] at e
    exact absurd e own

theorem tileOutputDone : Claim.TileOutputDone := by
  intro s core n oldest
  refine ⟨fun h => ?_, fun w h => ?_⟩
  · have run : exec (.mmTileOutputDone core) s = execMmTileOutputDone core s := rfl
    have none : (s.core core.toNat).mx.work.find? (fun w => w.output && decide (w.doneAt ≤ s.cycle core.toNat)) = none := h
    simp only [execMmTileOutputDone, none] at run
    exact run
  · obtain ⟨frame, cores, phys, self, pself, outside⟩ := s.outputsLanded_frame core.toNat w
    have run := exec_mmTileOutputDone (s := s) (core := core) h
    rw [State.engineEvent_output, State.modCore_withCore] at run
    have ranges : ((s.outputsLanded core.toNat w).core core.toNat).ranges = (s.core core.toNat).ranges := by
      rw [self]
      rfl
    have pipe : ((s.outputsLanded core.toNat w).core core.toNat).pipe = ((s.core core.toNat).outputsDone w).pipe := by
      rw [self]
    refine ⟨_, run.trans (done_eq ?_), ?_, fun k hk => ?_, phys, ?_, pself, ?_, ?_, ?_, fun a ha => ?_⟩
    · have pending : (s.outputsLanded core.toNat w).pending = s.pending := by rw [frame]
      exact pending
    · rw [frame]
      rfl
    · exact (State.core_withCore_ne _ _ hk).trans (cores k hk)
    · rw [State.core_withCore, Core.countDown_eq]
      rw [self]
      rfl
    · rw [State.core_withCore]
      exact Core.countDown_ranges_congr (c := s.core core.toNat) (d := ((s.outputsLanded core.toNat w).core core.toNat).outputOver w.id _) ranges _
    · rw [State.core_withCore, Core.countDown_eq]
      exact fun x hx => Core.output_of_outputOver hx
    · rw [State.core_withCore, Core.countDown_eq]
      intro p hp due off b row
      have left := (List.mem_filter.1 (pipe ▸ hp)).2
      rw [(Pend.outOf_iff p w.id).2 ⟨off, b, row⟩, decide_eq_true due] at left
      exact Bool.false_ne_true left
    · exact outside a ha

/-- Settles O14: an output's end lands its rows one by one, each changing only its own bytes; a sequence's held cycles leave its hold as it was. -/
theorem monitorAndEngineEvents : Obligations.MonitorAndEngineEvents := ⟨monitorStore, rescaleSequence, tileOutputDone⟩

end Sys2Proof.Machine
end

section
/-!
PROOFS. Issue turns of a core in no gang: rows of empty slots checked and issued, held turns and their end, and cycles without a row (R27,
R29, R32, R38, R39, R41, R53, R54, R177, R190, R192, R294).
-/

namespace Sys2Proof.Machine

open Claim

/-! ### The conditions of a core whose row has none of its own -/

/-- The conditions that a core's check stage finds whatever the slots of the row are: R248, R249, R292, R387. -/
def Core.rowless (c : Core) (pips : Nat) (draining : Bool) : List (Nat × Nat) :=
  (if c.avail < pips then [(0xA, 0)] else []) ++
  (if !c.held.any (fun h => h.resumed) && (c.held.any (fun h => h.broke) || c.stepLeft == some 0) then [(0xE, 0)] else []) ++
  if draining then [(0xF, 0)] else []

theorem State.rowHolds_unbroken {s : State} {n : Nat} {x : Issue} (h : s.breaksHit n x = []) :
    s.rowHolds n x = x.row.flatMap (s.slotHolds n) ++ s.rowFull n x.row ++ (s.core n).rowless x.pips (s.draining n) := by
  rw [State.rowHolds, Core.rowless, h]
  cases (s.core n).held with
  | none => simp
  | some w => simp

theorem State.rowHolds_empty {s : State} {n : Nat} {x : Issue} (h : s.breaksHit n x = []) (row : x.row = []) :
    s.rowHolds n x = (s.core n).rowless x.pips (s.draining n) := by
  rw [State.rowHolds_unbroken h, row]
  rfl

/-- A slot command meets no breakpoint: R248. -/
theorem State.breaksHit_unfetched {s : State} {n : Nat} {x : Issue} (h : x.fetched = false) : s.breaksHit n x = [] := by
  unfold State.breaksHit
  split
  · simp [State.breakMatches, h]
  · rfl

theorem State.breaksHit_none {s : State} {n : Nat} {x : Issue} (h : s.debugOf n = none) : s.breaksHit n x = [] := by
  simp only [State.breaksHit, h]

theorem State.checkHolds_empty {s : State} {n : Nat} {x : Issue} (h : s.debugOf n = none) (row : x.row = []) :
    s.checkHolds n x = (s.core n).rowless x.pips (s.draining n) := by
  unfold State.checkHolds
  split
  · have view : (s.checkView n x.due).core n = (s.core n).viewAt x.due := State.core_withCore s n _
    have same : (s.checkView n x.due).debugOf n = none := (State.debugOf_withCore (c := (s.core n).viewAt x.due) (by rfl)).trans h
    rw [State.rowHolds_empty (State.breaksHit_none same) row, view]
    rfl
  · exact State.rowHolds_empty (State.breaksHit_none h) row

/-! ### A row of empty slots at the check stage -/

theorem State.passRow_empty {s : State} {n : Nat} {x : Issue} {h : Option (Nat × Nat)} (row : x.row = []) (pc : x.pc = (s.core n).pc)
    (bank : x.bank = (s.core n).bank) : s.passRow n x h = withCore s n (passed (s.core n) x.pips x.tag h) := by
  have view : (s.checkView n x.due).core n = (s.core n).viewAt x.due := State.core_withCore s n _
  have act : s.passRow n x h = (((s.checkView n x.due).readWeak n []).modCore n (fun c => c.countUp [])).modCore n (fun y => { y.nextRow with
      sChk := (s.core n).sChk, vlChk := (s.core n).vlChk, chkOld := (s.core n).chkOld, held := none,
      skid := y.skid ++ [some { row := [], pips := x.pips, tag := x.tag, pc := (s.core n).pc, bank := (s.core n).bank, loops := (s.core n).loops, hold := h }],
      stepLeft := y.stepLeft.map (fun j => j - 1) }) := by
    simp only [State.passRow, row, pc, bank]
    rfl
  have view_eq : ((s.checkView n x.due).readWeak n []) = withCore s n ((s.core n).viewAt x.due) := rfl
  rw [act, view_eq, State.modCore_withCore, State.modCore_withCore]
  congr 1
  simp only [Core.nextRow, passed, Core.countUp, Core.viewAt, List.foldl_nil]
  cases (s.core n).next <;> rfl

/-- A row of empty slots asks no tally unit: R177. -/
theorem State.askTallies_empty {s : State} {n : Nat} {x : Issue} {c : Core} {h : Held} (row : x.row = []) (held : c.held = some h)
    (asked : h.asked = false) : (withCore s n c).askTallies [(n, x)] = withCore s n c := by
  have act : (withCore s n c).askTallies [(n, x)] = (withCore s n c).modCore n (fun c =>
      { c with held := c.held.map (fun h => { h with asked := (x.row.filterMap c.tallyReq) != [] }) }) := by
    simp only [State.askTallies, List.flatMap_cons, List.flatMap_nil, row, List.filterMap_nil, List.append_nil, List.filter_nil, List.foldl_nil,
      List.foldl_cons]
  rw [act, State.modCore_withCore, row]
  congr 1
  obtain ⟨⟩ := c
  obtain ⟨⟩ := h
  subst held asked
  rfl

/-- A lending core asks for its pips where its check stage finds no condition but PIPS: R293, R296. -/
theorem State.askPips_withCore (s : State) (n : Nat) (c : Core) (hs : List (Nat × Nat)) :
    (withCore s n c).askPips n hs = withCore s n { c with reclaiming := asks c hs } := by
  rw [State.askPips, State.core_withCore]
  split
  · next h =>
    obtain ⟨lent, all⟩ := h
    have asked : asks c hs = true := by simp [asks, lent, all]
    rw [State.modCore_withCore, asked]
  · next h =>
    have none : asks c hs = c.reclaiming := by
      rw [asks]
      by_cases lent : c.lent = 0
      · simp [lent]
      · simp only [not_and, Bool.not_eq_true] at h
        simp [h lent]
    rw [none]

/-- A core that the check stage of its own issues for, in no gang: R29, R44. -/
structure Alone (c : Core) : Prop where
  inGang : c.inGang = false
  running : c.phase = .running
  fetching : c.fetchEnd = false

theorem State.issuing_alone {s : State} {n : Nat} (h : Alone (s.core n)) : s.issuing n = [n] := by
  simp [State.issuing, State.gang_alone h.inGang, h.running]

theorem State.checking_alone {s : State} {n : Nat} (h : Alone (s.core n)) : s.checking n = [n] := by
  simp [State.checking, State.issuing_alone h, h.fetching]

theorem State.members_alone {s : State} {n : Nat} (h : (s.core n).inGang = false) (phase : (s.core n).phase = .idle ∨ (s.core n).phase = .running) :
    s.members n = [n] := by
  rw [State.members, State.gang_alone h]
  rcases phase with p | p <;> simp only [List.filter_cons, List.filter_nil, p, if_true]

theorem State.debugOf_again {s : State} {n : Nat} {c d : Core} (quiet : (withCore s n c).debugOf n = none) (task : d.task = c.task) :
    (withCore s n d).debugOf n = none := by
  rw [← withCore_withCore s n c d]
  exact (State.debugOf_withCore (by rw [State.core_withCore, task])).trans quiet

/-- Nothing that a row's fetch meets stands in its way, where no word of the core's memories holds a stored error: R137. -/
theorem State.rowFetched_clean {s : State} {n : Nat} (h : (s.pcore n).weak = []) : s.rowFetched n [] = .clean := by
  simp [State.rowFetched, h]

/-- The check stage of a core in no gang has one row at it: it passes, or the stage stays on it (R29, R39). -/
theorem State.checkStage_alone {s : State} {n now : Nat} {x : Issue} {c : Core} (alone : Alone c) (quiet : (withCore s n c).debugOf n = none)
    (fetched : c.held = none → (s.pcore n).weak = []) (found : (withCore s n c).checkRow n now = some x) (row : x.row = []) :
    let holds := c.rowless x.pips (s.draining n)
    let z := withCore s n { c with reclaiming := asks c holds }
    (withCore s n c).checkStage n now [] = some (if holds = [] then z.passRow n x c.ownHeld else z.stayOn [(n, x)]) := by
  intro holds z
  have same : (withCore s n c).core n = c := State.core_withCore s n c
  have checking : (withCore s n c).checking n = [n] := State.checking_alone (same.symm ▸ alone)
  have clean : ∀ m ∈ [n].filter (fun m => ((withCore s n c).core m).held.isNone), (withCore s n c).rowFetched m [] = .clean := fun m hm => by
    obtain ⟨mem, held⟩ := List.mem_filter.1 hm
    obtain rfl := List.mem_singleton.1 mem
    rw [same, Option.isNone_iff_eq_none] at held
    exact State.rowFetched_clean (fetched held)
  have find : ([n].filter (fun m => ((withCore s n c).core m).held.isNone)).find? (fun m => (withCore s n c).rowFetched m [] == .uncorrectable) = none :=
    List.find?_eq_none.2 fun m hm => by simp [clean m hm]
  have noted : ([n].filter (fun m => ((withCore s n c).core m).held.isNone)).foldl (fun s m => s.noteFetch [] m) (withCore s n c) = withCore s n c := by
    refine List.foldlRecOn (motive := fun u => u = withCore s n c) _ _ rfl fun u hu m hm => ?_
    rw [hu, State.noteFetch, clean m hm, if_neg (by decide)]
  have first : (withCore s n c).checkHolds n x = holds := (State.checkHolds_empty quiet row).trans (by rw [same]; rfl)
  have asked : (withCore s n c).askPips n holds = z := State.askPips_withCore s n c holds
  have zcore : z.core n = { c with reclaiming := asks c holds } := State.core_withCore s n _
  have zquiet : z.debugOf n = none := State.debugOf_again quiet (by rfl)
  have second : z.checkHolds n x = holds := (State.checkHolds_empty zquiet row).trans (by rw [zcore]; rfl)
  have own : (z.core n).ownHeld = c.ownHeld := by
    rw [zcore]
    rfl
  simp only [State.checkStage, checking, find, noted, List.map_cons, List.map_nil, found, List.any_cons, List.any_nil, Option.isNone_some, Bool.or_false,
    Bool.false_eq_true, if_false, List.filterMap_cons, List.filterMap_nil, Option.map_some, List.foldl_cons, List.foldl_nil, first, asked, second, own]
  by_cases h : holds = []
  · simp [h]
  · simp [h]

/-- A row held for the first time begins its hold, and no row will issue four cycles on: R39. -/
theorem State.stayOn_first {s : State} {n : Nat} {x : Issue} {c : Core} (quiet : (withCore s n c).debugOf n = none) (row : x.row = [])
    (held : c.held = none) : (withCore s n c).stayOn [(n, x)] =
      withCore s n { c with held := some (x.held (c.rowless x.pips (s.draining n))), skid := c.skid ++ [none] } := by
  have same : (withCore s n c).core n = c := State.core_withCore s n c
  have holds : (withCore s n c).checkHolds n x = c.rowless x.pips (s.draining n) := (State.checkHolds_empty quiet row).trans (by rw [same]; rfl)
  have begun : (withCore s n c).beginHold [(n, x)] = withCore s n { c with held := some (x.held (c.rowless x.pips (s.draining n))) } := by
    rw [State.beginHold_single quiet, same, holds, withCore_withCore]
    exact State.askTallies_empty row rfl rfl
  simp only [State.stayOn, List.filter_cons, List.filter_nil, same, held, Option.isSome_none, Option.isNone_none, Bool.false_eq_true, if_false, if_true,
    List.foldl_nil, List.foldl_cons, begun, State.modCore_withCore]

/-- A held row is checked again, and no row will issue four cycles on: R39. -/
theorem State.stayOn_again {s : State} {n : Nat} {x : Issue} {c : Core} {h : Held} (quiet : (withCore s n c).debugOf n = none) (row : x.row = [])
    (held : c.held = some h) : (withCore s n c).stayOn [(n, x)] =
      withCore s n { c with held := some (h.again (c.rowless x.pips (s.draining n))), skid := c.skid ++ [none] } := by
  have same : (withCore s n c).core n = c := State.core_withCore s n c
  have holds : (withCore s n c).checkHolds n x = c.rowless x.pips (s.draining n) := (State.checkHolds_empty quiet row).trans (by rw [same]; rfl)
  have none (t : State) : t.beginHold [] = t := by
    simp only [State.beginHold, List.foldl_nil, State.askTallies, List.flatMap_nil, List.filter_nil]
  simp only [State.stayOn, List.filter_cons, List.filter_nil, same, held, Option.isSome_some, Option.isNone_some, Bool.false_eq_true, if_false, if_true,
    List.foldl_nil, List.foldl_cons, holds, none, State.modCore_withCore, Option.map_some]

/-! ### The end of an issue cycle -/

/-- A core after an issue cycle in which a row of it issued: R29, R53, R144. -/
def Core.cycled (c : Core) (t : Nat) : Core := { c with wait := 0, quiet := 0, chkOld := c.chkOld.filter (fun e => decide (t + 1 < e.1)) }

theorem State.landDue_withCore (s : State) (n t : Nat) (c : Core) (p : Pend → Bool) : (withCore s n c).landDue n t p =
    (c.pipe.filter (fun x => decide (x.due ≤ t) && p x)).foldl (fun u x => u.land n x.dst)
      (withCore s n { c with pipe := c.pipe.filter (fun x => !(decide (x.due ≤ t) && p x)) }) := by
  rw [State.landDue, State.core_withCore, State.modCore_withCore]

theorem State.landDue_empty {s : State} {n t : Nat} {c : Core} {p : Pend → Bool} (h : c.pipe = []) :
    (withCore s n c).landDue n t p = withCore s n c := by
  rw [State.landDue_withCore, h]
  obtain ⟨⟩ := c
  subst h
  rfl

/-- The one write of a core becomes visible once it is due: R27. -/
theorem State.landDue_single {s : State} {n t : Nat} {c d : Core} {q : Pend} {p : Pend → Bool} (h : c.pipe = [q]) (hp : p q = true)
    (land : (withCore s n { c with pipe := [] }).land n q.dst = withCore s n d) :
    (withCore s n c).landDue n t p = withCore s n (if q.due ≤ t then d else c) := by
  rw [State.landDue_withCore, h]
  by_cases due : q.due ≤ t
  · simp only [List.filter_cons, List.filter_nil, due, hp, decide_true, Bool.and_self, Bool.not_true, Bool.false_eq_true, if_false, if_true, List.foldl_cons,
      List.foldl_nil, land]
  · simp only [List.filter_cons, List.filter_nil, due, decide_false, Bool.false_and, Bool.not_false, Bool.false_eq_true, if_false, if_true, List.foldl_nil]
    obtain ⟨⟩ := c
    subst h
    rfl

theorem State.landDue_none {s : State} {n t : Nat} {c : Core} {p : Pend → Bool} (h : ∀ q ∈ c.pipe, p q = false) :
    (withCore s n c).landDue n t p = withCore s n c := by
  rw [State.landDue_withCore]
  have none : c.pipe.filter (fun x => decide (x.due ≤ t) && p x) = [] := List.filter_eq_nil_iff.2 fun q hq => by simp [h q hq]
  have all : c.pipe.filter (fun x => !(decide (x.due ≤ t) && p x)) = c.pipe := List.filter_eq_self.2 fun q hq => by simp [h q hq]
  rw [none, all]
  rfl

/-- The end of an issue cycle at a core in no gang whose writes on their way are none of another core's: R27, R53. -/
theorem State.advance_alone {s : State} {n : Nat} {c : Core} (alone : Alone c) (base : c.mx.base = none) (late : c.late = [])
    {d : Core} (pipe : ∀ q ∈ d.pipe, q.dst.isRib n = false)
    (land : (withCore (withPhys s n { s.pcore n with rowCount := (s.pcore n).rowCount + 1 }) n (c.cycled ((s.pcore n).rowCount + c.drained))).landDue n
      ((s.pcore n).rowCount + c.drained + 1) (fun p => !p.dst.isRib n) =
        withCore (withPhys s n { s.pcore n with rowCount := (s.pcore n).rowCount + 1 }) n d) :
    (withCore s n c).advance n [n] = withCore (withPhys s n { s.pcore n with rowCount := (s.pcore n).rowCount + 1 }) n d := by
  have same : (withCore s n c).core n = c := State.core_withCore s n c
  have ended : (withCore s n c).endedIn n = [] := by
    rw [State.endedIn, State.gang_alone (same.symm ▸ alone.inGang)]
    simp [alone.running]
  have read : (withCore s n c).resettle n ((withCore s n c).cycle n) = withCore s n c := State.resettle_none (by rw [same, base])
  have time : (withCore s n c).cycle n = (s.pcore n).rowCount + c.drained := by
    rw [State.cycle, same]
    rfl
  have counted : (withCore s n c).modP n (fun p => { p with rowCount := p.rowCount + 1 }) =
    withCore (withPhys s n { s.pcore n with rowCount := (s.pcore n).rowCount + 1 }) n c := rfl
  have cycled : { c.lateNearer with wait := 0, quiet := 0, chkOld := c.chkOld.filter (fun e => decide ((withCore s n c).cycle n + 1 < e.1)) } =
      c.cycled ((s.pcore n).rowCount + c.drained) := by
    rw [time, Core.lateNearer, late]
    obtain ⟨⟩ := c
    subst late
    rfl
  have next : (withCore (withPhys s n { s.pcore n with rowCount := (s.pcore n).rowCount + 1 }) n
      (c.cycled ((s.pcore n).rowCount + c.drained))).cycle n = (s.pcore n).rowCount + c.drained + 1 := by
    rw [State.cycle, State.core_withCore, State.pcore_withCore, State.pcore_withPhys]
    simp only [Core.cycled]
    omega
  simp only [State.advance, ended, List.filter_nil, List.append_nil, List.foldl_cons, List.foldl_nil, read, counted, State.modCore_withCore, cycled, next, land]
  exact State.landDue_none pipe

/-! ### Rows of empty slots issue -/

/-- A core outside its row's issue. -/
def Core.rowOver (c : Core) : Core := { c with rowFrom := none }

/-- The empty row that is due at a core in no gang issues and leaves its place: R27, R29. -/
theorem State.issueRows_empty {s : State} {n : Nat} {k : Checked} (quiet : s.debugOf n = none) (row : k.row = []) (breach : k.breach = none) :
    s.issueRows [(n, k)] = (withCore s n (s.core n).rowOver, true) := by
  have laid := (State.debugOf_withCore (s := s) (c := { (s.core n).overlay k with rowFrom := some s.nextId }) (by rfl)).trans quiet
  have watched (x : Issue) : (withCore s n { (s.core n).overlay k with rowFrom := some s.nextId }).watch n x =
      withCore s n { (s.core n).overlay k with rowFrom := some s.nextId } := by simp only [State.watch, laid]
  have unlay : ({ (s.core n).overlay k with rowFrom := some s.nextId }).unlay k = (s.core n).rowOver := by
    simp only [Core.rowOver, Core.unlay, Core.overlay]
    congr 1
    rw [← List.length_map (f := fun e : Nat × List (BitVec 8) => (0, e.1, e.2)) (as := k.copied), List.drop_left]
  simp only [State.issueRows, List.foldl_cons, List.foldl_nil, State.modCore_eq_withCore, State.rowBreach, List.findSome?_cons, List.findSome?_nil, row,
    breach, Option.or_none, Option.map_none, watched, List.zip_nil_left, State.core_withCore, withCore_withCore, unlay]

/-- A row is due at the core: its gang issues (R29, R40). -/
theorem State.stalled_due {s : State} {n : Nat} {k : Checked} {ks : List (Option Checked)} (alone : Alone (s.core n)) (late : (s.core n).late = [])
    (rescale : s.rescaleDue n = none) (held : (s.core n).slotHeld = false) (skid : (s.core n).skid = some k :: ks) : s.stalled n = false := by
  simp [State.stalled, State.members_alone alone.inGang (.inr alone.running), late, rescale, held, skid, Core.lateNow, Core.rowDue]

/-- A core as its row of empty slots has issued, before the check stage goes on. -/
def issuedRow (c : Core) (ks : List (Option Checked)) : Core := { c with rowFrom := none, skid := ks }

theorem popSkid_rowOver {c : Core} {x : Option Checked} {ks : List (Option Checked)} (h : c.skid = x :: ks) : c.rowOver.popSkid = issuedRow c ks := by
  simp only [Core.popSkid, Core.rowOver, issuedRow, h, List.drop_succ_cons, List.drop_zero]

/-- The row of empty slots that is due issues, and the check stage of the same cycle ends it with `d`: R27, R29. -/
theorem exec_issueCycle_alone {s : State} {core : CoreId} {ports : List PortFact} {k : Checked} {ks : List (Option Checked)} {u : State}
    (found : ∀ x ∈ ports, x.found = []) (alone : Alone (s.core core.toNat)) (quiet : s.debugOf core.toNat = none) (late : (s.core core.toNat).late = [])
    (rescale : s.rescaleDue core.toNat = none) (held : (s.core core.toNat).held = none) (skid : (s.core core.toNat).skid = some k :: ks)
    (full : ks.length = 3) (row : k.row = []) (breach : k.breach = none)
    (checked : (withCore s core.toNat (issuedRow (s.core core.toNat) ks)).checkStage core.toNat 1 [] = some u) :
    exec (.issueCycle core [] ports) s = done s (u.advance core.toNat [core.toNat]) := by
  have appear : s.appear ports = s :=
    List.foldlRecOn (motive := fun t => t = s) _ _ rfl fun t ht x hx => by rw [ht, found x hx, List.foldl_nil]
  have stalled := State.stalled_due alone late rescale (by rw [Core.slotHeld, held]; rfl) skid
  have filled : s.fillSkid core.toNat [] 4 = some s := by
    rw [State.fillSkid, State.checking_alone alone, if_neg (by simp [skid, full])]
  have due : s.dueRows core.toNat = [(core.toNat, k)] := by
    simp only [State.dueRows, State.issuing_alone alone, List.filterMap_cons, List.filterMap_nil, skid]
  have reads : s.portReads core.toNat = s := by
    simp only [State.portReads, due, List.foldl_cons, List.foldl_nil, row, List.flatMap_nil]
    rfl
  have same : { k with row := k.row.map (withParity (parityAt ports core.toNat)) } = k := by
    rw [row]
    obtain ⟨⟩ := k
    subst row
    rfl
  have popped : (s.members core.toNat).foldl (fun t m => t.modCore m Core.popSkid) (withCore s core.toNat (s.core core.toNat).rowOver) =
      withCore s core.toNat (issuedRow (s.core core.toNat) ks) := by
    rw [State.members_alone alone.inGang (.inr alone.running), List.foldl_cons, List.foldl_nil, State.modCore_withCore, popSkid_rowOver skid]
  have run : exec (.issueCycle core [] ports) s = execIssueCycle core [] ports s := rfl
  rw [run]
  simp only [execIssueCycle, appear, alone.running, ne_eq, not_true_eq_false, if_false, filled, stalled, Bool.false_eq_true, or_self, reads, due,
    List.map_cons, List.map_nil, same, State.issueRows_empty quiet row breach, Bool.not_true, popped, checked, State.issuing_alone alone]

/-- A core in no gang has a row of empty slots due, and another at the row pointer, while nothing stops it: R29. -/
structure RowsEmpty (s : State) (n : Nat) (k : Checked) (ks : List (Option Checked)) (w : Row) : Prop where
  alone : Alone (s.core n)
  weak : (s.pcore n).weak = []
  quiet : s.debugOf n = none
  late : (s.core n).late = []
  rescale : s.rescaleDue n = none
  held : (s.core n).held = none
  skid : (s.core n).skid = some k :: ks
  full : ks.length = 3
  row : k.row = []
  breach : k.breach = none
  fetched : s.fetchRow n = some w
  slots : w.slots = []
  base : (s.core n).mx.base = none

/-- A core after an issue cycle of an empty row, but for what its check stage makes of the next. -/
def rowIssued (s : State) (n : Nat) (ks : List (Option Checked)) (holds : List (Nat × Nat)) : Core :=
  { s.core n with
    skid := ks, wait := 0, quiet := 0, chkOld := (s.core n).chkOld.filter (fun e => now s n + 1 < e.1)
    rowFrom := none, reclaiming := asks (s.core n) holds }

/-- The physical core counts a row that has issued: R53. -/
def rowCounted (s : State) (n : Nat) : State := withPhys s n { s.pcore n with rowCount := (s.pcore n).rowCount + 1 }

/-- A row as the check stage meets it at the row pointer. -/
def rowAt (w : Row) (c : Core) (due : Nat) : Issue :=
  { row := w.slots, pips := w.pips.toNat, tag := w.tag.toNat, fetched := true, due := due, pc := c.pc, bank := c.bank }

namespace RowsEmpty

variable {s : State} {core : CoreId} {ports : List PortFact} {k : Checked} {ks : List (Option Checked)} {w : Row}

theorem checkStage (h : RowsEmpty s core.toNat k ks w) : ∃ due,
    (withCore s core.toNat (issuedRow (s.core core.toNat) ks)).checkStage core.toNat 1 [] =
      let holds := s.rowHolds core.toNat { row := [], pips := w.pips.toNat }
      let z := withCore s core.toNat { issuedRow (s.core core.toNat) ks with reclaiming := asks (s.core core.toNat) holds }
      some (if holds = [] then z.passRow core.toNat (rowAt w (s.core core.toNat) due) none
        else z.stayOn [(core.toNat, rowAt w (s.core core.toNat) due)]) := by
  have same := State.core_withCore s core.toNat (issuedRow (s.core core.toNat) ks)
  have fetched : (withCore s core.toNat (issuedRow (s.core core.toNat) ks)).fetchRow core.toNat = some w := by
    rw [← h.fetched, State.fetchRow, same]
    rfl
  have holds : s.rowHolds core.toNat { row := [], pips := w.pips.toNat } =
      (issuedRow (s.core core.toNat) ks).rowless w.pips.toNat (s.draining core.toNat) :=
    State.rowHolds_empty (State.breaksHit_none h.quiet) rfl
  have held : (issuedRow (s.core core.toNat) ks).held = none := h.held
  have none : (issuedRow (s.core core.toNat) ks).ownHeld = none := by rw [Core.ownHeld, held, Option.bind_none]
  have found : (withCore s core.toNat (issuedRow (s.core core.toNat) ks)).checkRow core.toNat 1 = some (rowAt w (s.core core.toNat)
      ((withCore s core.toNat (issuedRow (s.core core.toNat) ks)).dueAt core.toNat 1)) := by
    simp only [State.checkRow, same, held, fetched, Option.map_some]
    rfl
  have checked := State.checkStage_alone (c := issuedRow (s.core core.toNat) ks) ⟨h.alone.inGang, h.alone.running, h.alone.fetching⟩
    ((State.debugOf_withCore (c := issuedRow (s.core core.toNat) ks) (by rfl)).trans h.quiet) (fun _ => h.weak) found h.slots
  rw [none] at checked
  rw [holds]
  exact ⟨_, checked⟩

/-- The row at the check stage passes, and the cycle's end lands what is due: R27, R29. -/
theorem exec_passes (h : RowsEmpty s core.toNat k ks w) (found : ∀ x ∈ ports, x.found = [])
    (holds : s.rowHolds core.toNat { row := [], pips := w.pips.toNat } = []) {d : Core} (pipe : ∀ q ∈ d.pipe, q.dst.isRib core.toNat = false)
    (land : (withCore (rowCounted s core.toNat) core.toNat (passed (rowIssued s core.toNat ks []) w.pips.toNat w.tag.toNat none)).landDue core.toNat
      (now s core.toNat + 1) (fun p => !p.dst.isRib core.toNat) = withCore (rowCounted s core.toNat) core.toNat d) :
    exec (.issueCycle core [] ports) s = .next (withCore (rowCounted s core.toNat) core.toNat d) := by
  obtain ⟨due, checked⟩ := h.checkStage
  simp only [holds, if_true] at checked
  have passes := State.passRow_empty (s := withCore s core.toNat { issuedRow (s.core core.toNat) ks with reclaiming := asks (s.core core.toNat) [] })
    (h := none) (x := rowAt w (s.core core.toNat) due) h.slots (by rw [State.core_withCore]; rfl) (by rw [State.core_withCore]; rfl)
  rw [State.core_withCore, withCore_withCore] at passes
  rw [passes] at checked
  have advanced := State.advance_alone (s := s) (c := passed { issuedRow (s.core core.toNat) ks with reclaiming := asks (s.core core.toNat) [] }
    w.pips.toNat w.tag.toNat none) ⟨h.alone.inGang, h.alone.running, h.alone.fetching⟩ h.base h.late pipe land
  have run := exec_issueCycle_alone found h.alone h.quiet h.late h.rescale h.held h.skid h.full h.row h.breach checked
  exact run.trans ((congrArg (done s) advanced).trans (done_eq (by rfl)))

/-- The row at the check stage passes, and the one write on its way lands once it is due: R27. -/
theorem exec_passes_single (h : RowsEmpty s core.toNat k ks w) (found : ∀ x ∈ ports, x.found = [])
    (holds : s.rowHolds core.toNat { row := [], pips := w.pips.toNat } = []) {q : Pend} {d : Core} (pipe : (s.core core.toNat).pipe = [q])
    (own : q.dst.isRib core.toNat = false) (empty : d.pipe = [])
    (land : (withCore (rowCounted s core.toNat) core.toNat { passed (rowIssued s core.toNat ks []) w.pips.toNat w.tag.toNat none with pipe := [] }).land
      core.toNat q.dst = withCore (rowCounted s core.toNat) core.toNat d) :
    exec (.issueCycle core [] ports) s = .next (withCore (rowCounted s core.toNat) core.toNat
      (if q.due ≤ now s core.toNat + 1 then d else passed (rowIssued s core.toNat ks []) w.pips.toNat w.tag.toNat none)) := by
  refine h.exec_passes found holds ?_ (State.landDue_single pipe (by rw [own]; rfl) land)
  intro x hx
  split at hx
  · exact absurd (empty ▸ hx) List.not_mem_nil
  · have mem : x ∈ (s.core core.toNat).pipe := hx
    rw [pipe, List.mem_singleton] at mem
    rw [mem, own]

/-- The row at the check stage begins its hold: R39. -/
theorem exec_holds (h : RowsEmpty s core.toNat k ks w) (found : ∀ x ∈ ports, x.found = [])
    (holds : s.rowHolds core.toNat { row := [], pips := w.pips.toNat } ≠ []) (pipe : (s.core core.toNat).pipe = []) :
    ∃ y ∈ s.rowHolds core.toNat { row := [], pips := w.pips.toNat }, (∀ h ∈ s.rowHolds core.toNat { row := [], pips := w.pips.toNat }, y.1 ≤ h.1) ∧
      exec (.issueCycle core [] ports) s = .next (withCore (rowCounted s core.toNat) core.toNat {
        rowIssued s core.toNat ks (s.rowHolds core.toNat { row := [], pips := w.pips.toNat }) with
        skid := ks ++ [none]
        held := some { cause := y.1, detail := y.2, tag := w.tag.toNat, row := [], pips := w.pips.toNat, fetched := true,
                       broke := (s.rowHolds core.toNat { row := [], pips := w.pips.toNat }).any (fun h => h.1 == 0xE) } }) := by
  obtain ⟨due, checked⟩ := h.checkStage
  obtain ⟨y, mem, lowest_eq, le⟩ := lowest_spec holds
  refine ⟨y, mem, le, ?_⟩
  have rowless : s.rowHolds core.toNat { row := [], pips := w.pips.toNat } = (s.core core.toNat).rowless w.pips.toNat (s.draining core.toNat) :=
    State.rowHolds_empty (State.breaksHit_none h.quiet) rfl
  generalize s.rowHolds core.toNat { row := [], pips := w.pips.toNat } = hs at *
  simp only [if_neg holds] at checked
  have stays := State.stayOn_first (s := s) (n := core.toNat) (x := rowAt w (s.core core.toNat) due)
    (c := { issuedRow (s.core core.toNat) ks with reclaiming := asks (s.core core.toNat) hs })
    ((State.debugOf_withCore (by rfl)).trans h.quiet) h.slots h.held
  have held : (rowAt w (s.core core.toNat) due).held ((issuedRow (s.core core.toNat) ks).rowless w.pips.toNat (s.draining core.toNat)) =
      { cause := y.1, detail := y.2, tag := w.tag.toNat, row := [], pips := w.pips.toNat, fetched := true, broke := hs.any (fun h => h.1 == 0xE) } := by
    have same : (issuedRow (s.core core.toNat) ks).rowless w.pips.toNat (s.draining core.toNat) = hs := rowless.symm
    rw [same, Issue.held, lowest_eq, rowAt, h.slots]
    rfl
  have advanced := State.advance_alone (s := s) (n := core.toNat) (c := { issuedRow (s.core core.toNat) ks with
      reclaiming := asks (s.core core.toNat) hs, skid := ks ++ [none],
      held := some ((rowAt w (s.core core.toNat) due).held ((issuedRow (s.core core.toNat) ks).rowless w.pips.toNat (s.draining core.toNat))) })
    ⟨h.alone.inGang, h.alone.running, h.alone.fetching⟩ h.base h.late (by simp only [Core.cycled, issuedRow, pipe]; simp)
    (State.landDue_empty pipe)
  have run := exec_issueCycle_alone found h.alone h.quiet h.late h.rescale h.held h.skid h.full h.row h.breach (checked.trans (congrArg some stays))
  rw [← held]
  exact run.trans ((congrArg (done s) advanced).trans (done_eq (by rfl)))

end RowsEmpty

theorem issueCycles : Claim.IssueCycles := by
  intro s core ports k ks w n c p found weak gang quiet late rescale running fetching held skid full row breach fetched slots base holds u c' next
  have h : RowsEmpty s core.toNat k ks w := ⟨⟨gang, running, fetching⟩, weak, quiet, late, rescale, held, skid, full, row, breach, fetched, slots, base⟩
  refine ⟨fun none => ?_, fun some pipe => h.exec_holds found some pipe⟩
  have same : next = passed (rowIssued s core.toNat ks []) w.pips.toNat w.tag.toNat Option.none :=
    congrArg (fun hs => passed (rowIssued s core.toNat ks hs) w.pips.toNat w.tag.toNat Option.none) none
  rw [same]
  refine ⟨fun pipe => ?_, fun due r v pipe => ?_, fun due r m v pipe => ?_⟩
  · exact h.exec_passes found none (fun q hq => absurd (pipe ▸ hq) List.not_mem_nil) (State.landDue_empty pipe)
  · exact h.exec_passes_single found none (q := ⟨due, .sreg r v⟩) pipe rfl rfl
      (State.modCore_withCore _ _ _ (fun c => { c with s := mset c.s r.toNat v }))
  · exact h.exec_passes_single found none (q := ⟨due, .vreg r m v⟩) pipe rfl rfl
      (State.modCore_withCore _ _ _ (fun c => { c with v := mset c.v r.toNat ((c.readV r &&& ~~~ m) ||| v) }))

/-! ### Held turns -/

/-- A core after a held cycle: R53, R54, R192, R294. -/
def heldCore (s : State) (n : Nat) : Core :=
  { waited s n 1 with turn := some { cause := (s.curCause n).1, detail := (s.curCause n).2, len := turnLen (s.core n) } }

/-- The physical core counts a held cycle, and the turn it begins: R53. -/
def heldCounted (s : State) (n : Nat) : State := withPhys s n { s.pcore n with
  holdCount := (s.pcore n).holdCount + (if (s.core n).turn = none then 1 else 0), holdCycles := (s.pcore n).holdCycles + 1 }

theorem Core.lateNearer_none {c : Core} (h : c.late = []) : c.lateNearer = c := by
  obtain ⟨⟩ := c
  subst h
  rfl

theorem State.countHeld_eq (s : State) (n : Nat) : s.countHeld n = withCore (heldCounted s n) n (heldCore s n) := by
  have act : s.countHeld n = (withCore (withPhys s n { s.pcore n with
      holdCount := if (s.core n).turn.isNone then (s.pcore n).holdCount + 1 else (s.pcore n).holdCount,
      holdCycles := (s.pcore n).holdCycles + 1 }) n (waited s n 1)).modCore n (fun c =>
        { c with turn := some { cause := (s.curCause n).1, detail := (s.curCause n).2, len := (c.turn.elim 0 (fun t => t.len)) + 1 } }) := rfl
  rw [act, State.modCore_withCore, heldCounted]
  cases turn : (s.core n).turn with
  | none => simp only [Option.isNone_none, if_true, heldCore, turnLen, waited, turn]
  | some t => simp only [Option.isNone_some, Bool.false_eq_true, if_false, heldCore, turnLen, waited, turn, reduceCtorEq, Nat.add_zero]

/-- A held cycle of a core in no gang with nothing on its way: R41, R53. -/
theorem State.heldStep_alone {s : State} {n : Nat} (members : s.members n = [n]) (pipe : (s.core n).pipe = []) :
    s.heldStep n = withCore (heldCounted s n) n (heldCore s n) := by
  have empty : (heldCore s n).pipe = [] := pipe
  rw [State.heldStep, members, List.foldl_cons, List.foldl_nil, State.networkPass, State.countHeld_eq, State.landDue_empty empty,
    State.modCore_withCore, empty]
  congr 1
  rw [List.map_nil, ← empty]

/-- A held cycle makes no rescale sequence due: R75. -/
theorem State.rescaleDue_heldCounted {s : State} {n : Nat} {d : Core} (mx : d.mx = (s.core n).mx) (drained : d.drained = (s.core n).drained) :
    (withCore (heldCounted s n) n d).rescaleDue n = s.rescaleDue n := by
  have time : (withCore (heldCounted s n) n d).cycle n = s.cycle n := by
    rw [State.cycle, State.core_withCore, drained, State.pcore_withCore, heldCounted, State.pcore_withPhys]
    rfl
  rw [State.rescaleDue, State.rescaleDue, State.core_withCore, mx, time]

theorem exec_heldTurnEnd_one {s t : State} {core : CoreId} (members : s.members core.toNat = [core.toNat]) (stalled : s.stalled core.toNat = true)
    (pass : s.mayPass core.toNat = true) (held : s.heldCycle core.toNat [] = some t) :
    exec (.heldTurnEnd core { cycles := 1 }) s = done s (if t.stalled core.toNat then t else t.closeTurn core.toNat) := by
  have run : exec (.heldTurnEnd core { cycles := 1 }) s = execHeldTurnEnd core { cycles := 1 } s := rfl
  rw [run, execHeldTurnEnd, if_neg (by simp [members, stalled])]
  simp only [State.heldCycles, stalled, pass, and_self, if_true, held, Option.bind_some]

/-- No late hold is in force or due at a core in no gang: R40, R75. -/
theorem State.mayPass_alone {s : State} {n : Nat} (members : s.members n = [n]) (late : (s.core n).late = []) (rescale : s.rescaleDue n = none) :
    s.mayPass n = true := by
  simp [State.mayPass, members, late, rescale]

theorem State.lateIn_alone {s : State} {n : Nat} (members : s.members n = [n]) (late : (s.core n).late = []) : s.lateIn n = false := by
  simp [State.lateIn, members, late, Core.lateNow]

/-- The member whose cause a turn ends with is the core itself, in no gang: R54. -/
theorem lowest_own (cause pos : Nat) :
    ((lowest (if (cause != 0xD) = true then [(cause, pos)] else [])).getD (0, 0)).2 = if cause = 0xD then 0 else pos := by
  by_cases h : cause = 0xD
  · simp [h, lowest]
  · simp [h, lowest]

/-- A held turn ends as its core's next row is due: R53, R54. -/
theorem State.closeTurn_due {z : State} {n : Nat} {d : Core} {t : Turn} {k : Checked} {ks : List (Option Checked)}
    (members : (withCore z n d).members n = [n]) (turn : d.turn = some t) (skid : d.skid = some k :: ks) : (withCore z n d).closeTurn n =
      withCore z n { turnEnded d (t.cause, t.detail) t.len k.tag with skid := some { k with hold := none } :: ks } := by
  simp only [State.closeTurn, members, List.filter_cons, List.filter_nil, State.core_withCore, turn, Option.isSome_some, if_true, List.map_cons,
    List.map_nil, Option.elim_some, List.foldl_cons, List.foldl_nil, State.modCore_withCore, skid, turnEnded,
    lowest_own]

/-- The held turn of a slot command ends as it acts: R53, R54. -/
theorem State.closeTurn_slot {z : State} {n : Nat} {d : Core} {t : Turn} (members : (withCore z n d).members n = [n]) (turn : d.turn = some t)
    (skid : d.skid = []) (held : d.held = none) :
    (withCore z n d).closeTurn n = withCore z n (turnEnded d (t.cause, t.detail) t.len 0) := by
  simp only [State.closeTurn, members, List.filter_cons, List.filter_nil, State.core_withCore, turn, Option.isSome_some, if_true, List.map_cons,
    List.map_nil, Option.elim_some, List.foldl_cons, List.foldl_nil, State.modCore_withCore, skid, turnEnded, held,
    lowest_own, Option.elim_none]

/-- A core in no gang holds a row of empty slots at its check stage, with nothing due to issue: R39. -/
structure RowHeld (s : State) (n : Nat) (h : Held) (ks : List (Option Checked)) : Prop where
  alone : Alone (s.core n)
  quiet : s.debugOf n = none
  late : (s.core n).late = []
  rescale : s.rescaleDue n = none
  held : (s.core n).held = some h
  fetched : h.fetched = true
  row : h.row = []
  skid : (s.core n).skid = none :: ks
  full : ks.length = 3
  pipe : (s.core n).pipe = []

/-- A core with these rows past its check stage. -/
def atCheck (c : Core) (ks : List (Option Checked)) : Core := { c with skid := ks }

/-- A core as its check stage goes on in a held cycle, once it has found these conditions. -/
def rechecked (c : Core) (ks : List (Option Checked)) (holds : List (Nat × Nat)) : Core := { c with skid := ks, reclaiming := asks c holds }

/-- A core whose held row has been checked again: R39. -/
def heldOn (c : Core) (h : Held) (ks : List (Option Checked)) (holds : List (Nat × Nat)) : Core :=
  if holds = [] then passed (rechecked c ks holds) h.pips h.tag (if h.cause = 0xD then none else some (h.cause, h.detail))
  else { rechecked c ks holds with skid := ks ++ [none], held := some (h.again holds) }

/-- The held row as the check stage meets it. -/
def rowAgain (h : Held) (c : Core) (due : Nat) : Issue :=
  { row := h.row, pips := h.pips, tag := h.tag, fetched := true, due := due, pc := c.pc, bank := c.bank }

/-- A held row of empty slots is checked again, and passes or stays: R39. -/
theorem State.checkStage_held {s : State} {n : Nat} {c : Core} {h : Held} {ks : List (Option Checked)} (alone : Alone c)
    (quiet : ∀ d : Core, d.task = c.task → (withCore s n d).debugOf n = none) (held : c.held = some h) (row : h.row = []) :
    (withCore s n (atCheck c ks)).checkStage n 0 [] = some (withCore s n (heldOn c h ks (c.rowless h.pips (s.draining n)))) := by
  have same := State.core_withCore s n (atCheck c ks)
  have found : (withCore s n (atCheck c ks)).checkRow n 0 = some (rowAgain h c ((withCore s n (atCheck c ks)).dueAt n 0)) := by
    have still : (atCheck c ks).held = some h := held
    simp only [State.checkRow, same, still]
    rfl
  generalize (withCore s n (atCheck c ks)).dueAt n 0 = due at found
  have checked := State.checkStage_alone (s := s) (c := atCheck c ks) ⟨alone.inGang, alone.running, alone.fetching⟩ (quiet _ rfl)
    (fun none => absurd (held.symm.trans none) (by simp)) found row
  have own : (atCheck c ks).ownHeld = if h.cause = 0xD then none else some (h.cause, h.detail) := by
    have still : (atCheck c ks).held = some h := held
    simp only [Core.ownHeld, still, Option.bind_some]
  have passes := State.passRow_empty (s := withCore s n (rechecked c ks (c.rowless h.pips (s.draining n)))) (x := rowAgain h c due)
    (h := (atCheck c ks).ownHeld) row (by rw [State.core_withCore]; rfl) (by rw [State.core_withCore]; rfl)
  rw [State.core_withCore, withCore_withCore, own] at passes
  have stays := State.stayOn_again (s := s) (x := rowAgain h c due) (c := rechecked c ks (c.rowless h.pips (s.draining n))) (h := h) (quiet _ rfl) row held
  refine checked.trans (congrArg some ?_)
  rw [heldOn]
  by_cases holds : c.rowless h.pips (s.draining n) = []
  · rw [if_pos holds]
    refine (if_pos holds).trans ?_
    rw [own]
    exact passes
  · rw [if_neg holds]
    exact (if_neg holds).trans stays

theorem heldOn_frame (c : Core) (h : Held) (ks : List (Option Checked)) (holds : List (Nat × Nat)) :
    (heldOn c h ks holds).inGang = c.inGang ∧ (heldOn c h ks holds).phase = c.phase ∧ (heldOn c h ks holds).late = c.late ∧
    (heldOn c h ks holds).turn = c.turn ∧ (heldOn c h ks holds).mx = c.mx ∧ (heldOn c h ks holds).drained = c.drained := by
  rw [heldOn]
  split
  · exact ⟨rfl, rfl, rfl, rfl, rfl, rfl⟩
  · exact ⟨rfl, rfl, rfl, rfl, rfl, rfl⟩

/-- The row at the check stage takes the last place, or none: R29, R39. -/
theorem heldOn_skid (c : Core) (h : Held) (ks : List (Option Checked)) (holds : List (Nat × Nat)) : ∃ a, (heldOn c h ks holds).skid = ks ++ [a] := by
  rw [heldOn]
  split
  · exact ⟨_, rfl⟩
  · exact ⟨_, rfl⟩

theorem Held.again_fetched (h : Held) (hs : List (Nat × Nat)) : (h.again hs).fetched = h.fetched := by
  unfold Held.again
  split
  · split <;> rfl
  · rfl

theorem heldOn_slotHeld {c : Core} {h : Held} {ks : List (Option Checked)} {holds : List (Nat × Nat)} (fetched : h.fetched = true) :
    (heldOn c h ks holds).slotHeld = false := by
  rw [heldOn]
  split
  · rfl
  · simp [Core.slotHeld, Held.again_fetched, fetched]

namespace RowHeld

variable {s : State} {n : Nat} {h : Held} {ks : List (Option Checked)}

theorem members (x : RowHeld s n h ks) : s.members n = [n] := State.members_alone x.alone.inGang (.inr x.alone.running)

theorem stalled (x : RowHeld s n h ks) : s.stalled n = true := by
  simp [State.stalled, x.members, x.skid, Core.rowDue]

theorem heldCore_alone (x : RowHeld s n h ks) : Alone (heldCore s n) := ⟨x.alone.inGang, x.alone.running, x.alone.fetching⟩

theorem heldCore_held (x : RowHeld s n h ks) : (heldCore s n).held = some h := x.held

theorem heldCore_late (x : RowHeld s n h ks) : (heldCore s n).late = [] := x.late

theorem rowHolds (x : RowHeld s n h ks) :
    s.rowHolds n { row := [], pips := h.pips } = (heldCore s n).rowless h.pips ((heldCounted s n).draining n) :=
  State.rowHolds_empty (State.breaksHit_none x.quiet) rfl

theorem heldOn_late (x : RowHeld s n h ks) (holds : List (Nat × Nat)) : (heldOn (heldCore s n) h ks holds).late = [] := by
  obtain ⟨-, -, late, -⟩ := heldOn_frame (heldCore s n) h ks holds
  exact late.trans x.heldCore_late

theorem heldCycle (x : RowHeld s n h ks) : s.heldCycle n [] =
    some (withCore (heldCounted s n) n (heldOn (heldCore s n) h ks (s.rowHolds n { row := [], pips := h.pips }))) := by
  have step := State.heldStep_alone x.members x.pipe
  have same : (withCore (heldCounted s n) n (heldCore s n)).core n = heldCore s n := State.core_withCore _ _ _
  have late : (withCore (heldCounted s n) n (heldCore s n)).lateIn n = false :=
    State.lateIn_alone (State.members_alone (by rw [same]; exact x.alone.inGang) (.inr (by rw [same]; exact x.alone.running)))
      (by rw [same]; exact x.late)
  have slotHeld : (heldCore s n).slotHeld = false := by simp [Core.slotHeld, x.heldCore_held, x.fetched]
  have popped : (heldCore s n).popSkid = atCheck (heldCore s n) ks := by
    have skid : (heldCore s n).skid = none :: ks := x.skid
    rw [Core.popSkid, skid, List.drop_succ_cons, List.drop_zero, atCheck]
  have checked := State.checkStage_held (s := heldCounted s n) (ks := ks) x.heldCore_alone
    (fun d task => (State.debugOf_withCore (s := heldCounted s n) (by exact task)).trans x.quiet) x.heldCore_held x.row
  rw [← x.rowHolds] at checked
  have nearer := Core.lateNearer_none (x.heldOn_late (s.rowHolds n { row := [], pips := h.pips }))
  simp only [State.heldCycle, x.members, step, late, List.any_cons, List.any_nil, same, slotHeld, Bool.or_false, Bool.false_eq_true, if_false,
    List.foldl_cons, List.foldl_nil, State.modCore_withCore, popped, checked, Option.map_some, nearer]

theorem rescaleDue (x : RowHeld s n h ks) (holds : List (Nat × Nat)) :
    (withCore (heldCounted s n) n (heldOn (heldCore s n) h ks holds)).rescaleDue n = none := by
  obtain ⟨-, -, -, -, mx, drained⟩ := heldOn_frame (heldCore s n) h ks holds
  exact (State.rescaleDue_heldCounted mx drained).trans x.rescale

theorem members_after (x : RowHeld s n h ks) (holds : List (Nat × Nat)) :
    (withCore (heldCounted s n) n (heldOn (heldCore s n) h ks holds)).members n = [n] := by
  obtain ⟨inGang, phase, -⟩ := heldOn_frame (heldCore s n) h ks holds
  refine State.members_alone ?_ (.inr ?_)
  · rw [State.core_withCore, inGang, x.heldCore_alone.inGang]
  · rw [State.core_withCore, phase, x.heldCore_alone.running]

/-- After the held cycle the core is stalled until a row is due again: R39. -/
theorem stalled_after (x : RowHeld s n h ks) (holds : List (Nat × Nat)) :
    (withCore (heldCounted s n) n (heldOn (heldCore s n) h ks holds)).stalled n = !(heldOn (heldCore s n) h ks holds).rowDue := by
  obtain ⟨a, skid⟩ := heldOn_skid (heldCore s n) h ks holds
  have lateNow : (heldOn (heldCore s n) h ks holds).lateNow = none := by rw [Core.lateNow, x.heldOn_late, List.find?_nil]
  simp [State.stalled, x.members_after, lateNow, heldOn_slotHeld x.fetched, x.rescaleDue, skid]

/-- The held cycle leaves the turn open, or ends it with the row that is due: R39, R53. -/
def after (s : State) (n : Nat) (h : Held) (ks : List (Option Checked)) (holds : List (Nat × Nat)) : State :=
  if (heldOn (heldCore s n) h ks holds).rowDue then (withCore (heldCounted s n) n (heldOn (heldCore s n) h ks holds)).closeTurn n
  else withCore (heldCounted s n) n (heldOn (heldCore s n) h ks holds)

theorem exec_heldTurnEnd {core : CoreId} (x : RowHeld s core.toNat h ks) :
    exec (.heldTurnEnd core { cycles := 1 }) s = .next (after s core.toNat h ks (s.rowHolds core.toNat { row := [], pips := h.pips })) := by
  rw [exec_heldTurnEnd_one x.members x.stalled (State.mayPass_alone x.members x.late x.rescale) x.heldCycle, x.stalled_after]
  generalize s.rowHolds core.toNat { row := [], pips := h.pips } = holds
  rw [after]
  cases due : (heldOn (heldCore s core.toNat) h ks holds).rowDue with
  | true =>
    rw [if_neg (by decide), if_pos rfl, done_eq]
    exact List.foldlRecOn (motive := fun u : State => u.pending = s.pending) _ _ rfl (fun _ h _ _ => h)
  | false =>
    rw [if_pos (by decide), if_neg (by decide), done_eq]
    rfl

theorem after_none (holds : List (Nat × Nat)) (head : ks.head? = some none) :
    after s n h ks holds = withCore (heldCounted s n) n (heldOn (heldCore s n) h ks holds) := by
  obtain ⟨a, skid⟩ := heldOn_skid (heldCore s n) h ks holds
  obtain ⟨ks', rfl⟩ := List.head?_eq_some_iff.1 head
  rw [after, if_neg]
  simp [Core.rowDue, skid]

theorem after_due (x : RowHeld s n h ks) (holds : List (Nat × Nat)) {k : Checked} (head : ks.head? = some (some k)) :
    after s n h ks holds = withCore (heldCounted s n) n { turnEnded (heldOn (heldCore s n) h ks holds) (s.curCause n) (turnLen (s.core n)) k.tag with
      skid := some { k with hold := none } :: (heldOn (heldCore s n) h ks holds).skid.drop 1 } := by
  obtain ⟨a, skid⟩ := heldOn_skid (heldCore s n) h ks holds
  obtain ⟨-, -, -, turn, -⟩ := heldOn_frame (heldCore s n) h ks holds
  obtain ⟨ks', rfl⟩ := List.head?_eq_some_iff.1 head
  have due : (heldOn (heldCore s n) h (some k :: ks') holds).rowDue = true := by simp [Core.rowDue, skid]
  have dropped : (heldOn (heldCore s n) h (some k :: ks') holds).skid.drop 1 = ks' ++ [a] := by rw [skid]; rfl
  rw [after, if_pos due, dropped]
  exact State.closeTurn_due (x.members_after holds) turn skid

end RowHeld

theorem rechecked_heldCore (s : State) (n : Nat) (ks : List (Option Checked)) (holds : List (Nat × Nat)) :
    rechecked (heldCore s n) ks holds = { waited s n 1 with
      skid := ks, turn := some { cause := (s.curCause n).1, detail := (s.curCause n).2, len := turnLen (s.core n) },
      reclaiming := asks (s.core n) holds } := rfl

theorem heldCycles : Claim.HeldCycles := by
  intro s core h ks n c p gang quiet late rescale running fetching held fetched row skid full pipe holds cause u c'
  have x : RowHeld s core.toNat h ks := ⟨⟨gang, running, fetching⟩, quiet, late, rescale, held, fetched, row, skid, full, pipe⟩
  have same : rechecked (heldCore s core.toNat) ks holds = c' := rechecked_heldCore s core.toNat ks holds
  have run := x.exec_heldTurnEnd
  refine ⟨heldOn (heldCore s core.toNat) h ks holds, fun none => ?_, fun some => ?_, fun head => ?_, fun k head => ?_⟩
  · rw [heldOn, if_pos none, same]
  · obtain ⟨y, mem, lowest_eq, le⟩ := lowest_spec some
    refine ⟨y, mem, le, ?_⟩
    have again : h.again holds = heldAgain h y (holds.any (fun z => z.1 == 0xE)) := by
      rw [Held.again, lowest_eq]
      rfl
    rw [heldOn, if_neg some, same, again]
  · rw [RowHeld.after_none _ head] at run
    exact run
  · rw [x.after_due _ head] at run
    exact run

/-! ### A held tally slot goes on -/

/-- A tally slot that may be held on its own: R176. -/
def waitsOrTakes (i : Instr) (x : CSlot) : Prop := i = .tallyTake x ∨ i = .tallyWait x

theorem State.tallyClear_congr {s t : State} {n : Nat} {i : Instr} (held : (t.core n).held = (s.core n).held)
    (req : (t.core n).tallyReq i = (s.core n).tallyReq i) (tally : ∀ o k, t.tally o k = s.tally o k) : t.tallyClear n i = s.tallyClear n i := by
  simp only [State.tallyClear, held, req, tally]

theorem State.slotHolds_tally {s : State} {n : Nat} {i : Instr} {x : CSlot} (h : waitsOrTakes i x) :
    s.slotHolds n i = [] ↔ s.tallyClear n i = true := by
  rcases h with rfl | rfl
  · simp [State.slotHolds, State.touches]
  · simp [State.slotHolds, State.touches]

theorem State.rowFull_tally {s : State} {n : Nat} {i : Instr} {x : CSlot} (h : waitsOrTakes i x) : s.rowFull n [i] = [] := by
  rcases h with rfl | rfl
  · rfl
  · rfl

/-- A held slot command meets no condition where its slot meets none and neither does the core itself: R38. -/
theorem State.rowHolds_slotHeld {s : State} {n : Nat} {i : Instr} {x : Issue} (row : x.row = [i]) (fetched : x.fetched = false) :
    s.rowHolds n x = [] ↔ s.slotHolds n i = [] ∧ s.rowFull n [i] = [] ∧ (s.core n).rowless x.pips (s.draining n) = [] := by
  rw [State.rowHolds_unbroken (State.breaksHit_unfetched fetched), row, List.flatMap_cons, List.flatMap_nil, List.append_nil, List.append_eq_nil_iff,
    List.append_eq_nil_iff, and_assoc]

theorem State.slotBreach_tally {s : State} {n : Nat} {i : Instr} {x : CSlot} (h : waitsOrTakes i x) : s.slotBreach n i = none := by
  have cable : (s.core n).cableBreach i = false := by
    unfold Core.cableBreach
    split
    · rfl
    · rcases h with rfl | rfl
      · simp [opM, Instr.vslot, opV]
      · simp [opM, Instr.vslot, opV]
  rcases h with rfl | rfl
  · simp [State.slotBreach, State.checkBreach, State.issueBreach, cable]
  · simp [State.slotBreach, State.checkBreach, State.issueBreach, cable]

/-- A held tally slot changes nothing as it goes on: its release or grant has done so (R177). -/
theorem State.passSlot_held {s : State} {i : Instr} {x : CSlot} (h : waitsOrTakes i x) {w : Held} (held : (s.core x.core.toNat).held = some w) :
    s.passSlot i = s := by
  rcases h with rfl | rfl
  · simp only [State.passSlot, actTallyTake, CSlot.satisfied, held]
  · simp only [State.passSlot, actTallyWait, CSlot.satisfied, held]

theorem actSlot_tally {s : State} {i : Instr} {x : CSlot} (h : waitsOrTakes i x) (rs : List Nat) : actSlot s (i, rs) = s := by
  rcases h with rfl | rfl
  · rfl
  · rfl

theorem State.portSpans_tally {s : State} {n : Nat} {i : Instr} {x : CSlot} (h : waitsOrTakes i x) : s.portSpans n i = [] := by
  rcases h with rfl | rfl
  · rfl
  · rfl

theorem State.deliverRanges_tally {s : State} {n : Nat} {i : Instr} {x : CSlot} (h : waitsOrTakes i x) : s.deliverRanges n i = [] := by
  rcases h with rfl | rfl
  · rfl
  · rfl

/-- A slot command that is held alone and meets no condition goes on: R39. -/
theorem State.slotCycle_tally {s : State} {n : Nat} {c : Core} {h : Held} {i : Instr} {x : CSlot} (slot : waitsOrTakes i x) (own : x.core.toNat = n)
    (members : (withCore s n c).members n = [n]) (held : c.held = some h) (fetched : h.fetched = false) (row : h.row = [i])
    (holds : (withCore s n c).rowHolds n { row := h.row, pips := h.pips, tag := h.tag } = []) :
    (withCore s n c).slotCycle n = withCore s n { c with reclaiming := asks c [], held := none } := by
  have same : (withCore s n c).core n = c := State.core_withCore s n c
  have asked : (withCore s n c).askPips n [] = withCore s n { c with reclaiming := asks c [] } := State.askPips_withCore s n c []
  have pass : (withCore s n { c with reclaiming := asks c [] }).passSlot i = withCore s n { c with reclaiming := asks c [] } :=
    State.passSlot_held slot (by rw [own, State.core_withCore]; exact held)
  rw [row] at holds
  have rows : [n].filterMap (fun m => ((withCore s n c).core m).held.bind (fun h =>
      if h.fetched then none else some (m, ({ row := h.row, pips := h.pips, tag := h.tag } : Issue)))) =
      [(n, { row := h.row, pips := h.pips, tag := h.tag })] := by simp [same, held, fetched]
  simp only [State.slotCycle, members, rows, List.map_cons, List.map_nil, holds, List.any_cons, List.any_nil, List.isEmpty_nil, Bool.not_true,
    Bool.or_false, Bool.false_eq_true, if_false, List.foldl_cons, List.foldl_nil, asked, row, List.findSome?_cons, List.findSome?_nil,
    State.slotBreach_tally slot, Option.map_none, pass, State.deliverRanges_tally slot, List.zip_cons_cons, List.zip_nil_left,
    State.modCore_withCore, List.flatMap_cons, List.flatMap_nil, State.portSpans_tally slot, List.append_nil, actSlot_tally slot]
  exact State.modCore_withCore s n { c with reclaiming := asks c [] } (fun c => { c with held := none })

/-- A core in no gang holds a tally slot that stands alone, and its condition has come: R39, R177. -/
structure SlotHeld (s : State) (n : Nat) (h : Held) (i : Instr) (x : CSlot) : Prop where
  inGang : (s.core n).inGang = false
  late : (s.core n).late = []
  rescale : s.rescaleDue n = none
  phase : (s.core n).phase = .idle ∨ (s.core n).phase = .running
  held : (s.core n).held = some h
  fetched : h.fetched = false
  slot : waitsOrTakes i x
  row : h.row = [i]
  own : x.core.toNat = n
  skid : (s.core n).skid = []
  pipe : (s.core n).pipe = []
  holds : s.rowHolds n { row := h.row, pips := h.pips } = []

/-- The core once its slot has gone on, its turn still open. -/
def slotPassed (c : Core) : Core := { c with reclaiming := asks c [], held := none }

namespace SlotHeld

variable {s : State} {n : Nat} {h : Held} {i : Instr} {x : CSlot}

theorem members (w : SlotHeld s n h i x) : s.members n = [n] := State.members_alone w.inGang w.phase

theorem stalled (w : SlotHeld s n h i x) : s.stalled n = true := by
  simp [State.stalled, w.members, Core.slotHeld, w.held, w.fetched]

theorem heldCore_held (w : SlotHeld s n h i x) : (heldCore s n).held = some h := w.held

/-- A held cycle changes nothing that the slot waits for: R41. -/
theorem holds_again (w : SlotHeld s n h i x) :
    (withCore (heldCounted s n) n (heldCore s n)).rowHolds n { row := h.row, pips := h.pips, tag := h.tag } = [] := by
  obtain ⟨slots, -, own⟩ := (State.rowHolds_slotHeld w.row rfl).1 w.holds
  have same := State.core_withCore (heldCounted s n) n (heldCore s n)
  have tally (o k : Nat) : (withCore (heldCounted s n) n (heldCore s n)).tally o k = s.tally o k := by
    rw [State.tally, State.tally]
    by_cases e : o = n
    · rw [e, same]
      rfl
    · rw [State.core_withCore_ne _ _ e]
      rfl
  have req : (heldCore s n).tallyReq i = (s.core n).tallyReq i := by
    rcases w.slot with e | e
    · rw [e]
      rfl
    · rw [e]
      rfl
  refine (State.rowHolds_slotHeld w.row rfl).2 ⟨?_, State.rowFull_tally w.slot, ?_⟩
  · rw [State.slotHolds_tally w.slot] at slots ⊢
    rw [State.tallyClear_congr (s := s) (by rw [same]; rfl) (by rw [same, req]) tally]
    exact slots
  · rw [same]
    exact own

theorem heldCycle (w : SlotHeld s n h i x) : s.heldCycle n [] = some (withCore (heldCounted s n) n (slotPassed (heldCore s n))) := by
  have same : (withCore (heldCounted s n) n (heldCore s n)).core n = heldCore s n := State.core_withCore _ _ _
  have members : (withCore (heldCounted s n) n (heldCore s n)).members n = [n] :=
    State.members_alone (by rw [same]; exact w.inGang) (by rw [same]; exact w.phase)
  have late : (withCore (heldCounted s n) n (heldCore s n)).lateIn n = false := State.lateIn_alone members (by rw [same]; exact w.late)
  have slotHeld : (heldCore s n).slotHeld = true := by simp [Core.slotHeld, w.heldCore_held, w.fetched]
  have cycle := State.slotCycle_tally w.slot w.own members w.heldCore_held w.fetched w.row w.holds_again
  simp only [State.heldCycle, w.members, State.heldStep_alone w.members w.pipe, late, List.any_cons, List.any_nil, same, slotHeld, Bool.or_false,
    Bool.false_eq_true, if_false, if_true, cycle, slotPassed]

theorem members_after (w : SlotHeld s n h i x) : (withCore (heldCounted s n) n (slotPassed (heldCore s n))).members n = [n] :=
  State.members_alone (by rw [State.core_withCore]; exact w.inGang) (by rw [State.core_withCore]; exact w.phase)

theorem stalled_after (w : SlotHeld s n h i x) : (withCore (heldCounted s n) n (slotPassed (heldCore s n))).stalled n = false := by
  have lateNow : (slotPassed (heldCore s n)).lateNow = none := by
    have late : (slotPassed (heldCore s n)).late = [] := w.late
    rw [Core.lateNow, late, List.find?_nil]
  have skid : (slotPassed (heldCore s n)).skid = [] := w.skid
  have slotHeld : (slotPassed (heldCore s n)).slotHeld = false := rfl
  have rescale : (withCore (heldCounted s n) n (slotPassed (heldCore s n))).rescaleDue n = none :=
    (State.rescaleDue_heldCounted (d := slotPassed (heldCore s n)) rfl rfl).trans w.rescale
  simp [State.stalled, w.members_after, lateNow, skid, slotHeld, rescale]

theorem exec_heldTurnEnd {core : CoreId} (w : SlotHeld s core.toNat h i x) :
    exec (.heldTurnEnd core { cycles := 1 }) s = .next (withCore (heldCounted s core.toNat) core.toNat
      { turnEnded (waited s core.toNat 1) (s.curCause core.toNat) (turnLen (s.core core.toNat)) 0 with
        held := none, reclaiming := asks (s.core core.toNat) [] }) := by
  have closed := State.closeTurn_slot w.members_after
    (t := { cause := (s.curCause core.toNat).1, detail := (s.curCause core.toNat).2, len := turnLen (s.core core.toNat) }) (by rfl) w.skid rfl
  rw [exec_heldTurnEnd_one w.members w.stalled (State.mayPass_alone w.members w.late w.rescale) w.heldCycle, w.stalled_after, if_neg (by decide), closed]
  exact done_eq rfl

end SlotHeld

theorem slotTurnEnds : Claim.SlotTurnEnds := by
  intro s core h x n c p gang late rescale phase held fetched row own skid pipe holds u
  rcases row with row | row
  · exact SlotHeld.exec_heldTurnEnd (i := .tallyTake x) (x := x)
      ⟨gang, late, rescale, phase, held, fetched, .inl rfl, row, congrArg BitVec.toNat own, skid, pipe, holds⟩
  · exact SlotHeld.exec_heldTurnEnd (i := .tallyWait x) (x := x)
      ⟨gang, late, rescale, phase, held, fetched, .inr rfl, row, congrArg BitVec.toNat own, skid, pipe, holds⟩

/-! ### Cycles without a row -/

theorem State.pending_appear (s : State) (ports : List PortFact) : (s.appear ports).pending = s.pending :=
  List.foldlRecOn (motive := fun t : State => t.pending = s.pending) _ _ rfl fun _ ht x _ =>
    List.foldlRecOn (motive := fun t : State => t.pending = s.pending) x.found _ ht fun _ hu _ _ => hu

theorem HeldFrame.issuing {s t : State} (h : HeldFrame s t) (n : Nat) : t.issuing n = s.issuing n := by
  have phase : ∀ m, (t.core m).phase = (s.core m).phase := fun m => congrArg Prod.fst (h.stance m)
  simp only [State.issuing, h.gang, phase]

/-- A core after cycles without a row, but for its counts of quiet and waiting ones: R190. -/
def Core.drainedBy (c : Core) (cycles : Nat) : Core := { c with drained := c.drained + cycles }

/-- Nothing of a core is on its way, and nothing will stop its pipelines: R190. -/
structure Core.Still (c : Core) : Prop where
  pipe : c.pipe = []
  late : c.late = []
  rescales : ∀ w ∈ c.mx.work, w.rescales = []
  base : c.mx.base = none

theorem Core.Still.drainedBy {c : Core} (h : c.Still) (k : Nat) : (c.drainedBy k).Still := ⟨h.pipe, h.late, h.rescales, h.base⟩

theorem State.countDrained_still {s : State} {n : Nat} {c : Core} (h : c.Still) (k : Nat) :
    (withCore s n c).countDrained n k = withCore s n (c.drainedBy k) := by
  rw [State.countDrained, State.modCore_withCore, h.late, Core.drainedBy, List.map_nil, ← h.late]

theorem State.drainCycle_still {s : State} {n : Nat} {c : Core} (h : c.Still) :
    (withCore s n c).drainCycle n = withCore s n (c.drainedBy 1) := by
  have none : (withCore s n c).resettle n ((withCore s n c).cycle n) = withCore s n c := State.resettle_none (by rw [State.core_withCore, h.base])
  have pipe : (c.drainedBy 1).pipe = [] := h.pipe
  simp only [State.drainCycle, none, State.countDrained_still h, State.core_withCore, pipe, List.length_nil, State.landTo]

theorem State.drainCycles_still {s : State} {n : Nat} {c : Core} (h : c.Still) (j : Nat) :
    (List.range j).foldl (fun u _ => u.drainCycle n) (withCore s n c) = withCore s n (c.drainedBy j) := by
  induction j with
  | zero => rfl
  | succ j ih =>
    rw [List.range_succ, List.foldl_append, ih, List.foldl_cons, List.foldl_nil, State.drainCycle_still (h.drainedBy j)]
    rfl

/-- Cycles pass at a core of which nothing is on its way: R190. -/
theorem State.drainPass_still {s : State} {n : Nat} {c : Core} (h : c.Still) (cycles : Nat) :
    (withCore s n c).drainPass n cycles = withCore s n (c.drainedBy cycles) := by
  have free : c.mx.work.filterMap (fun w => w.rescales.head?) = [] :=
    List.filterMap_eq_nil_iff.2 fun w hw => by rw [h.rescales w hw, List.head?_nil]
  have all : (withCore s n c).unhindered n cycles = cycles := by
    rw [State.unhindered, State.core_withCore, free, h.late]
    rfl
  simp only [State.drainPass, all]
  generalize short : min cycles _ = j
  have le : j ≤ cycles := short ▸ Nat.min_le_left _ _
  rw [State.drainCycles_still h, State.countDrained_still (h.drainedBy j)]
  simp only [Core.drainedBy]
  rw [Nat.add_assoc, Nat.add_sub_cancel' le]

/-- Cycles pass at a core that issues no row and of which nothing is on its way: R190, R192, R294. -/
theorem State.idlePass_still {s : State} {n : Nat} (h : (s.core n).Still) (cycles : Nat) : s.idlePass n cycles = withCore s n { waited s n cycles with
    drained := if s.issuing n = [] then (s.core n).drained + cycles else (s.core n).drained } := by
  have counted : s.countQuiet n cycles = withCore s n (waited s n cycles) := rfl
  have frame : HeldFrame s (withCore s n (waited s n cycles)) := by
    refine ⟨rfl, fun m => ?_⟩
    by_cases e : m = n
    · rw [e, State.core_withCore]
      rfl
    · rw [State.core_withCore_ne s _ e]
  have still : (waited s n cycles).Still := ⟨h.pipe, h.late, h.rescales, h.base⟩
  simp only [State.idlePass, counted, frame.issuing, List.isEmpty_iff, State.drainPass_still still]
  by_cases none : s.issuing n = []
  · simp only [none, if_true]
    rfl
  · simp only [none, if_false]
    rfl

theorem idleCycles : Claim.IdleCycles := by
  intro s core n c
  refine ⟨fun phase fetch ports => ?_, fun phase free pipe late rescales base held => ?_⟩
  · have run : exec (.issueCycle core fetch ports) s = execIssueCycle core fetch ports s := rfl
    rw [run, execIssueCycle, if_pos phase, done_eq (s.pending_appear ports)]
  · have idle : (!(s.members core.toNat).contains core.toNat) = true ∨ (s.core core.toNat).phase ≠ .running ∧ (!s.stalled core.toNat) = true := by
      refine free.imp (fun h => ?_) (fun h => ⟨phase, ?_⟩)
      · simpa using h
      · rw [h, Bool.not_false]
    have run : exec (.heldTurnEnd core held) s = execHeldTurnEnd core held s := rfl
    rw [run, execHeldTurnEnd, if_pos idle, State.idlePass_still ⟨pipe, late, rescales, base⟩]
    exact done_eq rfl

/-- Settles O31: each kind of cycle is one change of its core, found once for a core in no gang whose rows have empty slots. -/
theorem issueTurns : Obligations.IssueTurns := ⟨issueCycles, heldCycles, slotTurnEnds, idleCycles⟩

end Sys2Proof.Machine
end

section
/-!
PROOFS. The engine's rounding and its PB64 sum (R58, R66), and the results of a pass (R58, R77, R446).
-/

namespace Sys2Proof.Machine

open Claim

/-! ### Rounding -/

/-- A number m moved down by s > 0 binary places is within half a unit of the exact quotient, and even where it is half a unit away: R58. -/
theorem rneShift_near (m : Nat) {s : Nat} (hs : 0 < s) : |2 * ((rneShift m s : Int) * 2 ^ s - m)| < 2 ^ s ∨
    (|2 * ((rneShift m s : Int) * 2 ^ s - m)| = 2 ^ s ∧ (rneShift m s : Int) % 2 = 0) := by
  have whole : m = 2 ^ s * (m / 2 ^ s) + m % 2 ^ s := (Nat.div_add_mod m (2 ^ s)).symm
  have rest : m % 2 ^ s < 2 ^ s := Nat.mod_lt _ (by positivity)
  have unit : (2 ^ s : Int) = (2 ^ s : Nat) := by norm_cast
  have up : ((m / 2 ^ s + 1 : Nat) : Int) * (2 ^ s : Nat) - m = (2 ^ s : Nat) - (m % 2 ^ s : Nat) := by
    nth_rw 2 [whole]
    push_cast
    ring
  have down : ((m / 2 ^ s : Nat) : Int) * (2 ^ s : Nat) - m = -(m % 2 ^ s : Nat) := by
    nth_rw 2 [whole]
    push_cast
    ring
  rw [rneShift, Nat.shiftRight_eq_div_pow, if_neg hs.ne', unit]
  split_ifs with less more
  · left
    rw [down, abs_lt]
    omega
  · left
    rw [up, abs_lt]
    omega
  · right
    rcases Nat.mod_two_eq_zero_or_one (m / 2 ^ s) with even | odd
    · rw [even, add_zero, down, abs_eq (by omega)]
      omega
    · rw [odd, up, abs_eq (by omega)]
      omega

/-- Rounding to nearest with ties to even treats both signs alike: R58. -/
theorem nearest_neg {v d q : Int} (h : nearest v d q) : nearest (-v) d (-q) := by
  have mirrored : 2 * (-q * 2 ^ (-d).toNat - -v) = -(2 * (q * 2 ^ (-d).toNat - v)) := by ring
  unfold nearest at h ⊢
  rw [mirrored, abs_neg]
  split at h
  · rw [if_pos ‹_›, h, neg_mul]
  · rw [if_neg ‹_›]
    omega

/-- The rounding of a magnitude: R58. -/
theorem nearest_rhe_magnitude (m : Nat) (d : Int) : nearest m d (rhe false m d) := by
  rw [nearest, rhe]
  by_cases h : 0 ≤ d
  · simp [h]
  · simp only [ge_iff_le, h, if_false, Bool.false_eq_true]
    exact rneShift_near m (by omega)

theorem rhe_neg (m : Nat) (d : Int) : rhe true m d = -rhe false m d := rfl

theorem roundHalfEven : Claim.RoundHalfEven := by
  intro v d
  have magnitude := nearest_rhe_magnitude v.natAbs d
  by_cases h : v < 0
  · have mirrored := nearest_neg magnitude
    rw [show -(v.natAbs : Int) = v by omega] at mirrored
    rwa [rheInt, decide_eq_true h, rhe_neg]
  · rw [show (v.natAbs : Int) = v by omega] at magnitude
    rwa [rheInt, decide_eq_false h]

theorem pb64Sum : Claim.Pb64Sum := by
  intro v e a ea
  refine ⟨_, _, roundHalfEven v _, roundHalfEven a _, fun fits => if_pos fits, fun wide => ⟨_, roundHalfEven _ _, if_neg wide⟩⟩

/-- Settles O12: `rheInt` rounds to nearest even (`roundHalfEven`), and each step of the PB64 sum is one `rheInt`. -/
theorem engineRounding : Obligations.EngineRounding := ⟨roundHalfEven, pb64Sum⟩

/-! ### Pass results -/

theorem length_unpackElems (fmt w count : Nat) (bs : List Byte) : (unpackElems fmt w count bs).length = count := by simp [unpackElems]

theorem Plane.length_row (p : Plane) (k : Nat) : (p.row k).length = 512 := length_unpackElems _ _ _ _

/-- An entry of a list made of two by position. -/
theorem getD_zipWith {f : Int → Int → Int} {a b : List Int} {c : Nat} (ha : c < a.length) (hb : c < b.length) :
    (List.zipWith f a b).getD c 0 = f (a.getD c 0) (b.getD c 0) := by
  simp [List.getD_eq_getElem?_getD, ha, hb]

/-- K-row `k` joins the column sums, times its X element: R58. -/
def addRow (p : Plane) (x : List Int) (sums : List Int) (k : Nat) : List Int :=
  if x.getD k 0 = 0 then sums else List.zipWith (fun a b => a + x.getD k 0 * b) sums (p.row k)

theorem columnSums_dense {p : Plane} (h : p.diag = false) (x : List Int) :
    columnSums (some p) x = (List.range 128).foldl (addRow p x) (List.replicate 512 0) := by
  simp only [columnSums, h, Bool.false_eq_true, if_false]
  rfl

theorem columnSums_diag {p : Plane} (h : p.diag = true) (x : List Int) : columnSums (some p) x =
    List.zipWith (fun a b => a * b) (x.take 128) (unpackElems p.fmt (sBits p.fmt) 128 p.bytes) ++ List.replicate 384 0 := by
  simp only [columnSums, h, if_true]

theorem length_addRow (p : Plane) (x : List Int) {sums : List Int} (h : sums.length = 512) (k : Nat) : (addRow p x sums k).length = 512 := by
  rw [addRow]
  split
  · exact h
  · rw [List.length_zipWith, h, p.length_row, Nat.min_self]

theorem getD_addRow (p : Plane) (x : List Int) {sums : List Int} (h : sums.length = 512) (k : Nat) {c : Nat} (hc : c < 512) :
    (addRow p x sums k).getD c 0 = sums.getD c 0 + x.getD k 0 * (p.row k).getD c 0 := by
  rw [addRow]
  split
  · rw [‹x.getD k 0 = 0›, zero_mul, add_zero]
  · exact getD_zipWith (by rwa [h]) (by rwa [p.length_row])

/-- Rows that join the column sums, each once: R58. -/
theorem foldl_addRow (p : Plane) (x : List Int) {c : Nat} (hc : c < 512) (ks : List Nat) {sums : List Int} (h : sums.length = 512) :
    (ks.foldl (addRow p x) sums).length = 512 ∧
    (ks.foldl (addRow p x) sums).getD c 0 = sums.getD c 0 + (ks.map (fun k => x.getD k 0 * (p.row k).getD c 0)).sum := by
  induction ks generalizing sums with
  | nil => exact ⟨h, (add_zero _).symm⟩
  | cons k ks ih =>
    obtain ⟨length, entry⟩ := ih (length_addRow p x h k)
    rw [getD_addRow p x h k hc] at entry
    exact ⟨length, by rw [List.foldl_cons, entry, List.map_cons, List.sum_cons, add_assoc]⟩

/-- The column sums of 128 elements: 512 of them, exact products or, on a diagonal, one product and zeros: R58, R77. -/
theorem columnSums_spec (p : Plane) {x : List Int} (hx : x.length = 128) {c : Nat} (hc : c < 512) :
    (columnSums (some p) x).length = 512 ∧ (columnSums (some p) x).getD c 0 =
      if p.diag then (if c < 128 then x.getD c 0 * (unpackElems p.fmt (sBits p.fmt) 128 p.bytes).getD c 0 else 0)
      else products x p.row c := by
  cases diag : p.diag with
  | true =>
    have length : (List.zipWith (fun a b => a * b) x (unpackElems p.fmt (sBits p.fmt) 128 p.bytes)).length = 128 := by
      rw [List.length_zipWith, hx, length_unpackElems, Nat.min_self]
    rw [columnSums_diag diag, List.take_of_length_le hx.le]
    refine ⟨by rw [List.length_append, length, List.length_replicate], ?_⟩
    by_cases low : c < 128
    · rw [List.getD_append _ _ _ _ (by rwa [length]), getD_zipWith (by rwa [hx]) (by rwa [length_unpackElems]), if_pos rfl, if_pos low]
    · rw [List.getD_append_right _ _ _ _ (by rw [length]; omega), List.getD_replicate, if_pos rfl, if_neg low]
      rw [length]
      omega
  | false =>
    obtain ⟨length, entry⟩ := foldl_addRow p x hc (List.range 128) (sums := List.replicate 512 0) List.length_replicate
    rw [columnSums_dense diag]
    refine ⟨length, ?_⟩
    rw [entry, List.getD_replicate _ hc, zero_add]
    rfl

/-- The exponent that the largest block gives an X row: R58. -/
def topExp (fmt : Nat) (es : List Int) : Int := if isBS fmt then es.foldl max (es.headD 0) else 0

/-- The X elements of a row are each rounded once, and the row's exponent is that of its largest block: R58. -/
theorem xShifted_spec (fmt r : Nat) (xs es : List Int) :
    (xShifted fmt r (xs, es)).1.length = xs.length ∧ (xShifted fmt r (xs, es)).2 = topExp fmt es + r ∧
    ∀ k < xs.length, nearest (xs.getD k 0) ((if isBS fmt then es.getD (k / 32) 0 - topExp fmt es else 0) - r)
      ((xShifted fmt r (xs, es)).1.getD k 0) := by
  unfold xShifted topExp
  cases isBS fmt with
  | true =>
    simp only [if_true]
    refine ⟨by rw [List.length_mapIdx], trivial, fun k hk => ?_⟩
    rw [List.getD_eq_getElem xs _ hk, List.getD_eq_getElem (xs.mapIdx _) _ (by rwa [List.length_mapIdx]), List.getElem_mapIdx]
    exact roundHalfEven _ _
  | false =>
    simp only [Bool.false_eq_true, if_false, zero_sub, zero_add]
    refine ⟨by rw [List.length_map], trivial, fun k hk => ?_⟩
    rw [List.getD_eq_getElem xs _ hk, List.getD_eq_getElem (xs.map _) _ (by rwa [List.length_map]), List.getElem_map]
    exact roundHalfEven _ _

/-- A row cut at `cols` and filled up with zeros to 512: R446. -/
theorem getD_padded {p : List Int} (hp : p.length = 512) {cols c : Nat} (hc : c < 512) (hcols : cols ≤ 512) :
    (p.take cols ++ List.replicate (512 - cols) 0).getD c 0 = if cols ≤ c then 0 else p.getD c 0 := by
  have length : (p.take cols).length = cols := by rw [List.length_take, hp, Nat.min_eq_left hcols]
  by_cases pad : cols ≤ c
  · rw [if_pos pad, List.getD_append_right _ _ _ _ (by rwa [length]), List.getD_replicate]
    rw [length]
    omega
  · have inside : c < cols := Nat.lt_of_not_le pad
    rw [if_neg pad, List.getD_append _ _ _ _ (by rwa [length]), List.getD_eq_getElem?_getD, List.getElem?_take_of_lt inside,
      ← List.getD_eq_getElem?_getD]

/-- Settles O10: a result is the column sums of the rounded X elements (`xShifted_spec`, `columnSums_spec`), padded with zeros. -/
theorem passResult : Obligations.PassResult := by
  intro q p m r c xs es plane row hxs _ hc hcols top
  obtain ⟨length, exponent, rounded⟩ := xShifted_spec q.xFmt r xs es
  obtain ⟨width, sums⟩ := columnSums_spec p (length.trans hxs) hc
  have at_ : q.rows.getD m ([], []) = (xs, es) := by rw [List.getD_eq_getElem?_getD, row, Option.getD_some]
  refine ⟨(xShifted q.xFmt r (xs, es)).1, length.trans hxs, fun k hk => rounded k (by rwa [hxs]), ?_, ?_⟩
  · rw [PassIn.result, at_, exponent]
    rfl
  · rw [PassIn.result, at_, plane, getD_padded width hc hcols, sums]

end Sys2Proof.Machine
end

section
/-!
PROOFS. A pass that reaches an ACC entry ends the stored errors in it (R61, R63, R135), which the frame stated for passes does not admit.
-/

namespace Sys2Proof.Machine

open Claim

/-! ### Stored errors in ACC -/

/-- A word of an ACC entry: its values, or its tag word (R63, R135). -/
def inEntry (e : Nat) (w : EccWord) : Bool := w.buffer == .acc && w.line == e

/-- Reads find stored errors and leave them where they are: R135. -/
theorem State.weak_readWeak (s : State) (n : Nat) (spans : List (Nat × Nat)) : ((s.readWeak n spans).pcore n).weak = (s.pcore n).weak := by
  unfold State.readWeak
  dsimp only
  split
  · rfl
  · rw [State.pcore_modP]
    exact List.foldlRecOn (motive := fun p : Phys => p.weak = (s.pcore n).weak) _ _ rfl fun _ h _ _ => h

/-- The words of an entry that is put are encoded anew, so that no stored error stays in them: R63, R135. -/
theorem Phys.weak_setEntry (p : Phys) (e : Nat) (v : List Int) (exp : Int) :
    (p.setEntry e v exp).weak = p.weak.filter (fun w => !inEntry e w) := by
  simp only [Phys.setEntry, inEntry, Bool.not_and]
  rfl

theorem State.weak_accWrite (s : State) (n e : Nat) (p : List Int × Int) :
    ((s.accWrite n e p).pcore n).weak = (s.pcore n).weak.filter (fun w => !inEntry e w) := by
  rw [State.accWrite, State.pcore_modCore, State.pcore_modP, Phys.weak_setEntry, State.tagRead, State.weak_readWeak]

theorem State.weak_accAdd (s : State) (n e : Nat) (p : List Int × Int) :
    ((s.accAdd n e p).pcore n).weak = (s.pcore n).weak.filter (fun w => !inEntry e w) := by
  unfold State.accAdd
  dsimp only
  split
  · rw [State.pcore_modP, Phys.weak_setEntry, State.entryRead, State.weak_readWeak]
  · rw [State.pcore_modCore, State.pcore_modP, State.pcore_modP, Phys.weak_setEntry, State.entryRead, State.weak_readWeak]

/-- Rows of a pass that reach their entries, from `e0` up: R61. -/
def State.passRows (s : State) (n : Nat) (q : PassIn) (acc : Bool) (e0 : Nat) (rows : List Nat) : State :=
  rows.foldl (fun s i =>
    if acc then s.accAdd n (e0 + i) (q.result i ((s.pcore n).rOf (e0 + i)))
    else s.accWrite n (e0 + i) (q.result i ((s.pcore n).rOf (e0 + i)))) s

theorem State.passRows_cons (s : State) (n : Nat) (q : PassIn) (acc : Bool) (e0 i : Nat) (rows : List Nat) :
    s.passRows n q acc e0 (i :: rows) = State.passRows (if acc then s.accAdd n (e0 + i) (q.result i ((s.pcore n).rOf (e0 + i)))
      else s.accWrite n (e0 + i) (q.result i ((s.pcore n).rOf (e0 + i)))) n q acc e0 rows := rfl

/-- Of the stored errors those outside the entries of a pass stay: R63, R135. -/
theorem State.weak_passRows (s : State) (n : Nat) (q : PassIn) (acc : Bool) (e0 : Nat) (rows : List Nat) :
    ((s.passRows n q acc e0 rows).pcore n).weak = (s.pcore n).weak.filter (fun w => rows.all (fun i => !inEntry (e0 + i) w)) := by
  induction rows generalizing s with
  | nil => exact (List.filter_true _).symm
  | cons i rows ih =>
    have both : ∀ w, (rows.all (fun i => !inEntry (e0 + i) w) && !inEntry (e0 + i) w) = (i :: rows).all (fun i => !inEntry (e0 + i) w) :=
      fun w => by rw [List.all_cons, Bool.and_comm]
    cases acc with
    | true => simp only [State.passRows_cons, ih, if_true, State.weak_accAdd, List.filter_filter, both]
    | false => simp only [State.passRows_cons, ih, Bool.false_eq_true, if_false, State.weak_accWrite, List.filter_filter, both]

/-- What the engine does for a pass before its rows reach ACC leaves the physical core as it was: R60, R62. -/
theorem State.pcore_enginePass (s : State) (n lim id t : Nat) (m : MSlot) (diag : Bool) (x w : Nat) :
    ∃ u q, State.pcore u n = s.pcore n ∧
      (s.enginePass n lim id t m diag x w).pcore n = (State.passRows u n q m.acc m.e0 (List.range m.rows)).pcore n := by
  unfold State.enginePass
  dsimp only
  rw [State.addWork, State.pcore_modCore]
  refine ⟨_, _, ?before, rfl⟩
  case before => rw [State.see, State.pcore_modCore, State.pcore_modCore]

/-- A pass leaves no stored error in the entries it reaches: R61, R63, R135. -/
theorem State.weak_runPass (s : State) (m : MSlot) (diag : Bool) : ((s.runPass m diag).pcore m.core.toNat).weak =
    (s.pcore m.core.toNat).weak.filter (fun w => (List.range m.rows).all (fun i => !inEntry (m.e0 + i) w)) := by
  obtain ⟨u, q, same, rows⟩ := State.pcore_enginePass { s with nextId := s.nextId + 1 } m.core.toNat (s.cycle m.core.toNat) s.nextId
    (s.cycle m.core.toNat) m diag (m.xBase (s.core m.core.toNat)) (m.sBase (s.core m.core.toNat))
  have act : (s.runPass m diag).pcore m.core.toNat = (State.enginePass { s with nextId := s.nextId + 1 } m.core.toNat (s.cycle m.core.toNat)
    s.nextId (s.cycle m.core.toNat) m diag (m.xBase (s.core m.core.toNat)) (m.sBase (s.core m.core.toNat))).pcore m.core.toNat := rfl
  rw [act, rows, State.weak_passRows, same]
  rfl

/-- The stored errors that stand after `mm.pass`: R61, R63, R135. -/
theorem weak_mmPass {s t : State} {m : MSlot} (h : s.issuesNow m.core.toNat (.mmPass m) = true) (run : exec (.mmPass m) s = .next t) :
    (t.pcore m.core.toNat).weak =
      (s.pcore m.core.toNat).weak.filter (fun w => (List.range m.rows).all (fun i => !inEntry (m.e0 + i) w)) := by
  have ran : exec (.mmPass m) s = done s (s.runPass m false) := slotExec_issues h
  obtain rfl := Host.Outcome.next.inj (ran.symm.trans run)
  exact s.weak_runPass m false

/-- A pass of one BIN row from the start of AB, s4, against the tile at the start of WB, into entry 0: R61. -/
def onePass : MSlot := { core := 0, xa := 4, wa := 0, pa := 0, ta := 0, f := 0x4400 }

/-- The machine after reset, where s4 of core 0 points to AB and a word of its ACC entry 0 holds a stored error. -/
def entryError : State :=
  withPhys (withCore State.reset 0 { sChk := [(4, 0x600000)] }) 0 { weak := [{ buffer := .acc, line := 0, bank := 0 }] }

/-- Refutes O11: `MatrixPass` has a pass change nothing of its physical core but `acc`, `eTag` and `sat`; but where an entry that it writes
holds a stored error, the words written anew end that error (R63, R135), and `weak` changes too. -/
theorem not_matrixPasses : ¬ Obligations.MatrixPasses := by
  rintro ⟨pass, -, -⟩
  have issues : entryError.issuesNow onePass.core.toNat (.mmPass onePass) = true := by decide +kernel
  obtain ⟨t, run, -, -, -, -, kept, -⟩ := pass entryError onePass false issues (by decide +kernel) (by decide +kernel) (by decide)
  have same : (t.pcore onePass.core.toNat).weak = (entryError.pcore onePass.core.toNat).weak := by rw [kept]
  have ended := weak_mmPass issues run
  rw [same] at ended
  exact absurd ended (by decide +kernel)

end Sys2Proof.Machine
end

section
/-!
SUPPORT. Elements of a vector register after a write of elements lands (R27, R106, R110), and the writes of a row on their way.
-/

namespace Sys2Proof.Machine

open Claim

/-! ### Several witnesses -/

theorem exists_three {α β γ : Type} {P : α → β → γ → Prop} {a : α} {b : β} {c : γ} (h : P a b c) : ∃ a b c, P a b c := ⟨a, b, c, h⟩

theorem exists_four {α β γ δ : Type} {P : α → β → γ → δ → Prop} {a : α} {b : β} {c : γ} {d : δ} (h : P a b c d) :
    ∃ a b c d, P a b c d := ⟨a, b, c, d, h⟩

theorem exists_five {α β γ δ ε : Type} {P : α → β → γ → δ → ε → Prop} {a : α} {b : β} {c : γ} {d : δ} {e : ε} (h : P a b c d e) :
    ∃ a b c d e, P a b c d e := ⟨a, b, c, d, e, h⟩

/-! ### One element -/

/-- Bit `k` of element `j` lies in element `q` where the two are the same. -/
theorem in_element {w j q k : Nat} (hk : k < w) : (w * q ≤ w * j + k ∧ w * j + k - w * q < w) ↔ j = q := by
  have own : (w * j + k) / w = j := by rw [Nat.mul_add_div (Nat.zero_lt_of_lt hk), Nat.div_eq_of_lt hk, add_zero]
  constructor
  · rintro ⟨low, high⟩
    rw [← own]
    exact Nat.div_eq_of_lt_le (by rwa [mul_comm]) (by rw [Nat.succ_mul, mul_comm q, add_comm _ w]; exact (Nat.sub_lt_iff_lt_add low).mp high)
  · rintro rfl
    exact ⟨Nat.le_add_right _ _, by rwa [Nat.add_sub_cancel_left]⟩

/-- A number of `w` bits moved to element `q`. -/
theorem getLsbD_moved {w j q k a : Nat} (hk : k < w) (inside : w * j + k < 2048) (ha : a < 2 ^ w) :
    (BitVec.ofNat 2048 (a * 2 ^ (w * q))).getLsbD (w * j + k) = (decide (j = q) && a.testBit k) := by
  rw [BitVec.getLsbD_ofNat, Nat.testBit_mul_two_pow, decide_eq_true inside, Bool.true_and]
  by_cases same : j = q
  · rw [same, Nat.add_sub_cancel_left, decide_eq_true (Nat.le_add_right ..), decide_eq_true rfl]
  · rw [decide_eq_false same, Bool.false_and, Bool.and_eq_false_iff]
    by_cases low : w * q ≤ w * j + k
    · have beyond := not_lt.mp fun high => same ((in_element hk).mp ⟨low, high⟩)
      exact .inr (Nat.testBit_lt_two_pow (ha.trans_le (Nat.pow_le_pow_right two_pos beyond)))
    · exact .inl (decide_eq_false low)

/-- A register with element `q` replaced: R106. -/
theorem extract_replaced {w j : Nat} (r : BitVec 2048) (q x : Nat) (fits : w * j + w ≤ 2048) :
    BitVec.extractLsb' (w * j) w ((r &&& ~~~BitVec.ofNat 2048 ((2 ^ w - 1) * 2 ^ (w * q))) ||| BitVec.ofNat 2048 (x % 2 ^ w * 2 ^ (w * q))) =
      if j = q then BitVec.ofNat w x else BitVec.extractLsb' (w * j) w r := by
  refine BitVec.eq_of_getLsbD_eq fun k hk => ?_
  have inside : w * j + k < 2048 := (Nat.add_lt_add_left hk _).trans_le fits
  rw [BitVec.getLsbD_extractLsb', BitVec.getLsbD_or, BitVec.getLsbD_and, BitVec.getLsbD_not,
    getLsbD_moved hk inside (Nat.sub_one_lt (Nat.two_pow_pos w).ne'), getLsbD_moved hk inside (Nat.mod_lt _ (Nat.two_pow_pos w)),
    Nat.testBit_two_pow_sub_one, Nat.testBit_mod_two_pow, decide_eq_true hk, decide_eq_true inside]
  by_cases same : j = q
  · rw [if_pos same, decide_eq_true same, BitVec.getLsbD_ofNat, decide_eq_true hk]
    exact congrArg (· || _) (Bool.and_false _)
  · rw [if_neg same, decide_eq_false same, BitVec.getLsbD_extractLsb', decide_eq_true hk]
    exact congrArg (true && ·) ((Bool.or_false _).trans (Bool.and_true _))

theorem mergeElems_nil (w : Nat) (old : BitVec 2048) : mergeElems w old [] = old := by
  rw [show mergeElems w old [] = old &&& ~~~(0#2048) ||| 0#2048 from rfl, BitVec.not_zero, BitVec.and_allOnes, BitVec.or_zero]

theorem landed_putElems (w : Nat) (old : BitVec 2048) (ps : List (Nat × Nat)) :
    landed old (putElems w ps).1 (putElems w ps).2 = mergeElems w old ps := rfl

/-- A further element that lands replaces itself, and leaves every other as it was. -/
theorem elemAt_mergeElems_concat {w j : Nat} (old : BitVec 2048) (ps : List (Nat × Nat)) (p : Nat × Nat) (hj : w * j + w ≤ 2048) :
    elemAt w (mergeElems w old (ps ++ [p])) j = if j = p.1 then p.2 % 2 ^ w else elemAt w (mergeElems w old ps) j := by
  have step (o m v a x : BitVec 2048) : (o &&& ~~~(m ||| a)) ||| ((v &&& ~~~a) ||| x) = (((o &&& ~~~m) ||| v) &&& ~~~a) ||| x := by
    rw [BitVec.not_or, ← BitVec.and_assoc, ← BitVec.or_assoc, ← BitVec.and_or_distrib_right]
  rw [elemAt, mergeElems, putElems, List.foldl_append]
  refine (congrArg BitVec.toNat ((congrArg _ (step ..)).trans (extract_replaced _ p.1 p.2 hj))).trans ?_
  rw [apply_ite BitVec.toNat, BitVec.toNat_ofNat]
  rfl

/-! ### Elements written together -/

section Written

variable {ι : Type} {w : Nat} (old : BitVec 2048) {l : List ι} (at_ val : ι → Nat)

/-- An element that is not among those written keeps its contents: R110. -/
theorem elemAt_mergeElems_of_ne {j : Nat} (hj : w * j + w ≤ 2048) (h : ∀ i ∈ l, at_ i ≠ j) :
    elemAt w (mergeElems w old (l.map (fun i => (at_ i, val i)))) j = elemAt w old j := by
  induction l using List.reverseRecOn with
  | nil => rw [List.map_nil, mergeElems_nil]
  | append_singleton l i ih =>
    rw [List.map_append, List.map_singleton, elemAt_mergeElems_concat _ _ _ hj, if_neg (h i List.mem_concat_self).symm]
    exact ih fun k hk => h k (List.mem_append_left _ hk)

/-- Of elements written at different places each takes its value: R110. -/
theorem elemAt_mergeElems_of_mem (distinct : (l.map at_).Nodup) {i : ι} (hi : i ∈ l) (hr : w * at_ i + w ≤ 2048) :
    elemAt w (mergeElems w old (l.map (fun i => (at_ i, val i)))) (at_ i) = val i % 2 ^ w := by
  induction l using List.reverseRecOn with
  | nil => cases hi
  | append_singleton l k ih =>
    rw [List.map_append, List.map_singleton, elemAt_mergeElems_concat _ _ _ hr]
    rw [List.map_append, List.map_singleton, List.nodup_append] at distinct
    obtain ⟨before, -, apart⟩ := distinct
    rcases List.mem_append.mp hi with earlier | last
    · rw [if_neg (apart _ (List.mem_map_of_mem earlier) _ (List.mem_singleton_self _)), ih before earlier]
    · rw [List.mem_singleton.mp last, if_pos rfl]

/-- Elements written at their own places, and those between them: R110. -/
theorem elemAt_landed {on : List Nat} {P : Nat → Prop} (nodup : on.Nodup) (mem : ∀ j, j ∈ on ↔ P j) (val : Nat → Nat) {j : Nat}
    (hj : w * j + w ≤ 2048) :
    (P j → elemAt w (mergeElems w old (on.map (fun j => (j, val j)))) j = val j % 2 ^ w) ∧
    (¬ P j → elemAt w (mergeElems w old (on.map (fun j => (j, val j)))) j = elemAt w old j) :=
  ⟨fun h => elemAt_mergeElems_of_mem old id val (by rwa [List.map_id]) ((mem j).mpr h) hj,
   fun h => elemAt_mergeElems_of_ne old id val hj fun _ hk same => h (same ▸ (mem _).mp hk)⟩

end Written

/-- The elements of a register of 2048 bits. -/
theorem element_fits {w j : Nat} (h : j < 2048 / w) : w * j + w ≤ 2048 :=
  (Nat.mul_le_mul_left w h).trans (Nat.mul_div_le 2048 w)

theorem elemAt_lt (w : Nat) (v : BitVec 2048) (j : Nat) : elemAt w v j < 2 ^ w := BitVec.isLt _

theorem elemAt_eq (w : Nat) (v : BitVec 2048) (j : Nat) : elemAt w v j = v.toNat / 2 ^ (w * j) % 2 ^ w := by
  rw [elemAt, BitVec.extractLsb'_toNat, Nat.shiftRight_eq_div_pow]

/-! ### Results on their way -/

/-- A core with these writes on their way. -/
noncomputable def withPipe (c : Core) (ps : List Pend) : Core := { c with pipe := ps }

/-- A core whose row puts writes on their way: R27. -/
noncomputable def piped (ps : List Pend) (c : Core) : Core := withPipe c (c.pipe ++ ps)

/-- A core whose row puts writes on their way and counts events in `NUM_STAT`: R27, R87. -/
noncomputable def counted (ps : List Pend) (sats inv ovf : Nat) (c : Core) : Core :=
  { c with pipe := c.pipe ++ ps, cvtSats := min (2 ^ 24 - 1) (c.cvtSats + sats), invalid := min (2 ^ 16 - 1) (c.invalid + inv),
           overflow := min (2 ^ 16 - 1) (c.overflow + ovf) }

theorem counted_append (ps qs : List Pend) (sats inv ovf : Nat) (c : Core) :
    piped qs (counted ps sats inv ovf c) = counted (ps ++ qs) sats inv ovf c :=
  congrArg (withPipe (counted ps sats inv ovf c)) (List.append_assoc c.pipe ps qs)

/-- A vector register as a row of latency `lat` writes elements of it: R27, R106. -/
noncomputable def elemPend (s : State) (n : Nat) (r : BitVec 5) (lat w : Nat) (es : List (Nat × Nat)) : Pend :=
  ⟨now s n + lat, .vreg r (putElems w es).1 (putElems w es).2⟩

theorem State.writeElems_eq (s : State) (n : Nat) (r : BitVec 5) (lat w : Nat) (es : List (Nat × Nat)) :
    s.writeElems n r lat w es = issued s n [elemPend s n r lat w es] := rfl

/-- A core changed once its cycle is known, and then a write of elements. -/
theorem State.modCore_writeElems (s : State) (n : Nat) {f : Core → Core} (hf : (f (s.core n)).drained = (s.core n).drained)
    (r : BitVec 5) (lat w : Nat) (es : List (Nat × Nat)) :
    (s.modCore n f).writeElems n r lat w es = s.modCore n (fun c => piped [elemPend s n r lat w es] (f c)) := by
  have same : now (s.modCore n f) n = now s n := by
    rw [State.modCore_eq_withCore, now, State.core_withCore, hf]
    rfl
  have shown : elemPend (s.modCore n f) n r lat w es = elemPend s n r lat w es := by rw [elemPend, same, elemPend]
  rw [State.writeElems_eq, shown]
  exact s.modCore_modCore n f (piped _)

/-- Results counted and put on their way change the row's own core and nothing else: R27, R87. -/
theorem State.numStat_writeElems (s : State) (n sats inv ovf : Nat) (r : BitVec 5) (lat w : Nat) (es : List (Nat × Nat)) :
    (s.numStat n sats inv ovf).writeElems n r lat w es = s.modCore n (counted [elemPend s n r lat w es] sats inv ovf) :=
  s.modCore_writeElems n rfl r lat w es

/-- A further register written by a row that counts its events. -/
theorem State.counted_writeElems (s : State) (n : Nat) (ps : List Pend) (sats inv ovf : Nat) (r : BitVec 5) (lat w : Nat)
    (es : List (Nat × Nat)) : (s.modCore n (counted ps sats inv ovf)).writeElems n r lat w es =
      s.modCore n (counted (ps ++ [elemPend s n r lat w es]) sats inv ovf) := by
  rw [s.modCore_writeElems n rfl r lat w es, State.modCore_eq_withCore, counted_append]
  rfl

/-- A slot that issues answers the state its action makes. -/
theorem SlotShape.exec_eq {i : Instr} {core : CoreId} {act : State → State} (h : SlotShape i core act) {s t : State}
    (hi : s.issuesNow core.toNat i = true) (made : act s = t) (queue : t.pending = s.pending) : exec i s = .next t := by
  subst made
  exact h.exec_next hi queue

/-- A slot that issues is an encoding that the loader admits: R22. -/
theorem wf_of_issuesNow {s : State} {n : Nat} {i : Instr} (h : s.issuesNow n i = true) : i.wf = true := by
  rw [State.issuesNow, State.mayIssue] at h
  simp only [Bool.and_eq_true] at h
  exact h.1.1.1.1.1

end Sys2Proof.Machine

namespace Sys2Proof

open Machine Claim

/-! ### The elements of a row -/

/-- The active elements: below the count, and with their mask bit where the mask applies (R110). -/
theorem VSlot.mem_active {v : VSlot} {c : Core} {n : Nat} {idx : Nat → Nat} {j : Nat} :
    j ∈ v.active c n idx ↔ j < n ∧ (v.maskEn = true → (c.readM v.mask).getLsbD (idx j) = true) := by
  rw [VSlot.active, List.mem_filter, List.mem_range, Bool.or_eq_true, Bool.not_eq_true', imp_iff_not_or, Bool.not_eq_true]

theorem VSlot.nodup_active (v : VSlot) (c : Core) (n : Nat) (idx : Nat → Nat) : (v.active c n idx).Nodup :=
  List.nodup_range.filter _

/-- The active elements of a row of its own type: R109, R110. -/
noncomputable def VSlot.on (v : VSlot) (s : State) : List Nat := v.active (s.core v.core.toNat) (v.count (s.core v.core.toNat)) id

theorem VSlot.nodup_on (v : VSlot) (s : State) : (v.on s).Nodup := v.nodup_active ..

theorem VSlot.mem_on (v : VSlot) (s : State) (j : Nat) : j ∈ v.on s ↔ isActive s v j := VSlot.mem_active

theorem VSlot.elemAt_eq_elemOf (v : VSlot) (s : State) (r : BitVec 5) (j : Nat) :
    elemAt (tyWidth v.ty) ((s.core v.core.toNat).readV r) j = elemOf s v r j := elemAt_eq _ _ _

end Sys2Proof
end

section
/-!
SUPPORT. The exact numbers behind codes, and rounding to integers (R58, R85, R88).
-/

namespace Sys2Proof.Machine

open Claim

/-! ### Exact numbers -/

/-- The exact number (-1)^neg * m * 2^e. -/
noncomputable def dyadic (neg : Bool) (m : Nat) (e : Int) : ℚ := (if neg then -1 else 1) * m * (2 : ℚ) ^ e

theorem dyadic_pos (m : Nat) (e : Int) : dyadic false m e = m * (2 : ℚ) ^ e := congrArg (· * _) (one_mul _)

theorem dyadic_neg (m : Nat) (e : Int) : dyadic true m e = -dyadic false m e := by
  rw [dyadic_pos, ← neg_mul, ← neg_one_mul (m : ℚ)]
  rfl

theorem dyadic_zero (neg : Bool) (e : Int) : dyadic neg 0 e = 0 := by
  rw [dyadic, Nat.cast_zero, mul_zero, zero_mul]

theorem dyadic_positive {m : Nat} (hm : m ≠ 0) (e : Int) : 0 < dyadic false m e := by
  rw [dyadic_pos]
  exact mul_pos (Nat.cast_pos.mpr (Nat.pos_of_ne_zero hm)) (zpow_pos two_pos e)

theorem zpow_two_mul (a b : Int) : (2 : ℚ) ^ a * 2 ^ b = 2 ^ (a + b) := (zpow_add₀ two_ne_zero a b).symm

/-- The binary logarithm of a magnitude. -/
theorem dyadic_log {m : Nat} (hm : m ≠ 0) (e : Int) :
    (2 : ℚ) ^ (m.log2 + e) ≤ dyadic false m e ∧ dyadic false m e < 2 ^ ((m.log2 + 1 : Nat) + e) := by
  have unit : (0 : ℚ) < 2 ^ e := zpow_pos two_pos e
  rw [dyadic_pos, ← zpow_two_mul, ← zpow_two_mul, zpow_natCast, zpow_natCast]
  exact ⟨mul_le_mul_of_nonneg_right (by exact_mod_cast Nat.log2_self_le hm) unit.le,
    mul_lt_mul_of_pos_right (by exact_mod_cast Nat.lt_log2_self (n := m)) unit⟩

/-- Moving a number by binary places. -/
theorem dyadic_shift (neg : Bool) (m : Nat) (e k : Int) : dyadic neg m e * (2 : ℚ) ^ k = dyadic neg m (e + k) := by
  rw [dyadic, dyadic, mul_assoc, zpow_two_mul]

/-- Whole powers of two move between significand and exponent. -/
theorem dyadic_scaled (neg : Bool) (m k : Nat) (e : Int) : dyadic neg (m * 2 ^ k) e = dyadic neg m (e + k) := by
  rw [← dyadic_shift, dyadic, dyadic, Nat.cast_mul, Nat.cast_pow, Nat.cast_ofNat, zpow_natCast, ← mul_assoc, mul_right_comm]

theorem dyadic_double (neg : Bool) (m : Nat) (e : Int) : dyadic neg (m * 2) e = dyadic neg m (e + 1) := dyadic_scaled neg m 1 e

/-- An integer at an exponent, by its sign and magnitude. -/
theorem dyadic_int (v e : Int) : dyadic (decide (v < 0)) v.natAbs e = v * (2 : ℚ) ^ e := by
  by_cases h : v < 0
  · rw [decide_eq_true h, dyadic_neg, dyadic_pos, Nat.cast_natAbs, abs_of_neg h, Int.cast_neg, neg_mul, neg_neg]
  · rw [decide_eq_false h, dyadic_pos, Nat.cast_natAbs, abs_of_nonneg (not_lt.mp h)]

/-! ### Rounding to integers -/

/-- An integer is rounded to itself. -/
theorem halfEven_int (q : Int) : halfEven q q := by
  rw [halfEven, sub_self, abs_zero]
  exact ⟨one_half_pos.le, fun tie => absurd tie one_half_pos.ne⟩

theorem halfEven_neg {y : ℚ} {q : Int} (h : halfEven y q) : halfEven (-y) (-q) := by
  have mirrored : |-y - (-q : Int)| = |y - q| := by rw [Int.cast_neg, neg_sub_neg, abs_sub_comm]
  rw [halfEven, mirrored]
  exact h.imp_right fun even tie => by rw [Int.neg_emod_two, even tie]

/-- A fraction rounded: how far its numerator lies from the rounded multiple of the denominator. -/
theorem halfEven_div {m r u : Int} (hu : 0 < u) (near : |2 * (r * u - m)| < u ∨ |2 * (r * u - m)| = u ∧ r % 2 = 0) :
    halfEven (m / u) r := by
  have unit : (0 : ℚ) < u := Int.cast_pos.mpr hu
  have scaled : |(m : ℚ) / u - r| * (u * 2) = (|2 * (r * u - m)| : Int) := by
    rw [Int.cast_abs, ← abs_neg ((2 * (r * u - m) : Int) : ℚ), ← abs_of_pos (mul_pos unit two_pos), ← abs_mul, ← mul_assoc, sub_mul,
      div_mul_cancel₀ _ unit.ne', mul_comm _ 2, ← Int.cast_neg, ← mul_neg, neg_sub]
    push_cast
    rfl
  rw [halfEven, le_div_iff₀ two_pos, eq_div_iff two_ne_zero, ← mul_le_mul_iff_left₀ unit, ← mul_left_inj' unit.ne', mul_assoc, mul_comm 2,
    scaled, one_mul, Int.cast_le, Int.cast_inj]
  exact ⟨near.elim le_of_lt fun h => h.1.le, fun tie => near.elim (fun less => absurd tie less.ne) And.right⟩

/-- A magnitude in units of 2^-e, rounded half to even: R58. -/
noncomputable def rne (m : Nat) (e : Int) : Nat := if 0 ≤ e then m * 2 ^ e.toNat else rneShift m (-e).toNat

theorem rne_up (m s : Nat) : rne m s = m * 2 ^ s := if_pos (Int.natCast_nonneg s)

theorem rne_down (m : Nat) {s : Nat} (hs : 0 < s) : rne m (-s) = rneShift m s := by
  rw [rne, if_neg (neg_lt_zero.mpr (Int.natCast_pos.mpr hs)).not_ge, neg_neg, Int.toNat_natCast]

theorem rne_sub (m : Nat) (a e : Int) : (if a ≤ e then m * 2 ^ (e - a).toNat else rneShift m (a - e).toNat) = rne m (e - a) := by
  rw [rne, neg_sub]
  exact if_congr sub_nonneg.symm rfl rfl

theorem halfEven_rne (m : Nat) (e : Int) : halfEven (dyadic false m e) (rne m e : Nat) := by
  rcases lt_or_ge e 0 with down | up
  · obtain ⟨s, rfl⟩ := Int.exists_eq_neg_ofNat down.le
    have places := Int.natCast_pos.mp (neg_lt_zero.mp down)
    have number : dyadic false m (-s) = (m : Int) / (2 ^ s : Int) := by
      rw [dyadic_pos, zpow_neg, zpow_natCast, ← div_eq_mul_inv, Int.cast_natCast, Int.cast_pow, Int.cast_ofNat]
    rw [rne_down m places, number]
    exact halfEven_div (pow_pos two_pos s) (rneShift_near m places)
  · obtain ⟨s, rfl⟩ := Int.eq_ofNat_of_zero_le up
    have number : dyadic false m s = (m * 2 ^ s : Nat) := by rw [dyadic_pos, zpow_natCast, Nat.cast_mul, Nat.cast_pow, Nat.cast_ofNat]
    rw [rne_up, number]
    exact halfEven_int (m * 2 ^ s : Nat)

/-- `rhe` rounds its exact number half to even: R58, R88. -/
theorem halfEven_rhe (neg : Bool) (m : Nat) (e : Int) : halfEven (dyadic neg m e) (rhe neg m e) := by
  have magnitude : rhe false m e = rne m e := (apply_ite Nat.cast ..).symm
  cases neg with
  | false =>
    rw [magnitude]
    exact halfEven_rne m e
  | true =>
    rw [dyadic_neg, rhe_neg, magnitude]
    exact halfEven_neg (halfEven_rne m e)

/-- Every other integer is at least half a unit away. -/
theorem halfEven_apart {y : ℚ} {q z : Int} (h : halfEven y q) (ne : z ≠ q) : 1 / 2 ≤ |y - z| := by
  have apart : (1 : ℚ) ≤ |(z : ℚ) - q| := by exact_mod_cast Int.one_le_abs (sub_ne_zero.mpr ne)
  refine le_of_add_le_add_right (a := |y - q|) ((add_le_add_right h.1 _).trans ?_)
  rw [add_halves]
  exact apart.trans (abs_sub_comm y z ▸ abs_sub_le (z : ℚ) y q)

theorem halfEven_unique {y : ℚ} {q r : Int} (hq : halfEven y q) (hr : halfEven y r) : q = r := by
  by_contra ne
  have even : (2 : Int) ∣ q - r := dvd_sub (Int.dvd_of_emod_eq_zero (hq.2 (hq.1.antisymm (halfEven_apart hr ne))))
    (Int.dvd_of_emod_eq_zero (hr.2 (hr.1.antisymm (halfEven_apart hq (Ne.symm ne)))))
  have near : |(q : ℚ) - r| ≤ 1 := (abs_sub_le (q : ℚ) y r).trans
    ((add_le_add (abs_sub_comm y q ▸ hq.1) hr.1).trans_eq (add_halves 1))
  exact ne (sub_eq_zero.mp (Int.eq_zero_of_abs_lt_dvd even (Int.lt_add_one_iff.mpr (by exact_mod_cast near))))

/-- No number lies nearer than the rounded one among integers, or beyond an integer that comes first; of two equally near it is even. -/
theorem halfEven_le {y t : ℚ} {q : Int} (h : halfEven y q) (ht : (∃ z : Int, t = z) ∨ ∃ c : Int, t < c ∧ c ≤ y) :
    |y - q| ≤ |y - t| ∧ (|y - q| = |y - t| → t ≠ q → q % 2 = 0) := by
  have integer (z : Int) : |y - q| ≤ |y - z| := by
    by_cases same : z = q
    · rw [same]
    · exact h.1.trans (halfEven_apart h same)
  rcases ht with ⟨z, rfl⟩ | ⟨c, below, above⟩
  · exact ⟨integer z, fun tie ne => h.2 (h.1.antisymm (tie ▸ halfEven_apart h fun same => ne (congrArg _ same)))⟩
  · have closer : |y - q| < |y - t| := by
      rw [abs_of_pos (sub_pos.mpr (below.trans_le above))]
      exact (integer c).trans_lt ((abs_of_nonneg (sub_nonneg.mpr above)).trans_lt (sub_lt_sub_left below y))
    exact ⟨closer.le, fun tie => absurd tie closer.ne⟩

/-- The same in other units. -/
theorem halfEven_scaled {y q t u : ℚ} {even : Prop} (h : |y - q| ≤ |y - t| ∧ (|y - q| = |y - t| → t ≠ q → even)) (hu : 0 < u) :
    |y * u - q * u| ≤ |y * u - t * u| ∧ (|y * u - q * u| = |y * u - t * u| → t * u ≠ q * u → even) := by
  have scaled (z : ℚ) : |y * u - z * u| = |y - z| * u := by rw [← sub_mul, abs_mul, abs_of_pos hu]
  rw [scaled, scaled]
  exact ⟨mul_le_mul_of_nonneg_right h.1 hu.le, fun tie ne => h.2 (mul_right_cancel₀ hu.ne' tie) fun same => ne (same ▸ rfl)⟩

/-- Rounding keeps the order. -/
theorem halfEven_mono {y z : ℚ} {q r : Int} (le : y ≤ z) (hq : halfEven y q) (hr : halfEven z r) : q ≤ r := by
  by_contra lt
  have step : (r : ℚ) + 1 ≤ q := by exact_mod_cast Int.add_one_le_of_lt (not_le.mp lt)
  have low : q ≤ y + 1 / 2 := sub_le_iff_le_add'.mp (abs_sub_le_iff.mp hq.1).2
  have high : z ≤ r + 1 / 2 := sub_le_iff_le_add'.mp (abs_sub_le_iff.mp hr.1).1
  have back : z ≤ y := by
    refine le_of_add_le_add_right (a := 1 / 2) ((add_le_add_left high _).trans ?_)
    rw [add_assoc, add_halves]
    exact step.trans low
  obtain rfl := le.antisymm back
  exact lt (halfEven_unique hq hr).le

end Sys2Proof.Machine
end

section
/-!
SUPPORT. The codes of a float format, and the one rounding to it (R85, R88).
-/

namespace Sys2Proof.Machine

open Claim

/-! ### Codes -/

/-- A format whose exponent field has 8 bits: R85. -/
def FloatFmt.Wide (f : FloatFmt) : Prop := 2 ≤ f.p ∧ f.minE = -125 - f.p

theorem wide_b32 : b32.Wide := ⟨by decide, rfl⟩

theorem wide_bf16 : bf16.Wide := ⟨by decide, rfl⟩

/-- A rule for another case says nothing of this one. -/
theorem no_rule {α : Type} {r : α} {P : Prop} (h : none = some r) : P := nomatch h

theorem realOf_of_value {f : FloatFmt} {w : Nat} {neg : Bool} {m : Nat} {e : Int} (h : f.value w = .fin neg m e) :
    realOf f w = some (dyadic neg m e) := by
  rw [realOf, h]
  rfl

theorem value_of_realOf {f : FloatFmt} {w : Nat} {x : ℚ} (h : realOf f w = some x) :
    ∃ neg m e, f.value w = .fin neg m e ∧ x = dyadic neg m e := by
  cases value : f.value w with
  | fin neg m e => exact ⟨neg, m, e, rfl, Option.some.inj (h.symm.trans (realOf_of_value value))⟩
  | nan | inf =>
    rw [realOf, value] at h
    exact no_rule h

theorem isNan_iff {f : FloatFmt} {w : Nat} : f.isNan w = true ↔ f.value w = .nan := by
  rw [FloatFmt.isNan]
  cases f.value w with
  | nan => exact iff_of_true rfl rfl
  | inf | fin => exact iff_of_false Bool.false_ne_true FVal.noConfusion

namespace FloatFmt

variable {f : FloatFmt}

/-- The unit of the exponent field. -/
noncomputable def unit (f : FloatFmt) : Nat := 2 ^ (f.p - 1)

theorem unit_pos (f : FloatFmt) : 0 < f.unit := Nat.two_pow_pos _

theorem signBit_eq (h : f.Wide) : f.signBit = 256 * f.unit := by
  obtain ⟨k, hk⟩ := Nat.exists_eq_add_of_le' (one_le_two.trans h.1)
  rw [signBit, unit, hk, Nat.add_sub_cancel, add_assoc, pow_add, mul_comm]
  rfl

theorem pow_p (h : f.Wide) : 2 ^ f.p = f.unit + f.unit := by
  rw [← two_mul, unit, ← pow_succ', Nat.sub_add_cancel (one_le_two.trans h.1)]

/-- A significand m at the E-th exponent from the least, as a code holds it: R85. -/
structure Holds (f : FloatFmt) (mag E m : Nat) : Prop where
  code : mag = E * f.unit + m
  bits : m < f.unit + f.unit
  normal : f.unit ≤ m ∨ E = 0
  finite : mag < f.infBits

/-- A greater exponent has a greater magnitude. -/
theorem Holds.lt_of_lt {k1 k2 E1 E2 m1 m2 : Nat} (h1 : f.Holds k1 E1 m1) (h2 : f.Holds k2 E2 m2) (less : E1 < E2) : k1 < k2 := by
  rw [h1.code, h2.code]
  calc E1 * f.unit + m1 < E1 * f.unit + (f.unit + f.unit) := Nat.add_lt_add_left h1.bits _
    _ = (E1 + 1) * f.unit + f.unit := by rw [Nat.succ_mul, add_assoc]
    _ ≤ E2 * f.unit + m2 := add_le_add (Nat.mul_le_mul_right _ less) (h2.normal.resolve_right (Nat.ne_zero_of_lt less))

theorem Holds.unique {k E1 E2 m1 m2 : Nat} (h1 : f.Holds k E1 m1) (h2 : f.Holds k E2 m2) : E1 = E2 ∧ m1 = m2 := by
  obtain rfl : E1 = E2 := le_antisymm (not_lt.mp fun less => (h2.lt_of_lt h1 less).false) (not_lt.mp fun less => (h1.lt_of_lt h2 less).false)
  exact ⟨rfl, Nat.add_left_cancel (h1.code.symm.trans h2.code)⟩

/-- What sign, exponent field and fraction stand for: R85. -/
noncomputable def fields (f : FloatFmt) (neg : Bool) (ex fr : Nat) : FVal :=
  if ex = 255 then (if fr = 0 then .inf neg else .nan)
  else if ex = 0 then .fin neg fr f.minE
  else .fin neg (f.unit + fr) (f.minE + ex - 1)

theorem value_eq_fields (f : FloatFmt) (w : Nat) :
    f.value w = f.fields (w.testBit (f.p + 7)) (w % f.signBit / f.unit) (w % f.signBit % f.unit) := rfl

/-- Above the least exponent the significand has a leading 1: R85. -/
theorem fields_succ (f : FloatFmt) (neg : Bool) {E : Nat} (h : E < 254) (fr : Nat) :
    f.fields neg (E + 1) fr = .fin neg (f.unit + fr) (f.minE + E) := by
  rw [fields, if_neg (Nat.succ_lt_succ h).ne, if_neg (Nat.succ_ne_zero E), Nat.cast_succ, ← add_assoc, add_sub_cancel_right]

theorem fields_special (f : FloatFmt) (neg : Bool) (fr : Nat) {s : Bool} {m : Nat} {e : Int} : f.fields neg 255 fr ≠ .fin s m e := by
  rw [fields, if_pos rfl]
  by_cases zero : fr = 0
  · rw [if_pos zero]
    exact FVal.noConfusion
  · rw [if_neg zero]
    exact FVal.noConfusion

/-- Below the special exponent, a significand at an exponent. -/
theorem fields_finite (f : FloatFmt) (neg : Bool) {ex fr : Nat} (exponent : ex < 255) (fraction : fr < f.unit) :
    ∃ E m : Nat, f.fields neg ex fr = .fin neg m (f.minE + E) ∧ f.Holds (ex * f.unit + fr) E m := by
  have below : ex * f.unit + fr < f.infBits := (Nat.add_lt_add_left fraction _).trans_le
    ((Nat.succ_mul ..).symm.trans_le (Nat.mul_le_mul_right _ exponent))
  cases ex with
  | zero => exact ⟨0, fr, congrArg (FVal.fin neg fr) (add_zero f.minE).symm, rfl, Nat.lt_add_right _ fraction, .inr rfl, below⟩
  | succ E =>
    exact ⟨E, _, f.fields_succ neg (Nat.lt_of_succ_lt_succ exponent) fr, by rw [Nat.succ_mul, add_assoc], Nat.add_lt_add_left fraction _,
      .inl (Nat.le_add_right ..), below⟩

/-- A finite code is a significand at an exponent. -/
theorem holds_of_fields {neg s : Bool} {ex fr m : Nat} {e : Int} (exponent : ex < 256) (fraction : fr < f.unit)
    (hv : f.fields neg ex fr = .fin s m e) : neg = s ∧ ∃ E : Nat, e = f.minE + E ∧ f.Holds (ex * f.unit + fr) E m := by
  have finite := Nat.lt_of_le_of_ne (Nat.le_of_lt_succ exponent) fun special => fields_special f neg fr (special ▸ hv)
  obtain ⟨E, m', value, holds⟩ := f.fields_finite neg finite fraction
  obtain ⟨sign, rfl, place⟩ := FVal.fin.inj (value.symm.trans hv)
  exact ⟨sign, E, place.symm, holds⟩

theorem holds_of_value (h : f.Wide) {w m : Nat} {neg : Bool} {e : Int} (hv : f.value w = .fin neg m e) :
    w.testBit (f.p + 7) = neg ∧ ∃ E : Nat, e = f.minE + E ∧ f.Holds (w % f.signBit) E m := by
  have exponent : w % f.signBit / f.unit < 256 := by
    rw [signBit_eq h]
    exact (Nat.div_lt_iff_lt_mul f.unit_pos).mpr (Nat.mod_lt _ (Nat.mul_pos (by decide) f.unit_pos))
  have found := holds_of_fields exponent (Nat.mod_lt _ f.unit_pos) hv
  rwa [Nat.div_add_mod'] at found

/-- A code by its sign and magnitude: R85. -/
theorem value_signed (h : f.Wide) (neg : Bool) {k : Nat} (hk : k < 256 * f.unit) :
    f.value (f.signed neg k) = f.fields neg (k / f.unit) (k % f.unit) := by
  rw [← signBit_eq h] at hk
  have parts : (f.signed neg k).testBit (f.p + 7) = neg ∧ f.signed neg k % f.signBit = k := by
    cases neg with
    | false => exact ⟨Nat.testBit_lt_two_pow hk, Nat.mod_eq_of_lt hk⟩
    | true => exact ⟨(Nat.testBit_two_pow_add_eq ..).trans (congrArg _ (Nat.testBit_lt_two_pow hk)),
        (Nat.add_mod_left ..).trans (Nat.mod_eq_of_lt hk)⟩
  rw [value_eq_fields, parts.1, parts.2]

theorem infBits_lt (f : FloatFmt) : f.infBits < 256 * f.unit := Nat.mul_lt_mul_of_pos_right (by decide) f.unit_pos

/-- A significand at an exponent is a finite magnitude. -/
theorem fields_of_holds {k E m : Nat} (h : f.Holds k E m) (neg : Bool) : f.fields neg (k / f.unit) (k % f.unit) = .fin neg m (f.minE + E) := by
  obtain ⟨E', m', value, holds⟩ := f.fields_finite neg ((Nat.div_lt_iff_lt_mul f.unit_pos).mpr h.finite) (Nat.mod_lt k f.unit_pos)
  rw [Nat.div_add_mod'] at holds
  obtain ⟨rfl, rfl⟩ := h.unique holds
  exact value

/-- A significand at an exponent is a finite code. -/
theorem value_of_holds (h : f.Wide) {k E m : Nat} (hk : f.Holds k E m) (neg : Bool) :
    f.value (f.signed neg k) = .fin neg m (f.minE + E) := by
  rw [value_signed h neg (hk.finite.trans f.infBits_lt), fields_of_holds hk]

/-- A rounded significand, which may have carried into the next exponent: R85. -/
theorem realOf_rounded (h : f.Wide) (neg : Bool) {E q : Nat} (hq : q ≤ f.unit + f.unit) (normal : f.unit ≤ q ∨ E = 0)
    (hm : E * f.unit + q < f.infBits) : realOf f (f.signed neg (E * f.unit + q)) = some (dyadic neg q (f.minE + E)) := by
  rcases hq.lt_or_eq with bits | rfl
  · exact realOf_of_value (value_of_holds h ⟨rfl, bits, normal, hm⟩ neg)
  · have carried : f.Holds (E * f.unit + (f.unit + f.unit)) (E + 1) f.unit :=
      ⟨by rw [Nat.succ_mul, add_assoc], Nat.lt_add_of_pos_left f.unit_pos, .inl le_rfl, hm⟩
    rw [realOf_of_value (value_of_holds h carried neg), ← mul_two, dyadic_double, Nat.cast_succ, add_assoc]

/-! ### The numbers of a format -/

/-- A number of at most p bits at an exponent from the least up: R85. -/
def Grid (f : FloatFmt) (y : ℚ) : Prop := ∃ (z : Int) (k : Nat), |z| < (f.unit + f.unit : Nat) ∧ y = z * (2 : ℚ) ^ (f.minE + k)

theorem Grid.neg {y : ℚ} (hy : f.Grid y) : f.Grid (-y) := by
  obtain ⟨z, k, bits, rfl⟩ := hy
  exact ⟨-z, k, by rwa [abs_neg], by rw [Int.cast_neg, neg_mul]⟩

theorem grid_of_realOf (h : f.Wide) {w : Nat} {y : ℚ} (hw : realOf f w = some y) : f.Grid y := by
  obtain ⟨neg, m, e, value, rfl⟩ := value_of_realOf hw
  obtain ⟨-, k, rfl, holds⟩ := holds_of_value h value
  have grid : f.Grid (dyadic false m (f.minE + k)) :=
    ⟨m, k, by rw [Nat.abs_cast]; exact Int.ofNat_lt.mpr holds.bits, by rw [dyadic_pos, Int.cast_natCast]⟩
  cases neg with
  | false => exact grid
  | true => exact dyadic_neg m _ ▸ grid.neg

/-- No number of the format lies nearer to x than y, and one equally near leaves y as the even one. -/
def Nearest (f : FloatFmt) (x y : ℚ) (even : Prop) : Prop :=
  ∀ y', f.Grid y' → |x - y| ≤ |x - y'| ∧ (|x - y| = |x - y'| → y' ≠ y → even)

theorem Nearest.neg {x y : ℚ} {even : Prop} (h : f.Nearest x y even) : f.Nearest (-x) (-y) even := by
  intro y' hy
  have flip (z : ℚ) : |-x - z| = |x - -z| := by rw [← abs_neg, neg_sub', neg_neg]
  have mirrored := h (-y') hy.neg
  rw [← flip, ← neg_neg y, ← flip, neg_neg] at mirrored
  exact mirrored.imp_right fun tie same ne => tie same fun eq => ne (neg_eq_iff_eq_neg.mp eq)

/-! ### The one rounding -/

/-- The significand x at the E-th exponent from the least, rounded there: at the least exponent, or in its last binade. -/
structure Rounded (f : FloatFmt) (t : ℚ) (E q : Nat) : Prop where
  near : halfEven t q
  below : t < (f.unit + f.unit : Nat)
  normal : f.unit ≤ t ∨ E = 0

theorem round_at {neg : Bool} {m : Nat} (hm : m ≠ 0) {e : Int} {E : Nat}
    (place : f.minE + E = max (e + (m.log2 + 1 : Nat) - f.p) f.minE) : f.round neg m e =
      if f.infBits ≤ E * f.unit + rne m (e - (f.minE + E)) then { bits := f.signed neg f.infBits, overflow := true }
      else { bits := f.signed neg (E * f.unit + rne m (e - (f.minE + E))) } := by
  rw [round, if_neg hm]
  dsimp only
  rw [← place, rne_sub, add_sub_cancel_left, Int.toNat_natCast]
  rfl

/-- `round` puts a magnitude at an exponent and rounds it there to an integer, half to even. -/
theorem round_eq (h : f.Wide) (neg : Bool) {m : Nat} (hm : m ≠ 0) (e : Int) : ∃ (t : ℚ) (E q : Nat), f.Rounded t E q ∧
    dyadic false m e = t * 2 ^ (f.minE + E) ∧
    f.round neg m e = if f.infBits ≤ E * f.unit + q then { bits := f.signed neg f.infBits, overflow := true }
      else { bits := f.signed neg (E * f.unit + q) } := by
  obtain ⟨E, place⟩ := Int.le.dest (le_max_right (e + (m.log2 + 1 : Nat) - f.p) f.minE)
  refine ⟨_, E, _, ⟨halfEven_rne .., ?_, ?_⟩, by rw [dyadic_shift, sub_add_cancel], round_at hm place⟩
  · refine (dyadic_log hm _).2.trans_le ?_
    rw [← pow_p h, Nat.cast_pow, Nat.cast_ofNat, ← zpow_natCast, place]
    refine zpow_le_zpow_right₀ one_le_two ?_
    rw [← add_sub_assoc, sub_le_iff_le_add', add_comm _ e, ← sub_le_iff_le_add]
    exact le_max_left ..
  · refine (max_choice (e + (m.log2 + 1 : Nat) - f.p) f.minE).imp (fun top => ?_) fun bottom => ?_
    · refine le_trans (le_of_eq ?_) (dyadic_log hm _).1
      rw [unit, Nat.cast_pow, Nat.cast_ofNat, ← zpow_natCast, Nat.cast_pred (zero_lt_two.trans_le h.1), place, top, Nat.cast_succ]
      congr 1
      lia
    · exact Int.natCast_eq_zero.mp (add_eq_left.mp (place.trans bottom))

end FloatFmt

namespace FloatFmt.Rounded

variable {f : FloatFmt} {t : ℚ} {E q : Nat}

theorem le_pow (r : f.Rounded t E q) : q ≤ f.unit + f.unit :=
  Int.ofNat_le.mp (halfEven_mono r.below.le r.near (halfEven_int (f.unit + f.unit : Nat)))

theorem pow_le (r : f.Rounded t E q) : f.unit ≤ q ∨ E = 0 :=
  r.normal.imp_left fun normal => Int.ofNat_le.mp (halfEven_mono normal (halfEven_int f.unit) r.near)

/-- The largest finite value and half an ulp. -/
theorem limit_eq (h : f.Wide) : (2 : ℚ) ^ (128 : Int) - 2 ^ (127 - f.p : Int) = ((f.unit + f.unit : Nat) - 1 / 2) * 2 ^ (f.minE + (253 : Nat)) := by
  have place : f.minE + (253 : Nat) = 128 - f.p := h.2 ▸ sub_add_eq_add_sub (-125) (f.p : Int) 253
  have half : (127 : Int) - f.p = -1 + (128 - f.p) := by rw [neg_add_eq_sub, sub_right_comm]; rfl
  rw [place, half, ← zpow_two_mul (-1), zpow_neg_one, one_div, sub_mul, ← pow_p h, Nat.cast_pow, Nat.cast_ofNat, ← zpow_natCast, zpow_two_mul,
    add_sub_cancel]

/-- The code of infinity, by its last binade. -/
theorem infBits_eq (f : FloatFmt) : f.infBits = 253 * f.unit + (f.unit + f.unit) := by
  rw [← two_mul, ← add_mul]
  rfl

/-- Half a unit below the next power of two is rounded up to it. -/
theorem halfEven_limit (f : FloatFmt) : halfEven ((f.unit + f.unit : Nat) - 1 / 2) (f.unit + f.unit : Nat) := by
  rw [halfEven, Int.cast_natCast, sub_sub_cancel_left, abs_neg, abs_of_pos one_half_pos, ← two_mul]
  exact ⟨le_rfl, fun _ => by rw [Nat.cast_mul]; exact Int.mul_emod_right 2 _⟩

theorem next_binade (f : FloatFmt) (k : Nat) : ((f.unit + f.unit : Nat) : ℚ) * 2 ^ (f.minE + k) = f.unit * 2 ^ (f.minE + (k + 1 : Nat)) := by
  rw [← dyadic_pos, ← dyadic_pos, ← mul_two, dyadic_double, Nat.cast_succ, add_assoc]

theorem zpow_two_mono (e : Int) {j k : Nat} (h : j ≤ k) : (2 : ℚ) ^ (e + j) ≤ 2 ^ (e + k) :=
  zpow_le_zpow_right₀ one_le_two (add_le_add_right (Int.ofNat_le.mpr h) e)

/-- The rounded significand reaches infinity exactly beyond the largest finite value and half an ulp: R85. -/
theorem overflow_iff (h : f.Wide) (r : f.Rounded t E q) :
    f.infBits ≤ E * f.unit + q ↔ (2 : ℚ) ^ (128 : Int) - 2 ^ (127 - f.p : Int) ≤ t * 2 ^ (f.minE + E) := by
  have pos (e : Int) : (0 : ℚ) < 2 ^ e := zpow_pos two_pos e
  rw [limit_eq h, infBits_eq]
  rcases lt_trichotomy E 253 with small | rfl | big
  · refine iff_of_false (not_le.mpr ?_) (not_le.mpr ?_)
    · exact Nat.add_lt_add_of_lt_of_le (Nat.mul_lt_mul_of_pos_right small f.unit_pos) r.le_pow
    calc t * 2 ^ (f.minE + E) < (f.unit + f.unit : Nat) * 2 ^ (f.minE + E) := mul_lt_mul_of_pos_right r.below (pos _)
      _ ≤ (f.unit + f.unit : Nat) * 2 ^ (f.minE + (252 : Nat)) :=
          mul_le_mul_of_nonneg_left (zpow_two_mono _ (Nat.le_of_lt_succ small)) (Nat.cast_nonneg _)
      _ = f.unit * 2 ^ (f.minE + (253 : Nat)) := next_binade f 252
      _ ≤ _ := mul_le_mul_of_nonneg_right (by
          rw [le_sub_iff_add_le, Nat.cast_add]
          exact add_le_add_right (one_half_lt_one.le.trans (Nat.one_le_cast.mpr f.unit_pos)) _) (pos _).le
  · rw [mul_le_mul_iff_left₀ (pos _), Nat.add_le_add_iff_left, sub_le_iff_le_add]
    exact ⟨fun reached => (Nat.cast_le.mpr reached).trans (sub_le_iff_le_add'.mp (abs_sub_le_iff.mp r.near.1).2),
      fun reached => Int.ofNat_le.mp (halfEven_mono (sub_le_iff_le_add.mpr reached) (halfEven_limit f) r.near)⟩
  · have normal := r.normal.resolve_right (Nat.ne_zero_of_lt big)
    refine iff_of_true ?_ ?_
    · rw [← add_assoc, ← Nat.succ_mul]
      exact add_le_add (Nat.mul_le_mul_right f.unit big) (r.pow_le.resolve_right (Nat.ne_zero_of_lt big))
    calc ((f.unit + f.unit : Nat) - 1 / 2) * (2 : ℚ) ^ (f.minE + (253 : Nat)) ≤ (f.unit + f.unit : Nat) * 2 ^ (f.minE + (253 : Nat)) :=
          mul_le_mul_of_nonneg_right (sub_le_self _ one_half_pos.le) (pos _).le
      _ = f.unit * 2 ^ (f.minE + (254 : Nat)) := next_binade f 253
      _ ≤ t * 2 ^ (f.minE + E) := mul_le_mul normal (zpow_two_mono _ big) (pos _).le ((Nat.cast_nonneg _).trans normal)

/-- A number of the format in units of an exponent: an integer there, or below a magnitude with a leading 1. -/
theorem grid_place (r : f.Rounded t E q) {y : ℚ} (hy : f.Grid y) : ∃ z : ℚ, y = z * 2 ^ (f.minE + E) ∧
    ((∃ i : Int, z = i) ∨ ∃ c : Int, z < c ∧ c ≤ t) := by
  obtain ⟨i, k, bits, rfl⟩ := hy
  refine ⟨i * 2 ^ (k - E : Int), by rw [mul_assoc, zpow_two_mul, add_left_comm, sub_add_cancel], ?_⟩
  rcases Nat.lt_or_ge k E with finer | coarser
  · refine .inr ⟨f.unit, ?_, r.normal.resolve_right (Nat.ne_zero_of_lt finer)⟩
    have step : (k - E : Int) ≤ -1 := 
      sub_le_iff_le_add.mpr ((Int.le_sub_one_of_lt (Int.ofNat_lt.mpr finer)).trans_eq (neg_add_eq_sub ..).symm)
    calc (i : ℚ) * 2 ^ (k - E : Int) < (f.unit + f.unit : Nat) * 2 ^ (k - E : Int) :=
          mul_lt_mul_of_pos_right (by exact_mod_cast (le_abs_self i).trans_lt bits) (zpow_pos two_pos _)
      _ ≤ (f.unit + f.unit : Nat) * 2 ^ (-1 : Int) := mul_le_mul_of_nonneg_left (zpow_le_zpow_right₀ one_le_two step) (Nat.cast_nonneg _)
      _ = f.unit := by rw [zpow_neg_one, Nat.cast_add, ← two_mul, mul_comm, inv_mul_cancel_left₀ two_ne_zero]
  · refine .inl ⟨i * 2 ^ (k - E), ?_⟩
    rw [← Nat.cast_sub coarser, zpow_natCast, Int.cast_mul, Int.cast_pow, Int.cast_ofNat]

/-- No number of the format lies nearer than the rounded one, and of two equally near the rounded one is even: R85. -/
theorem nearest (r : f.Rounded t E q) : f.Nearest (t * 2 ^ (f.minE + E)) (dyadic false q (f.minE + E)) (q % 2 = 0) := by
  intro y hy
  obtain ⟨z, rfl, place⟩ := r.grid_place hy
  have near := halfEven_scaled (halfEven_le r.near place) (zpow_pos two_pos (f.minE + E))
  rw [Int.cast_natCast, ← dyadic_pos] at near
  exact ⟨near.1, fun tie ne => Int.ofNat_inj.mp (near.2 tie ne)⟩

end FloatFmt.Rounded

/-! ### Rounding to a format -/

/-- A sign and whole units leave the last bit of a code to the significand. -/
theorem FloatFmt.signed_mod_two {f : FloatFmt} (h : f.Wide) (neg : Bool) (E q : Nat) : f.signed neg (E * f.unit + q) % 2 = q % 2 := by
  have unit : 2 ∣ f.unit := dvd_pow_self 2 (Nat.sub_ne_zero_of_lt h.1)
  have even {a : Nat} (ha : 2 ∣ a) (b : Nat) : (a + b) % 2 = b % 2 := by
    obtain ⟨k, rfl⟩ := ha
    exact Nat.mul_add_mod 2 k b
  cases neg with
  | false => exact even (unit.mul_left E) q
  | true => exact (even (signBit_eq h ▸ unit.mul_left 256) _).trans (even (unit.mul_left E) q)

theorem abs_dyadic (neg : Bool) (m : Nat) (e : Int) : |dyadic neg m e| = dyadic false m e := by
  have nonneg : 0 ≤ dyadic false m e := dyadic_pos m e ▸ mul_nonneg (Nat.cast_nonneg m) (zpow_nonneg zero_le_two e)
  cases neg with
  | false => exact abs_of_nonneg nonneg
  | true => rw [dyadic_neg, abs_neg, abs_of_nonneg nonneg]

theorem sign_dyadic (neg : Bool) {m : Nat} (hm : m ≠ 0) (e : Int) : decide (dyadic neg m e < 0) = neg := by
  cases neg with
  | false => exact decide_eq_false (dyadic_positive hm e).le.not_gt
  | true => exact decide_eq_true (dyadic_neg m e ▸ neg_lt_zero.mpr (dyadic_positive hm e))

/-- The largest finite value and half an ulp: R85. -/
theorem roundsTo_beyond {f : FloatFmt} {x : ℚ} (h : (2 : ℚ) ^ (128 : Int) - 2 ^ (127 - f.p : Int) ≤ |x|) {neg : Bool}
    (sign : decide (x < 0) = neg) : roundsTo f x (f.signed neg f.infBits) := by
  subst sign
  exact (if_neg h.not_gt).mpr rfl

theorem roundsTo_within {f : FloatFmt} (wide : f.Wide) {x y : ℚ} {w : Nat} (h : |x| < (2 : ℚ) ^ (128 : Int) - 2 ^ (127 - f.p : Int))
    (code : realOf f w = some y) (near : f.Nearest x y (w % 2 = 0)) : roundsTo f x w :=
  (if_pos h).mpr ⟨y, code, fun _ y' hw => near y' (f.grid_of_realOf wide hw)⟩

theorem roundsTo_zero {f : FloatFmt} (h : f.Wide) (neg : Bool) : roundsTo f 0 (f.signed neg 0) := by
  have code := FloatFmt.realOf_rounded h neg (E := 0) (q := 0) (Nat.zero_le _) (.inr rfl)
    (by rw [zero_mul]; exact Nat.mul_pos (by decide) f.unit_pos)
  have even := FloatFmt.signed_mod_two h neg 0 0
  rw [zero_mul] at code even
  rw [dyadic_zero] at code
  have least : 127 - f.p < (128 : Int) := (sub_le_self _ (Int.natCast_nonneg _)).trans_lt (by decide)
  refine roundsTo_within h (abs_zero.trans_lt (sub_pos.mpr (zpow_lt_zpow_right₀ one_lt_two least))) code fun y' _ => ⟨?_, fun _ _ => even⟩
  rw [sub_zero, abs_zero]
  exact abs_nonneg _

/-- `round` is the one rounding of R85 and R88: the exact number to the nearest code, ties to even, or to the infinity beyond them all. -/
theorem FloatFmt.round_roundsTo {f : FloatFmt} (h : f.Wide) (neg : Bool) (m : Nat) (e : Int) :
    roundsTo f (dyadic neg m e) (f.round neg m e).bits := by
  by_cases hm : m = 0
  · rw [hm, dyadic_zero, FloatFmt.round, if_pos rfl]
    exact roundsTo_zero h neg
  obtain ⟨t, E, q, r, number, result⟩ := f.round_eq h neg hm e
  have size := (abs_dyadic neg m e).trans number
  rw [result]
  by_cases beyond : f.infBits ≤ E * f.unit + q
  · rw [if_pos beyond]
    exact roundsTo_beyond (size ▸ (r.overflow_iff h).mp beyond) (sign_dyadic neg hm e)
  · rw [if_neg beyond]
    refine roundsTo_within h (size ▸ not_le.mp (mt (r.overflow_iff h).mpr beyond))
      (f.realOf_rounded h neg r.le_pow r.pow_le (Nat.lt_of_not_le beyond)) ?_
    rw [FloatFmt.signed_mod_two h]
    cases neg with
    | false => exact number ▸ r.nearest
    | true =>
      rw [dyadic_neg, dyadic_neg, number]
      exact r.nearest.neg

end Sys2Proof.Machine
end

section
/-!
PROOFS. Sum, product and fused multiply-add as exact numbers rounded once (R85, R86), and the elementwise float rows (R90, R110, R114).
-/

namespace Sys2Proof.Machine

open Claim

/-! ### Exact sums and products -/

theorem dyadic_mul (s1 s2 : Bool) (m1 m2 : Nat) (e1 e2 : Int) :
    dyadic s1 m1 e1 * dyadic s2 m2 e2 = dyadic (s1 != s2) (m1 * m2) (e1 + e2) := by
  have sign : (if s1 then -1 else 1 : ℚ) * (if s2 then -1 else 1) = if s1 != s2 then -1 else 1 := by
    cases s1 <;> cases s2
    · exact one_mul _
    · exact one_mul _
    · exact mul_one _
    · exact (neg_mul_neg 1 1).trans (one_mul 1)
  rw [dyadic, dyadic, dyadic, mul_mul_mul_comm, mul_mul_mul_comm _ (m1 : ℚ), sign, zpow_two_mul, Nat.cast_mul]

theorem dyadic_cast (neg : Bool) (n : Nat) (e : Int) : ((if neg then -(n : Int) else n : Int) : ℚ) * (2 : ℚ) ^ e = dyadic neg n e := by
  cases neg with
  | false => exact (congrArg (· * _) (Int.cast_natCast n)).trans (dyadic_pos n e).symm
  | true => rw [if_pos rfl, Int.cast_neg, Int.cast_natCast, neg_mul, dyadic_neg, dyadic_pos]

/-- A number moved to a lower exponent. -/
theorem dyadic_lower (neg : Bool) (m : Nat) {e e' : Int} (h : e' ≤ e) :
    ((if neg then -((m * 2 ^ (e - e').toNat : Nat) : Int) else (m * 2 ^ (e - e').toNat : Nat) : Int) : ℚ) * (2 : ℚ) ^ e' = dyadic neg m e := by
  rw [dyadic_cast, dyadic_scaled, Int.toNat_of_nonneg (sub_nonneg.mpr h), add_sub_cancel]

/-- The exact sum of R85. -/
theorem dyadicAdd_spec (s1 s2 : Bool) (m1 m2 : Nat) (e1 e2 : Int) :
    ((dyadicAdd s1 m1 e1 s2 m2 e2).1 : ℚ) * 2 ^ (dyadicAdd s1 m1 e1 s2 m2 e2).2 = dyadic s1 m1 e1 + dyadic s2 m2 e2 := by
  rw [← dyadic_lower s1 m1 (min_le_left e1 e2), ← dyadic_lower s2 m2 (min_le_right e1 e2), ← add_mul, ← Int.cast_add]
  rfl

namespace FloatFmt

variable {f : FloatFmt}

theorem addV_fin (f : FloatFmt) (s1 s2 : Bool) (m1 m2 : Nat) (e1 e2 : Int) : f.addV (.fin s1 m1 e1) (.fin s2 m2 e2) =
    if (dyadicAdd s1 m1 e1 s2 m2 e2).1 = 0 then { bits := f.signed (s1 && s2) 0 }
    else f.round ((dyadicAdd s1 m1 e1 s2 m2 e2).1 < 0) (dyadicAdd s1 m1 e1 s2 m2 e2).1.natAbs (dyadicAdd s1 m1 e1 s2 m2 e2).2 := rfl

/-- A sum of finite numbers is rounded once: R85. -/
theorem addV_roundsTo (h : f.Wide) (s1 s2 : Bool) (m1 m2 : Nat) (e1 e2 : Int) :
    roundsTo f (dyadic s1 m1 e1 + dyadic s2 m2 e2) (f.addV (.fin s1 m1 e1) (.fin s2 m2 e2)).bits := by
  rw [addV_fin, ← dyadicAdd_spec]
  generalize dyadicAdd s1 m1 e1 s2 m2 e2 = sum
  by_cases zero : sum.1 = 0
  · rw [if_pos zero, zero, Int.cast_zero, zero_mul]
    exact roundsTo_zero h _
  · rw [if_neg zero, ← dyadic_int]
    exact f.round_roundsTo h _ _ _

/-- An exact zero sum of opposite signs is +0: R86. -/
theorem addV_opposite (f : FloatFmt) {s1 s2 : Bool} {m1 m2 : Nat} {e1 e2 : Int} (zero : dyadic s1 m1 e1 + dyadic s2 m2 e2 = 0)
    (ne : s1 ≠ s2) : (f.addV (.fin s1 m1 e1) (.fin s2 m2 e2)).bits = 0 := by
  rw [← dyadicAdd_spec] at zero
  have positive : (s1 && s2) = false := by
    cases s1
    · rfl
    · exact (Bool.true_and s2).trans (Bool.eq_false_iff.mpr ne.symm)
  rw [addV_fin, if_pos (Int.cast_eq_zero.mp ((mul_eq_zero.mp zero).resolve_right (zpow_ne_zero _ two_ne_zero))), positive]
  rfl

theorem addV_nan (f : FloatFmt) {x y : FVal} (h : x = .nan ∨ y = .nan) : f.addV x y = f.nan false := by
  rcases h with rfl | rfl
  · rfl
  · cases x <;> rfl

theorem mulV_nan (f : FloatFmt) {x y : FVal} (h : x = .nan ∨ y = .nan) : f.mulV x y = f.nan false := by
  rcases h with rfl | rfl
  · rfl
  · cases x <;> rfl

theorem value_inf (h : f.Wide) (neg : Bool) : f.value (f.signed neg f.infBits) = .inf neg := by
  rw [value_signed h neg f.infBits_lt, show f.infBits = 255 * f.unit from rfl, Nat.mul_div_cancel _ f.unit_pos, Nat.mul_mod_left]
  rfl

theorem value_zero (h : f.Wide) : f.value 0 = .fin false 0 f.minE := by
  have zero := value_of_holds h (k := 0) (E := 0) (m := 0)
    ⟨(Nat.zero_mul _).symm, Nat.add_pos_left f.unit_pos _, .inr rfl, Nat.mul_pos (by decide) f.unit_pos⟩ false
  rwa [Nat.cast_zero, add_zero] at zero

end FloatFmt

/-- The sum of finite operands: R85. -/
theorem add_finite {f : FloatFmt} (h : f.Wide) {a b : Nat} {x y : ℚ} (hx : realOf f a = some x) (hy : realOf f b = some y) :
    roundsTo f (x + y) (f.addV (f.value a) (f.value b)).bits := by
  obtain ⟨s1, m1, e1, va, rfl⟩ := value_of_realOf hx
  obtain ⟨s2, m2, e2, vb, rfl⟩ := value_of_realOf hy
  rw [va, vb]
  exact f.addV_roundsTo h ..

/-- An exact zero sum of finite operands of opposite signs: R86. -/
theorem add_cancels {f : FloatFmt} (h : f.Wide) {a b : Nat} {x y : ℚ} (hx : realOf f a = some x) (hy : realOf f b = some y)
    (zero : x + y = 0) (ne : a.testBit (f.p + 7) ≠ b.testBit (f.p + 7)) : (f.addV (f.value a) (f.value b)).bits = 0 := by
  obtain ⟨s1, m1, e1, va, rfl⟩ := value_of_realOf hx
  obtain ⟨s2, m2, e2, vb, rfl⟩ := value_of_realOf hy
  rw [(f.holds_of_value h va).1, (f.holds_of_value h vb).1] at ne
  rw [va, vb]
  exact f.addV_opposite zero ne

/-- The exact product of finite operands: R85. -/
theorem mul_finite {f : FloatFmt} {a b : Nat} {x y : ℚ} (hx : realOf f a = some x) (hy : realOf f b = some y) :
    ∃ neg m e, (f.value a).mul (f.value b) = some (.fin neg m e) ∧ x * y = dyadic neg m e := by
  obtain ⟨s1, m1, e1, va, rfl⟩ := value_of_realOf hx
  obtain ⟨s2, m2, e2, vb, rfl⟩ := value_of_realOf hy
  exact ⟨_, _, _, (congr (congrArg FVal.mul va) vb).trans rfl, dyadic_mul ..⟩

/-- The product of finite operands: R85. -/
theorem mul_rounded {f : FloatFmt} (h : f.Wide) {a b : Nat} {x y : ℚ} (hx : realOf f a = some x) (hy : realOf f b = some y) :
    roundsTo f (x * y) (f.mulV (f.value a) (f.value b)).bits := by
  obtain ⟨s, m, e, product, exact⟩ := mul_finite hx hy
  rw [FloatFmt.mulV, product, exact]
  exact f.round_roundsTo h s m e

/-- The product and sum of finite operands, rounded once: R85. -/
theorem fma_finite {f : FloatFmt} (h : f.Wide) {a b c : Nat} {x y z : ℚ} (hx : realOf f a = some x) (hy : realOf f b = some y)
    (hz : realOf f c = some z) : roundsTo f (x * y + z) (f.fmaV (f.value a) (f.value b) (f.value c)).bits := by
  obtain ⟨s, m, e, product, exact⟩ := mul_finite hx hy
  obtain ⟨s3, m3, e3, vc, rfl⟩ := value_of_realOf hz
  rw [FloatFmt.fmaV, product, exact, vc]
  exact f.addV_roundsTo h ..

theorem floatArithmetic : Claim.FloatArithmetic := fun f _ _ _ hf =>
  have h : f.Wide := hf.elim (fun e => e ▸ wide_b32) (fun e => e ▸ wide_bf16)
  have infinite (neg : Bool) {a : Nat} (ha : a = f.signed neg f.infBits) : f.value a = .inf neg := ha ▸ f.value_inf h neg
  ⟨fun _ _ hx hy => ⟨add_finite h hx hy, mul_rounded h hx hy, fun _ hz => fma_finite h hx hy hz, add_cancels h hx hy⟩,
   fun nan => ⟨f.addV_nan (nan.imp isNan_iff.mp isNan_iff.mp), f.mulV_nan (nan.imp isNan_iff.mp isNan_iff.mp)⟩,
   fun ha hb => congr (congrArg f.addV (infinite false ha)) (infinite true hb),
   fun ha hb => (congr (congrArg f.mulV (infinite false ha)) (hb ▸ f.value_zero h : f.value _ = .fin false 0 f.minE)).trans rfl⟩

end Sys2Proof.Machine

namespace Sys2Proof

open Machine Claim

/-! ### Elementwise rows -/

/-- What an elementwise row leaves: each active element takes its result and is counted: R87, R110. -/
noncomputable def VSlot.results (v : VSlot) (s : State) (lat : Nat) (r : Nat → FRes) : Core → Core :=
  counted [elemPend s v.core.toNat v.vd lat (tyWidth v.ty) ((v.on s).map fun j => (j, (r j).bits))] 0
    ((v.on s).countP fun j => (r j).invalid) ((v.on s).countP fun j => (r j).overflow)

theorem VSlot.map_eq (v : VSlot) (lat : Nat) (f : Nat → Nat → Nat → FRes) (s : State) :
    v.map lat (fun c j => f (v.a c j) (v.b c j) (v.c c j)) s = s.modCore v.core.toNat
      (v.results s lat fun j => f (elemOf s v v.va j) (elemOf s v v.vb j) (elemOf s v v.vc j)) := by
  simp only [← VSlot.elemAt_eq_elemOf]
  rw [VSlot.results, ← State.numStat_writeElems, VSlot.map, State.countRes, List.map_map, List.map_map, List.countP_map, List.countP_map]
  rfl

end Sys2Proof

namespace Sys2Proof.Machine

open Claim

/-- The opcodes of the elementwise float operations: R90, R114. -/
noncomputable def floatCodes : List Nat := [1, 2, 3, 4, 5, 8, 9, 10, 11, 56, 57, 58, 59, 60, 61]

/-- A slot of another opcode has no float rule. -/
theorem floatRule_other (f : FloatFmt) (v : VSlot) :
    ((List.range 16).all fun a => (List.range 16).all fun b =>
      (ofV (16 * a + b) v).all (fun i => (floatRule i f).isNone) || floatCodes.contains (16 * a + b)) = true := rfl

/-- The slots of the elementwise float operations. -/
noncomputable def floatSlots (v : VSlot) : List Instr := floatCodes.filterMap (ofV · v)

theorem mem_floatSlots {i : Instr} {op : BitVec 8} {v : VSlot} {f : FloatFmt} {g : Nat → Nat → Nat → FRes} (hop : opV i = some (op, v))
    (hf : floatRule i f = some g) : i ∈ floatSlots v := by
  have slot := ofV_of_opV hop
  have code := List.all_eq_true.mp (List.all_eq_true.mp (floatRule_other f v) (op.toNat / 16)
    (List.mem_range.mpr (Nat.div_lt_of_lt_mul op.isLt))) (op.toNat % 16) (List.mem_range.mpr (Nat.mod_lt _ (by decide)))
  rw [Nat.div_add_mod, slot, Option.all_some, hf] at code
  exact List.mem_filterMap.mpr ⟨op.toNat, List.contains_iff_mem.mp code, slot⟩

/-- A float row maps its operation over the active elements: R90, R114. -/
def FloatRow (v : VSlot) (i : Instr) : Prop := ∀ f, floatRule i v.fmt = some f →
  SlotShape i v.core (v.map (vLatency i v) fun c j => f (v.a c j) (v.b c j) (v.c c j))

section Rows

variable {i : Instr} {v : VSlot} {lat : Nat}

theorem floatRow_of {f : Nat → Nat → Nat → FRes} {act : State → State} (rule : floatRule i v.fmt = some f) (latency : vLatency i v = lat)
    (shape : SlotShape i v.core act) (maps : act = v.map lat fun c j => f (v.a c j) (v.b c j) (v.c c j)) : FloatRow v i :=
  fun _ hf => Option.some.inj (rule.symm.trans hf) ▸ latency ▸ maps ▸ shape

/-- The rows of two operands that also have an integer form: R114, R115. -/
theorem floatRow_op2 {act : State → State} {fl : FloatFmt → Nat → Nat → FRes} {int : Nat → Nat → Nat → Nat} (hty : v.ty ≤ 1)
    (shape : SlotShape i v.core act) (op2 : ∀ s, act s = v.op2 lat fl int s) (rule : floatRule i v.fmt = some fun a b _ => fl v.fmt a b)
    (latency : vLatency i v = lat) : FloatRow v i := by
  refine floatRow_of rule latency shape (funext fun s => (op2 s).trans ?_)
  simp only [VSlot.op2, if_pos hty]

/-- The functions of R90 on binary32 act on bfloat16 through it. -/
theorem floatRow_func {g : Nat → FRes} (rule : floatRule i v.fmt = some fun a _ _ => if v.fmt = bf16 then onBf16 g a else g a)
    (latency : vLatency i v = 14) {act : State → State} (shape : SlotShape i v.core act) (func : ∀ s, act s = v.func g s) : FloatRow v i := by
  have same : v.fmt = bf16 ↔ v.ty = 1 := by
    rw [VSlot.fmt]
    split_ifs with one
    · exact iff_of_true rfl one
    · exact iff_of_false (by decide) one
  refine floatRow_of rule latency shape (funext fun s => (func s).trans ?_)
  simp only [VSlot.func, same]

end Rows

theorem floatSlots_rows {v : VSlot} (hty : v.ty ≤ 1) : ∀ i ∈ floatSlots v, FloatRow v i := by
  rw [show floatSlots v = [.vAdd v, .vSub v, .vMul v, .vFma v, .vFnma v, .vMin v, .vMax v, .vAbs v, .vNeg v, .vExp v, .vLog v, .vRcp v,
    .vRsqrt v, .vTanh v, .vErf v] from rfl]
  refine List.forall_mem_cons.mpr ⟨?_, List.forall_mem_cons.mpr ⟨?_, List.forall_mem_cons.mpr ⟨?_, List.forall_mem_cons.mpr ⟨?_,
    List.forall_mem_cons.mpr ⟨?_, List.forall_mem_cons.mpr ⟨?_, List.forall_mem_cons.mpr ⟨?_, List.forall_mem_cons.mpr ⟨?_,
    List.forall_mem_cons.mpr ⟨?_, List.forall_mem_cons.mpr ⟨?_, List.forall_mem_cons.mpr ⟨?_, List.forall_mem_cons.mpr ⟨?_,
    List.forall_mem_cons.mpr ⟨?_, List.forall_mem_cons.mpr ⟨?_, List.forall_mem_cons.mpr ⟨?_, fun _ none => absurd none List.not_mem_nil⟩⟩⟩⟩⟩⟩⟩⟩⟩⟩⟩⟩⟩⟩⟩
  case refine_4 | refine_5 => exact floatRow_of (lat := 6) rfl rfl (.slot rfl _ fun _ => rfl) rfl
  case refine_8 | refine_9 =>
    exact floatRow_of (lat := 4) rfl rfl (.slot rfl _ fun _ => rfl) (by funext s; simp only [actVAbs, actVNeg, if_pos hty])
  case refine_3 => exact floatRow_op2 (lat := 5) hty (.slot rfl _ fun _ => rfl) (fun _ => rfl) rfl rfl
  case refine_1 | refine_2 | refine_6 | refine_7 => exact floatRow_op2 (lat := 4) hty (.slot rfl _ fun _ => rfl) (fun _ => rfl) rfl rfl
  all_goals exact floatRow_func rfl rfl (.slot rfl _ fun _ => rfl) fun _ => rfl

theorem vectorFloats : Claim.VectorFloats := fun s i _ v f hop hty hf hi =>
  exists_four ⟨(floatSlots_rows hty i (mem_floatSlots hop hf) f hf).exec_eq hi (v.map_eq _ f s) rfl, congrArg Core.pipe (s.core_modCore ..),
    fun old _ hj => elemAt_landed old (v.nodup_on s) (v.mem_on s) _ (element_fits hj), v.nodup_on s, v.mem_on s,
    congrArg Core.invalid (s.core_modCore ..), congrArg Core.overflow (s.core_modCore ..)⟩

/-- Settles O17: every result is an exact number rounded once (`FloatFmt.round_roundsTo`), and each row maps its operation over the active
elements (`floatSlots_rows`, `VSlot.map_eq`). -/
theorem floatRows : Obligations.FloatRows := ⟨vectorFloats, floatArithmetic⟩

end Sys2Proof.Machine
end

section
/-!
PROOFS. Conversions between formats (R88, R117).
-/

namespace Sys2Proof.Machine

open Claim

/-! ### Values -/

/-- To an integer: the exact product rounded half to even and clamped: R88. -/
theorem b32ToInt_finite {lo hi : Int} {x f : Nat} {a b : ℚ} (ha : realOf b32 x = some a) (hb : realOf b32 f = some b) :
    ∃ q : Int, halfEven (a * b) q ∧ b32ToInt lo hi x f = (max lo (min hi q), decide (q < lo ∨ hi < q), false) := by
  obtain ⟨s1, m1, e1, va, rfl⟩ := value_of_realOf ha
  obtain ⟨s2, m2, e2, vb, rfl⟩ := value_of_realOf hb
  refine ⟨_, dyadic_mul s1 s2 m1 m2 e1 e2 ▸ halfEven_rhe _ _ _, ?_⟩
  rw [b32ToInt, va, vb]
  rfl

/-- From an integer: the exact product rounded once: R88. -/
theorem intToB32_roundsTo (q : Int) {f : Nat} {b : ℚ} (hb : realOf b32 f = some b) : roundsTo b32 (q * b) (intToB32 q f).bits := by
  obtain ⟨s, m, e, vb, rfl⟩ := value_of_realOf hb
  have whole := dyadic_int q 0
  rw [zpow_zero, mul_one] at whole
  rw [intToB32, vb, ← whole, dyadic_mul]
  exact b32.round_roundsTo wide_b32 ..

/-- binary32 to bfloat16: rounded once: R88. -/
theorem narrow_roundsTo {x : Nat} {a : ℚ} (ha : realOf b32 x = some a) : roundsTo bf16 a (narrow x).bits := by
  obtain ⟨s, m, e, va, rfl⟩ := value_of_realOf ha
  rw [narrow, va]
  exact bf16.round_roundsTo wide_bf16 s m e

/-- A bfloat16 code with 16 more bits of fraction holds the same number in binary32: R85, R88. -/
theorem holds_widened {k E m : Nat} (h : bf16.Holds k E m) : b32.Holds (k * 2 ^ 16) E (m * 2 ^ 16) := by
  obtain ⟨code, bits, normal, finite⟩ := h
  have unit : b32.unit = bf16.unit * 2 ^ 16 := rfl
  have infinity : b32.infBits = bf16.infBits * 2 ^ 16 := rfl
  refine ⟨?_, ?_, normal.imp_left fun normal => ?_, ?_⟩
  · rw [code, unit, ← mul_assoc, ← add_mul]
  · rw [unit, ← add_mul]
    exact Nat.mul_lt_mul_of_pos_right bits (Nat.two_pow_pos 16)
  · rw [unit]
    exact Nat.mul_le_mul_right _ normal
  · rw [infinity]
    exact Nat.mul_lt_mul_of_pos_right finite (Nat.two_pow_pos 16)

theorem widen_exact {x : Nat} {a : ℚ} (ha : realOf bf16 x = some a) : realOf b32 (widen x) = some a := by
  obtain ⟨s, m, e, va, rfl⟩ := value_of_realOf ha
  obtain ⟨sign, E, rfl, holds⟩ := FloatFmt.holds_of_value wide_bf16 va
  have number : ¬ bf16.isNan x = true := by
    rw [isNan_iff, va]
    exact FVal.noConfusion
  have fields : b32.value (x * 2 ^ 16) = .fin s (m * 2 ^ 16) (b32.minE + E) := by
    have same : (x * 2 ^ 16).testBit (b32.p + 7) = s := by
      rw [Nat.testBit_mul_two_pow]
      exact sign
    rw [FloatFmt.value_eq_fields, same, show b32.signBit = bf16.signBit * 2 ^ 16 from rfl, Nat.mul_mod_mul_right]
    exact FloatFmt.fields_of_holds (holds_widened holds) s
  have same := realOf_of_value fields
  rw [dyadic_scaled, add_right_comm] at same
  rw [widen, if_neg number]
  exact same

theorem conversionResults : Claim.ConversionResults :=
  ⟨fun _ _ _ _ _ _ _ ha hb =>
    let ⟨q, ⟨near, even⟩, result⟩ := b32ToInt_finite ha hb
    ⟨q, near, even, result⟩,
   fun q _ _ hb => intToB32_roundsTo q hb, fun _ _ ha => narrow_roundsTo ha, fun _ _ _ ha => widen_exact ha⟩

/-! ### The conversion row -/

/-- The slices of the narrower side fill its register: R117. -/
theorem cvtParts_fill : ∀ ty dty : Fin 16, ∀ n ∈ cvtParts ty dty,
    (if ty.val = 8 then 32 else 64) * (if dty.val = 0 ∧ ty.val ≠ 8 then 1 else n) ≤ 2048 / tyWidth dty := by decide

/-- An element of slice `part` lies before the end of that slice. -/
theorem slice_fits {slice part n j : Nat} (hj : j < slice) (hp : part < n) : slice * part + j < slice * n :=
  calc slice * part + j < slice * part + slice := Nat.add_lt_add_left hj _
    _ = slice * (part + 1) := (Nat.mul_succ _ _).symm
    _ ≤ slice * n := Nat.mul_le_mul_left _ hp

/-- The narrower side of an admitted conversion lies in one slice of its register: R117. -/
theorem cvtParts_fits {ty dty n part j : Nat} (hty : ty < 16) (hdty : dty < 16) (h : cvtParts ty dty = some n) (hp : part < n)
    (hj : j < if ty = 8 then 32 else 64) :
    (if dty = 0 ∧ ty ≠ 8 then j else (if ty = 8 then 32 else 64) * part + j) < 2048 / tyWidth dty := by
  have fill := cvtParts_fill ⟨ty, hty⟩ ⟨dty, hdty⟩ n h
  dsimp only at fill
  generalize (if ty = 8 then 32 else 64) = slice at hj fill ⊢
  by_cases whole : dty = 0 ∧ ty ≠ 8
  · rw [if_pos whole, mul_one] at fill
    rw [if_pos whole]
    exact hj.trans_le fill
  · rw [if_neg whole] at fill
    rw [if_neg whole]
    exact (slice_fits hj hp).trans_le fill

theorem parts_of_wfCvt {v : VSlot} (h : v.wfCvt = true) : ∃ n, cvtParts v.ty v.dty = some n ∧ v.part < n := by
  rw [VSlot.wfCvt, Bool.and_eq_true] at h
  obtain ⟨parts, -⟩ := h
  cases eq : cvtParts v.ty v.dty with
  | none => exact Bool.noConfusion (show false = true by rwa [eq] at parts)
  | some n => exact ⟨n, rfl, of_decide_eq_true (by rwa [eq] at parts)⟩

end Sys2Proof.Machine
namespace Sys2Proof

open Machine Claim

/-- Element `j` of slice `part` of the narrower side: R117. -/
noncomputable def VSlot.sliceAt (v : VSlot) (j : Nat) : Nat := (if v.ty = 8 then 32 else 64) * v.part + j

/-- Where element `j` of a conversion is written: R117. -/
noncomputable def VSlot.cvtAt (v : VSlot) (j : Nat) : Nat := if v.dty = 0 ∧ v.ty ≠ 8 then j else v.sliceAt j

theorem VSlot.cvtAt_injective (v : VSlot) : Function.Injective v.cvtAt := by
  intro a b same
  by_cases whole : v.dty = 0 ∧ v.ty ≠ 8
  · rwa [VSlot.cvtAt, VSlot.cvtAt, if_pos whole, if_pos whole] at same
  · rw [VSlot.cvtAt, VSlot.cvtAt, if_neg whole, if_neg whole] at same
    exact Nat.add_left_cancel same

/-- Element `j` as a conversion gives it: R88, R117. -/
noncomputable def VSlot.converted (v : VSlot) (c : Core) (j : Nat) : CvtRes :=
  cvtElem v.ty v.dty (elemAt (tyWidth v.ty) (c.readV v.va) (if v.dty = 0 ∧ v.ty ≠ 8 then v.sliceAt j else j))
    (if v.fl then 0x3F800000 else elemAt 32 (c.readV v.vb) j)

/-- The elements that a conversion converts: R110, R117. -/
noncomputable def VSlot.cvtOn (v : VSlot) (c : Core) : List Nat := v.active c (min c.readVl (if v.ty = 8 then 32 else 64)) v.sliceAt

theorem VSlot.nodup_cvtOn (v : VSlot) (c : Core) : (v.cvtOn c).Nodup := v.nodup_active ..

/-- A conversion writes and counts its active elements: R87, R117. -/
theorem VSlot.convert_eq (v : VSlot) (s : State) : v.convert s =
    (let c := s.core v.core.toNat
     s.modCore v.core.toNat (counted
      [elemPend s v.core.toNat v.vd 5 (tyWidth v.dty) ((v.cvtOn c).map fun j => (v.cvtAt j, (v.converted c j).bits))]
      ((v.cvtOn c).countP fun j => (v.converted c j).sat) ((v.cvtOn c).countP fun j => (v.converted c j).invalid)
      ((v.cvtOn c).countP fun j => (v.converted c j).overflow))) := by
  dsimp only
  rw [← State.numStat_writeElems, VSlot.convert]
  dsimp only
  rw [List.map_map, List.countP_map, List.countP_map, List.countP_map]
  rfl

/-- A converted element lies in its register: R117. -/
theorem VSlot.cvtAt_fits {v : VSlot} (h : v.wfCvt = true) {c : Core} {j : Nat} (hj : j ∈ v.cvtOn c) :
    tyWidth v.dty * v.cvtAt j + tyWidth v.dty ≤ 2048 := by
  obtain ⟨n, parts, fits⟩ := parts_of_wfCvt h
  exact element_fits (cvtParts_fits (BitVec.isLt _) (BitVec.isLt _) parts fits (lt_min_iff.mp (VSlot.mem_active.mp hj).1).2)

end Sys2Proof
namespace Sys2Proof.Machine

open Claim

/-- A converted element takes its result: R117. -/
theorem converted_landed {v : VSlot} (h : v.wfCvt = true) (c : Core) (old : BitVec 2048) {j : Nat} (hj : j ∈ v.cvtOn c) :
    elemAt (tyWidth v.dty) (mergeElems (tyWidth v.dty) old ((v.cvtOn c).map fun j => (v.cvtAt j, (v.converted c j).bits))) (v.cvtAt j) =
      (cvtElem v.ty v.dty (elemAt (tyWidth v.ty) (c.readV v.va) (if v.dty = 0 ∧ v.ty ≠ 8 then v.sliceAt j else j))
        (if v.fl then 0x3F800000 else (c.readV v.vb).toNat / 2 ^ (32 * j) % 2 ^ 32)).bits % 2 ^ tyWidth v.dty := by
  rw [elemAt_mergeElems_of_mem old v.cvtAt _ ((v.nodup_cvtOn c).map v.cvtAt_injective) hj (VSlot.cvtAt_fits h hj), VSlot.converted,
    elemAt_eq 32]

theorem vectorConverts : Claim.VectorConverts := fun s v hi =>
  exists_three ⟨SlotShape.exec_eq (.slot rfl _ fun _ => rfl) hi (v.convert_eq s) rfl, congrArg Core.pipe (s.core_modCore ..),
    fun old _ on => converted_landed (wf_of_issuesNow hi) _ old (VSlot.mem_active.mpr on),
    fun old _ hk off => elemAt_mergeElems_of_ne old v.cvtAt _ (element_fits hk) fun j hj same => off j (VSlot.mem_active.mp hj) same.symm⟩

end Sys2Proof.Machine
end

section
/-!
PROOFS. A block of 32 values with its shared exponent (R89).
-/

namespace Sys2Proof.Machine

open Claim

/-! ### Magnitudes -/

/-- The magnitude of a finite binary32 code: R85. -/
theorem magnitude_holds {x : Nat} {r : ℚ} (hr : realOf b32 x = some r) :
    ∃ E m, b32.Holds (x % 2 ^ 31) E m ∧ |r| = dyadic false m (b32.minE + E) := by
  obtain ⟨s, m, e, value, rfl⟩ := value_of_realOf hr
  obtain ⟨-, E, rfl, holds⟩ := FloatFmt.holds_of_value wide_b32 value
  exact ⟨E, m, holds, abs_dyadic ..⟩

/-- Magnitudes are in the order of their numbers: R85. -/
theorem FloatFmt.Holds.mono {f : FloatFmt} {k1 k2 E1 E2 m1 m2 : Nat} (h1 : f.Holds k1 E1 m1) (h2 : f.Holds k2 E2 m2) (le : k1 ≤ k2) :
    m1 * 2 ^ E1 ≤ m2 * 2 ^ E2 := by
  rcases lt_trichotomy E1 E2 with less | rfl | more
  · have double : m1 ≤ m2 * 2 := by
      rw [mul_two]
      exact h1.bits.le.trans (add_le_add (h2.normal.resolve_right (Nat.ne_zero_of_lt less)) (h2.normal.resolve_right (Nat.ne_zero_of_lt less)))
    calc m1 * 2 ^ E1 ≤ m2 * 2 * 2 ^ E1 := Nat.mul_le_mul_right _ double
      _ = m2 * 2 ^ (E1 + 1) := by rw [pow_succ', mul_assoc]
      _ ≤ m2 * 2 ^ E2 := Nat.mul_le_mul_left _ (Nat.pow_le_pow_right two_pos less)
  · rw [h1.code, h2.code] at le
    exact Nat.mul_le_mul_right _ (Nat.le_of_add_le_add_left le)
  · exact absurd le (h2.lt_of_lt h1 more).not_ge

/-- A magnitude in units of the least exponent. -/
theorem dyadic_whole (m E : Nat) (e : Int) : dyadic false m (e + E) = (m * 2 ^ E : Nat) * (2 : ℚ) ^ e := by
  rw [← dyadic_scaled, dyadic_pos]

/-- Magnitudes are in the order of their codes: R85. -/
theorem magnitude_mono {x y : Nat} {a r : ℚ} (ha : realOf b32 x = some a) (hr : realOf b32 y = some r) (le : x % 2 ^ 31 ≤ y % 2 ^ 31) :
    |a| ≤ |r| := by
  obtain ⟨E1, m1, holds1, size1⟩ := magnitude_holds ha
  obtain ⟨E2, m2, holds2, size2⟩ := magnitude_holds hr
  rw [size1, size2, dyadic_whole, dyadic_whole]
  exact mul_le_mul_of_nonneg_right (Nat.cast_le.mpr (holds1.mono holds2 le)) (zpow_nonneg zero_le_two _)

/-- The magnitude 0 is that of the number 0: R85. -/
theorem magnitude_eq_zero {x : Nat} {r : ℚ} (hr : realOf b32 x = some r) : x % 2 ^ 31 = 0 ↔ r = 0 := by
  obtain ⟨E, m, holds, size⟩ := magnitude_holds hr
  rw [← abs_eq_zero, size, holds.code]
  constructor
  · intro zero
    rw [Nat.eq_zero_of_add_eq_zero_left zero, dyadic_zero]
  · intro zero
    obtain rfl : m = 0 := by_contra fun some => (dyadic_positive some _).ne' zero
    rw [holds.normal.resolve_left b32.unit_pos.not_ge, zero_mul]

/-- The binary logarithm of an exact number, rounded down: R89. -/
theorem log_dyadic {m : Nat} (hm : m ≠ 0) (e : Int) : Int.log 2 (dyadic false m e) = e + m.log2 := by
  obtain ⟨low, high⟩ := dyadic_log hm e
  have positive := dyadic_positive hm e
  rw [add_comm e]
  apply le_antisymm
  · rw [← Int.lt_add_one_iff, ← Int.lt_zpow_iff_log_lt one_lt_two positive, Nat.cast_ofNat, add_right_comm]
    exact high
  · rw [← Int.zpow_le_iff_le_log one_lt_two positive, Nat.cast_ofNat]
    exact low

/-- A binary32 code is finite where its exponent field is not all ones: R85. -/
theorem realOf_b32_isSome (x : Nat) : (x / 2 ^ 23 % 256 != 255) = (realOf b32 x).isSome := by
  have fields : b32.value x = b32.fields (x.testBit 31) (x % 2 ^ 31 / b32.unit) (x % 2 ^ 31 % b32.unit) := rfl
  rw [show x / 2 ^ 23 % 256 = x % 2 ^ 31 / b32.unit from (Nat.mod_mul_right_div_self x (2 ^ 23) 256).symm, realOf, fields, FloatFmt.fields]
  generalize x % 2 ^ 31 / b32.unit = ex
  by_cases special : ex = 255
  · rw [if_pos special, special]
    split_ifs <;> rfl
  · rw [if_neg special, bne_iff_ne.mpr special]
    split_ifs <;> rfl

/-! ### Elements at an exponent -/

/-- A value in units of 2^e, rounded half to even; 0 for what is no number: R89. -/
noncomputable def scaledTo (e : Int) (x : Nat) : Int :=
  match b32.value x with
  | .fin s m k => rhe s m (k - e)
  | _ => 0

theorem scaledTo_halfEven {x : Nat} {r : ℚ} (hr : realOf b32 x = some r) (e : Int) : halfEven (r * (2 : ℚ) ^ (-e)) (scaledTo e x) := by
  obtain ⟨s, m, k, value, rfl⟩ := value_of_realOf hr
  rw [scaledTo, value, dyadic_shift, ← sub_eq_add_neg]
  exact halfEven_rhe s m (k - e)

theorem scaledTo_zero {x : Nat} (hr : realOf b32 x = some 0) (e : Int) : scaledTo e x = 0 := by
  have rounded := scaledTo_halfEven hr e
  rw [zero_mul] at rounded
  exact halfEven_unique rounded (Int.cast_zero (R := ℚ) ▸ halfEven_int 0)

/-- Where a value then lies beyond the bound: R89. -/
def beyondAt (lim e : Int) (x : Nat) : Prop :=
  ∃ r q, realOf b32 x = some r ∧ halfEven (r * (2 : ℚ) ^ (-e)) q ∧ (q < -lim ∨ lim < q)

theorem beyondAt_iff {lim e : Int} {x : Nat} {r : ℚ} (hr : realOf b32 x = some r) :
    beyondAt lim e x ↔ scaledTo e x < -lim ∨ lim < scaledTo e x := by
  constructor
  · rintro ⟨r', q, hr', rounded, far⟩
    obtain rfl := Option.some.inj (hr.symm.trans hr')
    rwa [halfEven_unique (scaledTo_halfEven hr e) rounded]
  · exact fun far => ⟨r, _, hr, scaledTo_halfEven hr e, far⟩

/-- An element in a block: its mantissa, and whether it counts as clamped and as invalid: R89. -/
noncomputable def blockEntry (lim e : Int) (x : Nat) : Int × Bool × Bool :=
  match b32.value x with
  | .nan => ((0 : Int), false, true)
  | .inf neg => (if neg then -lim else lim, true, false)
  | .fin _ m _ =>
    if m = 0 then (0, false, false)
    else
      let r := satInt (-lim) lim (scaledTo e x)
      (r.1, r.2, false)

theorem blockEntry_finite {lim : Int} (positive : 0 < lim) (e : Int) {x : Nat} {r : ℚ} (hr : realOf b32 x = some r) :
    blockEntry lim e x = (max (-lim) (min lim (scaledTo e x)), decide (scaledTo e x < -lim ∨ lim < scaledTo e x), false) := by
  obtain ⟨s, m, k, value, rfl⟩ := value_of_realOf hr
  rw [blockEntry, value]
  by_cases zero : m = 0
  · rw [zero, dyadic_zero] at hr
    have below := neg_lt_zero.mpr positive
    rw [scaledTo_zero hr, min_eq_right positive.le, max_eq_right below.le, decide_eq_false (not_or.mpr ⟨below.not_gt, positive.not_gt⟩)]
    exact if_pos zero
  · exact if_neg zero

theorem blockEntry_inf {lim e : Int} {x : Nat} {neg : Bool} (hx : b32.value x = .inf neg) :
    blockEntry lim e x = (if neg then -lim else lim, true, false) := by rw [blockEntry, hx]

theorem blockEntry_nan {lim e : Int} {x : Nat} (hx : b32.value x = .nan) : blockEntry lim e x = (0, false, true) := by
  rw [blockEntry, hx]

/-- An element counts as clamped beyond the bound and where it is infinite: R89. -/
theorem blockEntry_clamped {lim : Int} (positive : 0 < lim) (e : Int) (x : Nat) :
    (blockEntry lim e x).2.1 = true ↔ beyondAt lim e x ∨ ∃ neg, b32.value x = .inf neg := by
  cases value : b32.value x with
  | nan =>
    rw [blockEntry_nan value]
    refine iff_of_false Bool.false_ne_true ?_
    rintro (⟨r, q, hr, -⟩ | ⟨neg, same⟩)
    · rw [realOf, value] at hr
      exact no_rule hr
    · exact FVal.noConfusion same
  | inf neg =>
    rw [blockEntry_inf value]
    exact iff_of_true rfl (.inr ⟨neg, rfl⟩)
  | fin s m k =>
    rw [blockEntry_finite positive e (realOf_of_value value), beyondAt_iff (realOf_of_value value), decide_eq_true_iff]
    exact (or_iff_left fun ⟨neg, same⟩ => FVal.noConfusion same).symm

/-- An element counts as invalid where it is a NaN: R89. -/
theorem blockEntry_invalid {lim : Int} (positive : 0 < lim) (e : Int) (x : Nat) :
    (blockEntry lim e x).2.2 = true ↔ b32.isNan x = true := by
  rw [isNan_iff]
  cases value : b32.value x with
  | nan =>
    rw [blockEntry_nan value]
    exact iff_of_true rfl rfl
  | inf neg =>
    rw [blockEntry_inf value]
    exact iff_of_false Bool.false_ne_true FVal.noConfusion
  | fin s m k =>
    rw [blockEntry_finite positive e (realOf_of_value value)]
    exact iff_of_false Bool.false_ne_true FVal.noConfusion

/-! ### The exponent -/

/-- The finite values of a block, and the largest magnitude among their codes: R89. -/
noncomputable def finites (xs : List Nat) : List Nat := xs.filter (fun x => x / 2 ^ 23 % 256 != 255)

noncomputable def largest (xs : List Nat) : Nat := maxN ((finites xs).map (fun x => x % 2 ^ 31))

/-- The exponent a largest magnitude asks for: R89. -/
noncomputable def exponentFor (n a : Nat) : Int :=
  match b32.value a with
  | .fin _ m k => if m = 0 then -128 else max (-128) (min 127 (k + (m.log2 : Nat) - ((n : Int) - 2)))
  | _ => -128

/-- The exponent of a block: one more where a value then lies beyond the bound: R89. -/
noncomputable def blockExponent (n : Nat) (xs : List Nat) : Int :=
  let e0 := exponentFor n (largest xs)
  if largest xs ≠ 0 ∧ e0 < 127 ∧ (finites xs).any (fun x => decide ((scaledTo e0 x).natAbs > ((2 ^ (n - 1) : Nat) : Int) - 1)) then e0 + 1 else e0

/-- A block is its exponent, its mantissas and the counts of its elements: R89. -/
theorem toBs_eq (n : Nat) (xs : List Nat) :
    toBs n xs =
      (let ms := xs.map (blockEntry (((2 ^ (n - 1) : Nat) : Int) - 1) (blockExponent n xs))
       (blockExponent n xs, ms.map (fun m => m.1), ms.countP (fun m => m.2.1), ms.countP (fun m => m.2.2))) := rfl

theorem mem_finites {xs : List Nat} {x : Nat} : x ∈ finites xs ↔ x ∈ xs ∧ ∃ r, realOf b32 x = some r := by
  rw [finites, List.mem_filter, realOf_b32_isSome, Option.isSome_iff_exists]

/-- The largest magnitude is 0, or that of a finite value: R89. -/
theorem largest_eq (xs : List Nat) : largest xs = 0 ∨ ∃ x ∈ xs, ∃ r, realOf b32 x = some r ∧ x % 2 ^ 31 = largest xs := by
  refine (foldl_max_spec 0 ((finites xs).map (fun x => x % 2 ^ 31))).2.2.imp_right fun mem => ?_
  obtain ⟨x, hx, same⟩ := List.mem_map.mp mem
  obtain ⟨mem, r, hr⟩ := mem_finites.mp hx
  exact ⟨x, mem, r, hr, same⟩

theorem le_largest {xs : List Nat} {x : Nat} {r : ℚ} (mem : x ∈ xs) (hr : realOf b32 x = some r) : x % 2 ^ 31 ≤ largest xs :=
  (foldl_max_spec 0 ((finites xs).map (fun x => x % 2 ^ 31))).2.1 _ (List.mem_map_of_mem (mem_finites.mpr ⟨mem, r, hr⟩))

/-- The exponent that a magnitude other than 0 asks for: R89. -/
theorem exponentFor_magnitude (n : Nat) {x : Nat} {r : ℚ} (hr : realOf b32 x = some r) (ne : r ≠ 0) :
    exponentFor n (x % 2 ^ 31) = max (-128) (min 127 (Int.log 2 |r| - ((n : Int) - 2))) := by
  obtain ⟨E, m, holds, size⟩ := magnitude_holds hr
  have nonzero : m ≠ 0 := fun zero => ne (abs_eq_zero.mp (size.trans (zero ▸ dyadic_zero ..)))
  rw [exponentFor, show b32.value (x % 2 ^ 31) = _ from FloatFmt.value_of_holds wide_b32 holds false, size, log_dyadic nonzero]
  exact if_neg nonzero

/-- Some finite value lies beyond a bound: R89. -/
theorem any_beyond {xs : List Nat} {lim e : Int} :
    (finites xs).any (fun x => decide ((scaledTo e x).natAbs > lim)) = true ↔ ∃ x ∈ xs, beyondAt lim e x := by
  have beyond {x : Nat} : decide ((scaledTo e x).natAbs > lim) = true ↔ scaledTo e x < -lim ∨ lim < scaledTo e x := by
    rw [decide_eq_true_iff, Int.natCast_natAbs, gt_iff_lt, lt_abs, lt_neg, or_comm]
  rw [List.any_eq_true]
  constructor
  · rintro ⟨x, hx, far⟩
    obtain ⟨mem, r, hr⟩ := mem_finites.mp hx
    exact ⟨x, mem, (beyondAt_iff hr).mpr (beyond.mp far)⟩
  · rintro ⟨x, mem, r, q, hr, far⟩
    exact ⟨x, mem_finites.mpr ⟨mem, r, hr⟩, beyond.mpr ((beyondAt_iff hr).mp ⟨r, q, hr, far⟩)⟩

/-- Without a number other than 0 the exponent is the least: R89. -/
theorem blockExponent_zero (n : Nat) {xs : List Nat} (zero : ∀ x ∈ xs, ∀ r, realOf b32 x = some r → r = 0) : blockExponent n xs = -128 := by
  have none : largest xs = 0 := (largest_eq xs).elim id fun ⟨x, mem, _, hr, same⟩ => same ▸ (magnitude_eq_zero hr).mpr (zero x mem _ hr)
  rw [blockExponent, none]
  exact if_neg fun h => h.1 rfl

/-- The largest finite value sets the exponent: R89. -/
theorem exponentFor_largest (n : Nat) {xs : List Nat} {x : Nat} {a : ℚ} (mem : x ∈ xs) (ha : realOf b32 x = some a) (ne : a ≠ 0)
    (most : ∀ y ∈ xs, ∀ r, realOf b32 y = some r → |r| ≤ |a|) :
    largest xs ≠ 0 ∧ exponentFor n (largest xs) = max (-128) (min 127 (Int.log 2 |a| - ((n : Int) - 2))) := by
  have least := le_largest mem ha
  have some : largest xs ≠ 0 := fun none => ne ((magnitude_eq_zero ha).mp (nonpos_iff_eq_zero.mp (none ▸ least)))
  obtain ⟨y, memY, r, hr, same⟩ := (largest_eq xs).resolve_left some
  rw [← same] at least some ⊢
  rw [(magnitude_mono ha hr least).antisymm (most y memY r hr)]
  exact ⟨some, exponentFor_magnitude n hr (mt (magnitude_eq_zero hr).mpr some)⟩

/-- The exponent of a block is one more where a value then lies beyond the bound: R89. -/
theorem blockExponent_largest (n : Nat) {xs : List Nat} {e0 : Int} (h : largest xs ≠ 0 ∧ exponentFor n (largest xs) = e0) :
    ((e0 < 127 ∧ ∃ y ∈ xs, beyondAt (((2 ^ (n - 1) : Nat) : Int) - 1) e0 y) → blockExponent n xs = e0 + 1) ∧
    (¬ (e0 < 127 ∧ ∃ y ∈ xs, beyondAt (((2 ^ (n - 1) : Nat) : Int) - 1) e0 y) → blockExponent n xs = e0) := by
  rw [← any_beyond, blockExponent, h.2]
  exact ⟨fun beyond => if_pos ⟨h.1, beyond⟩, fun within => if_neg fun both => within both.2⟩

/-! ### Blocks -/

/-- A list as the values at its places. -/
theorem places (xs : List Nat) : xs = (List.range xs.length).map (fun j => xs.getD j 0) := by
  refine List.ext_getElem (by rw [List.length_map, List.length_range]) fun j h _ => ?_
  rw [List.getElem_map, List.getElem_range, List.getD_eq_getElem xs 0 h]

/-- The places of a block where an element counts. -/
theorem mem_counted {p : Nat → Bool} {P : Nat → Prop} (h : ∀ j, p j = true ↔ P j) (j : Nat) :
    j ∈ (List.range 32).filter p ↔ j < 32 ∧ P j := by
  rw [List.mem_filter, List.mem_range, h]

/-- The values of a block and their places: R89. -/
theorem mem_block {xs : List Nat} (h : xs.length = 32) {y : Nat} : y ∈ xs ↔ ∃ j, j < 32 ∧ xs.getD j 0 = y := by
  have member : y ∈ (List.range 32).map (fun j => xs.getD j 0) ↔ ∃ j, j < 32 ∧ xs.getD j 0 = y := by
    rw [List.mem_map]
    exact exists_congr fun j => and_congr_left' List.mem_range
  rwa [← h, ← places xs, h] at member

theorem forall_block {xs : List Nat} (h : xs.length = 32) {P : Nat → Prop} (all : ∀ j, j < 32 → P (xs.getD j 0)) : ∀ y ∈ xs, P y := by
  intro y hy
  obtain ⟨j, hj, rfl⟩ := (mem_block h).mp hy
  exact all j hj

theorem exists_beyond {xs : List Nat} (h : xs.length = 32) (lim e : Int) :
    (∃ y ∈ xs, beyondAt lim e y) ↔ ∃ j, j < 32 ∧ beyondAt lim e (xs.getD j 0) :=
  ⟨fun ⟨_, hy, far⟩ => let ⟨j, hj, same⟩ := (mem_block h).mp hy; ⟨j, hj, same ▸ far⟩,
   fun ⟨j, hj, far⟩ => ⟨_, (mem_block h).mpr ⟨j, hj, rfl⟩, far⟩⟩

/-- A block counts its elements at their places: R89. -/
theorem toBs_places {n : Nat} {xs : List Nat} {lim : Int} (h : xs.length = 32) (limit : ((2 ^ (n - 1) : Nat) : Int) - 1 = lim) :
    toBs n xs = (blockExponent n xs, (List.range 32).map fun j => (blockEntry lim (blockExponent n xs) (xs.getD j 0)).1,
      ((List.range 32).filter fun j => (blockEntry lim (blockExponent n xs) (xs.getD j 0)).2.1).length,
      ((List.range 32).filter fun j => (blockEntry lim (blockExponent n xs) (xs.getD j 0)).2.2).length) := by
  have block := toBs_eq n xs
  rw [limit] at block
  generalize blockExponent n xs = e at block ⊢
  rw [block, ← List.countP_eq_length_filter, ← List.countP_eq_length_filter]
  conv_lhs => rw [places xs, h]
  dsimp only
  rw [List.map_map, List.countP_map, List.countP_map, List.map_map]
  rfl

/-- Element `j` of a block: R89. -/
theorem mantissa_at {lim : Int} (positive : 0 < lim) (e : Int) (x : Nat → Nat) {j : Nat} (hj : j < 32) :
    (∀ r, realOf b32 (x j) = some r → ∃ q, halfEven (r * (2 : ℚ) ^ (-e)) q ∧
      ((List.range 32).map fun j => (blockEntry lim e (x j)).1).getD j 0 = max (-lim) (min lim q)) ∧
    (∀ neg, b32.value (x j) = .inf neg → ((List.range 32).map fun j => (blockEntry lim e (x j)).1).getD j 0 = if neg then -lim else lim) ∧
    (b32.isNan (x j) = true → ((List.range 32).map fun j => (blockEntry lim e (x j)).1).getD j 0 = 0) := by
  rw [List.getD_eq_getElem _ _ (by rwa [List.length_map, List.length_range]), List.getElem_map, List.getElem_range]
  exact ⟨fun r hr => ⟨_, scaledTo_halfEven hr e, congrArg Prod.fst (blockEntry_finite positive e hr)⟩,
    fun neg hx => congrArg Prod.fst (blockEntry_inf hx), fun hx => congrArg Prod.fst (blockEntry_nan (isNan_iff.mp hx))⟩

theorem blockExponent_spec {n : Nat} {xs : List Nat} {lim : Int} (h : xs.length = 32) (limit : ((2 ^ (n - 1) : Nat) : Int) - 1 = lim)
    {i : Nat} {a : ℚ} (hi : i < 32) (ha : realOf b32 (xs.getD i 0) = some a) (ne : a ≠ 0)
    (most : ∀ j r, j < 32 → realOf b32 (xs.getD j 0) = some r → |r| ≤ |a|) {e0 : Int}
    (he : max (-128) (min 127 (Int.log 2 |a| - ((n : Int) - 2))) = e0) :
    ((e0 < 127 ∧ ∃ j, j < 32 ∧ beyondAt lim e0 (xs.getD j 0)) → blockExponent n xs = e0 + 1) ∧
    (¬ (e0 < 127 ∧ ∃ j, j < 32 ∧ beyondAt lim e0 (xs.getD j 0)) → blockExponent n xs = e0) := by
  subst he limit
  rw [← exists_beyond h]
  exact blockExponent_largest n (exponentFor_largest n ((mem_block h).mpr ⟨i, hi, rfl⟩) ha ne (forall_block h fun j hj r => most j r hj))

theorem blockScaling : Claim.BlockScaling := fun n xs hn h =>
  have limit : ((2 ^ (n - 1) : Nat) : Int) - 1 = 2 ^ (n - 1) - 1 := congrArg (· - 1) (Nat.cast_pow 2 (n - 1))
  have positive := (by decide : ∀ n ∈ [4, 6, 8, 12, 16], (0 : Int) < 2 ^ (n - 1) - 1) n hn
  exists_four ⟨toBs_places h limit, (List.length_map _).trans List.length_range,
    fun zero => blockExponent_zero n (forall_block h fun j hj r => zero j r hj),
    fun _ _ hi ha ne most => blockExponent_spec h limit hi ha ne most rfl,
    fun _ hj => mantissa_at positive _ (xs.getD · 0) hj,
    List.nodup_range.filter _, fun j => (mem_counted (fun j => blockEntry_clamped positive _ (xs.getD j 0)) j).trans and_or_left,
    List.nodup_range.filter _, mem_counted fun j => blockEntry_invalid positive _ (xs.getD j 0)⟩

/-- Settles O22: the conversion row writes its slice (`VSlot.convert_eq`), each value is rounded once (`conversionResults`), and the exponent
of a block is that of its largest finite value (`blockExponent_largest`). -/
theorem conversionsAndBlocks : Obligations.ConversionsAndBlocks := ⟨⟨vectorConverts, conversionResults⟩, blockScaling⟩

end Sys2Proof.Machine
end

section
/-!
PROOFS. The widening multiply-add (R85, R114) and the conversion of two blocks (R81, R118).
-/

namespace Sys2Proof.Machine

open Claim

/-- An integer as `w` bits is its residue: R115. -/
theorem wrapN_eq (w : Nat) (i : Int) : wrapN w i = (i % 2 ^ w).toNat := by
  rw [wrapN, BitVec.toNat_ofInt, Nat.cast_pow]
  rfl

theorem wrapN_mod (w : Nat) (i : Int) : wrapN w i % 2 ^ w = (i % 2 ^ w).toNat :=
  (Nat.mod_eq_of_lt (BitVec.isLt _)).trans (wrapN_eq w i)

theorem length_toBs (n : Nat) (xs : List Nat) : (toBs n xs).2.1.length = xs.length :=
  (List.length_map _).trans (List.length_map _)

/-! ### Fields of the rows -/

theorem ty_of_vWfma {v : VSlot} (h : (Instr.vWfma v).wf = true) : v.ty = 1 := by
  change (_ && v.ty == 1) = true at h
  rw [Bool.and_eq_true] at h
  exact beq_iff_eq.mp h.2

/-- The slices of a block conversion fill its register: R118. -/
theorem cvtbsParts_fill : ∀ bs : Fin 16, 64 * cvtbsParts bs ≤ 2048 / bsContainer bs := by decide

theorem part_of_wfCvtbs {v : VSlot} (h : v.wfCvtbs = true) : v.part < cvtbsParts v.bs := by
  rw [VSlot.wfCvtbs, Bool.and_eq_true, Bool.and_eq_true, Bool.and_eq_true] at h
  exact of_decide_eq_true h.1.1.2

/-- Three-valued order of a place and two ends of a slice. -/
theorem slice_apart {part i k : Nat} (hi : i < 64) (outside : k < 64 * part ∨ 64 * (part + 1) ≤ k) : 64 * part + i ≠ k := by
  rintro rfl
  exact outside.elim (Nat.le_add_right _ _).not_gt (slice_fits hi (Nat.lt_succ_self part)).not_ge

end Sys2Proof.Machine

namespace Sys2Proof

open Machine Claim

/-- Element `j` of a widening multiply-add: R85, R114. -/
noncomputable def VSlot.widened (v : VSlot) (c : Core) (j : Nat) : FRes :=
  b32.fmaV (bf16.value (elemAt 16 (c.readV v.va) ((if v.half then 64 else 0) + j)))
    (bf16.value (elemAt 16 (c.readV v.vb) ((if v.half then 64 else 0) + j))) (b32.value (elemAt 32 (c.readV v.vc) j))

/-- The elements that a widening multiply-add computes: R110, R114. -/
noncomputable def VSlot.wideOn (v : VSlot) (c : Core) : List Nat := v.active c (min c.readVl 64) fun j => (if v.half then 64 else 0) + j

/-- A widening multiply-add writes and counts its active elements: R87, R114. -/
theorem VSlot.wfma_eq {v : VSlot} (hty : v.ty = 1) (s : State) : actVWfma v s =
    (let c := s.core v.core.toNat
     s.modCore v.core.toNat (counted [elemPend s v.core.toNat v.vd 6 32 ((v.wideOn c).map fun j => (j, (v.widened c j).bits))] 0
      ((v.wideOn c).countP fun j => (v.widened c j).invalid) ((v.wideOn c).countP fun j => (v.widened c j).overflow))) := by
  have width : tyWidth v.ty = 16 := by rw [hty]; rfl
  dsimp only
  rw [← State.numStat_writeElems, actVWfma, State.countRes]
  simp only [VSlot.a, VSlot.b, width]
  rw [List.map_map, List.map_map, List.countP_map, List.countP_map]
  rfl

/-- Block `k` of 32 values, those from n up taken as +0: R118. -/
noncomputable def VSlot.block (v : VSlot) (c : Core) (k : Nat) : Int × List Int × Nat × Nat :=
  toBs (bsBits v.bs) ((List.range 32).map (fun i => if 32 * k + i < min c.readVl 64 then elemAt 32 (c.readV v.va) (32 * k + i) else 0))

/-- Mantissa `j` of the two blocks: R118. -/
theorem VSlot.mantissa (v : VSlot) (c : Core) {j : Nat} (hj : j < 64) :
    ((v.block c 0).2.1 ++ (v.block c 1).2.1).getD j 0 = (v.block c (j / 32)).2.1.getD (j % 32) 0 := by
  have length (k : Nat) : (v.block c k).2.1.length = 32 := by rw [VSlot.block, length_toBs, List.length_map, List.length_range]
  rcases Nat.lt_or_ge j 32 with first | second
  · rw [List.getD_append _ _ _ _ (by rwa [length]), Nat.div_eq_of_lt first, Nat.mod_eq_of_lt first]
  · obtain ⟨i, rfl⟩ := Nat.exists_eq_add_of_le second
    have low : i < 32 := Nat.lt_of_add_lt_add_left hj
    rw [List.getD_append_right _ _ _ _ (by rwa [length]), length, Nat.add_sub_cancel_left, Nat.add_div_left _ (by decide), Nat.add_mod_left,
      Nat.div_eq_of_lt low, Nat.mod_eq_of_lt low]

/-- The mantissas of both blocks in slice `part`: R118. -/
noncomputable def VSlot.mantissas (v : VSlot) (c : Core) : List (Nat × Nat) :=
  (List.range 64).map fun i => (64 * v.part + i, wrapN (bsContainer v.bs) (((v.block c 0).2.1 ++ (v.block c 1).2.1).getD i 0))

/-- The exponents of both blocks: R118. -/
noncomputable def VSlot.exponents (v : VSlot) (c : Core) : List (Nat × Nat) := (List.range 2).map fun k => (2 * v.xs + k, wrapN 8 (v.block c k).1)

/-- A conversion of blocks writes the mantissas and the exponents of two, and counts their elements: R87, R118. -/
theorem VSlot.convertBs_eq (v : VSlot) (s : State) : v.convertBs s =
    (let c := s.core v.core.toNat
     s.modCore v.core.toNat (counted
      ([elemPend s v.core.toNat v.vd 9 (bsContainer v.bs) (v.mantissas c)] ++ [elemPend s v.core.toNat v.vc 9 8 (v.exponents c)])
      ((v.block c 0).2.2.1 + (v.block c 1).2.2.1) ((v.block c 0).2.2.2 + (v.block c 1).2.2.2) 0)) := by
  have first : v.block (s.core v.core.toNat) 0 = toBs (bsBits v.bs) ((List.range 32).map (fun i =>
      if i < (s.core v.core.toNat).count 64 then elemAt 32 ((s.core v.core.toNat).readV v.va) i else 0)) := by
    simp only [VSlot.block, Nat.mul_zero, Nat.zero_add]
    rfl
  dsimp only
  rw [← State.counted_writeElems, ← State.numStat_writeElems, VSlot.mantissas, first]
  rfl

variable {v : VSlot} (c : Core) (old : BitVec 2048)

theorem VSlot.mantissas_landed (h : v.wfCvtbs = true) {j : Nat} (hj : j < 64) :
    elemAt (bsContainer v.bs) (mergeElems (bsContainer v.bs) old (v.mantissas c)) (64 * v.part + j) =
      ((v.block c (j / 32)).2.1.getD (j % 32) 0 % 2 ^ bsContainer v.bs).toNat := by
  have fits := (slice_fits hj (part_of_wfCvtbs h)).trans_le (cvtbsParts_fill ⟨v.bs, BitVec.isLt _⟩)
  rw [VSlot.mantissas, elemAt_mergeElems_of_mem old (fun i => 64 * v.part + i) _ (List.nodup_range.map (add_right_injective _))
    (List.mem_range.mpr hj) (element_fits fits), wrapN_mod, v.mantissa _ hj]

theorem VSlot.mantissas_between {k : Nat} (hk : k < 2048 / bsContainer v.bs) (outside : k < 64 * v.part ∨ 64 * (v.part + 1) ≤ k) :
    elemAt (bsContainer v.bs) (mergeElems (bsContainer v.bs) old (v.mantissas c)) k = elemAt (bsContainer v.bs) old k :=
  elemAt_mergeElems_of_ne old _ _ (element_fits hk) fun _ hi => slice_apart (List.mem_range.mp hi) outside

theorem VSlot.exponents_landed {k : Nat} (hk : k < 2) :
    elemAt 8 (mergeElems 8 old (v.exponents c)) (2 * v.xs + k) = ((v.block c k).1 % 256).toNat := by
  have fits : 2 * v.xs + k < 2 * 128 := slice_fits hk (BitVec.isLt _ : v.xs < 128)
  rw [VSlot.exponents, elemAt_mergeElems_of_mem old (fun k => 2 * v.xs + k) _ (List.nodup_range.map (add_right_injective _))
    (List.mem_range.mpr hk) (element_fits (w := 8) fits), wrapN_mod]
  rfl

theorem VSlot.exponents_between {k : Nat} (hk : k < 256) (first : k ≠ 2 * v.xs) (second : k ≠ 2 * v.xs + 1) :
    elemAt 8 (mergeElems 8 old (v.exponents c)) k = elemAt 8 old k := by
  refine elemAt_mergeElems_of_ne old _ _ (element_fits (w := 8) hk) fun i hi => ?_
  rcases List.mem_pair.mp (show i ∈ [0, 1] from hi) with rfl | rfl
  · exact first.symm
  · exact second.symm

end Sys2Proof

namespace Sys2Proof.Machine

open Claim

theorem wideningFma : Claim.WideningFma := fun s v hi =>
  exists_four ⟨SlotShape.exec_eq (.slot rfl _ fun _ => rfl) hi (VSlot.wfma_eq (ty_of_vWfma (wf_of_issuesNow hi)) s) rfl, rfl,
    fun _ ne => s.core_modCore_ne _ ne, s.core_modCore .., v.nodup_active .., fun _ => VSlot.mem_active,
    fun old _ hj => elemAt_landed old (v.nodup_active ..) (fun _ => Iff.rfl) _ (element_fits (w := 32) hj)⟩

theorem blockConverts : Claim.BlockConverts := fun s v hi =>
  exists_five ⟨SlotShape.exec_eq (.slot rfl _ fun _ => rfl) hi (v.convertBs_eq s) rfl, rfl, fun _ ne => s.core_modCore_ne _ ne,
    s.core_modCore .., fun old => ⟨fun _ hj => VSlot.mantissas_landed _ old (wf_of_issuesNow hi) hj,
      fun _ hk outside => VSlot.mantissas_between _ old hk outside, fun _ hk => VSlot.exponents_landed _ old hk,
      fun _ hk first second => VSlot.exponents_between _ old hk first second⟩⟩

/-- Settles O23: both rows write and count in their own core alone (`VSlot.wfma_eq`, `VSlot.convertBs_eq`), each element in its place. -/
theorem wideningAndBlockRows : Obligations.WideningAndBlockRows := ⟨wideningFma, blockConverts⟩

end Sys2Proof.Machine
end
